-- ==== Sys2Proof/Word.lean ====
section
/-! DEFINITION. Word types of the model: bytes, the machine's words, one 64 B line, and the sparse
list type that stands for memories and tables. -/

namespace Sys2Proof

abbrev Byte := BitVec 8
abbrev W12 := BitVec 12
abbrev W32 := BitVec 32
abbrev W64 := BitVec 64
/-- One 64 B line of memory, one flit payload (R7: byte 0 is bits [7:0]). -/
abbrev Line := BitVec 512
/-- One vector register (R89). -/
abbrev V1024 := BitVec 1024
/-- A sparse table: keys strictly rising; a key that is not listed has the table's default. -/
abbrev Tab (α : Type) := List (Nat × α)

end Sys2Proof
end

