-- ==== Sys2Proof/Syntax.lean ====
section
/-! DEFINITION. The commands of the block: one constructor of Instr per row of spec/opcode_table.json,
with the operands the spec's words and messages give it. -/

namespace Sys2Proof

/-- A traffic class (R301). -/
inductive Cls where
  | a
  | b
  | c
  deriving DecidableEq, Repr

/-- How one channel transfer ended (R212): clean, corrected by the line code, uncorrectable, or a CRC mismatch. -/
inductive Transfer where
  | good
  | corrected
  | uncorrectable
  | crcFail
  deriving DecidableEq, Repr

/-- One access of a die unit to a line of a stack (R212): the repeats that its CRC asked for and how it ended; a CRC
mismatch at the end is the fourth. -/
structure Access where
  repeats : BitVec 2 := 0
  result : Transfer := .good
  deriving DecidableEq, Repr

/-- Bit errors that one word of a flit takes between two stops (R185): word 0 to 9, one bit or two. -/
structure WordErr where
  word : BitVec 4
  two : Bool
  deriving DecidableEq, Repr

/-- A repairable unit (Table 16-2). -/
inductive UnitId where
  | site (prow pcol : Nat)
  | channel (stack chan : Nat)
  | lane (link lane : Nat)
  | link (k : Nat)
  | modul (node : Nat)
  deriving DecidableEq, Repr

/-- Where a group 0x2 message comes from (R350). -/
inductive MgmtSrc where
  | link (k : Nat)
  | warden
  deriving DecidableEq, Repr

/-- Where a warden operation comes from: a bay's warden channel (R412), or the service port with its framed bytes (R413). -/
inductive TraySrc where
  | channel (bay : Nat)
  | service (frame : List Byte)
  deriving DecidableEq, Repr

/-- Warden A or warden B. -/
inductive Warden where
  | a
  | b
  deriving DecidableEq, Repr

/-- Why the standby warden claims the latch (R389). -/
inductive ClaimCause where
  | missedPulse
  | cardAbsent (card : Warden)
  | linkSilent
  | commanded
  deriving DecidableEq, Repr

/-- One end of a warden channel (R410). -/
inductive ChanEnd where
  | die
  | bay (b : Nat)
  deriving DecidableEq, Repr

/-- The reports of Table 18-11. -/
inductive ReportKind where
  | stateSummary
  | startFailed
  | paceAlarm
  | stackChannel (stack chan : Nat)
  | stackDegraded
  | linkQuarantine (link : Nat)
  deriving DecidableEq, Repr

/-- A thread: logical core (row.col), R15, and thread number t0 to t3. -/
structure ThreadAt where
  (row : BitVec 5)
  (col : BitVec 5)
  (t : BitVec 2)
  deriving DecidableEq, Repr

/-- A logical core (row.col), R15. -/
structure CoreAt where
  (row : BitVec 5)
  (col : BitVec 5)
  deriving DecidableEq, Repr

/-- One reading of a sense point: the comparisons of V_die with 0.62, 0.72 and 0.73 V (R429). -/
structure SenseReading where
  (below062 : Bool)
  (below072 : Bool)
  (atLeast073 : Bool)
  deriving DecidableEq, Repr

/-- INT group word, format RR with the W bit (Table 3-6). -/
structure IntOp where
  (w : Bool)
  (rd ra rb : BitVec 5)
  deriving DecidableEq, Repr

/-- INT group word that reads only ra; rb is zero (Table 3-6). -/
structure IntUn where
  (w : Bool)
  (rd ra : BitVec 5)
  deriving DecidableEq, Repr

/-- rd, ra, rb with no further field (MULHI, AMO). -/
structure XOp where
  (rd ra rb : BitVec 5)
  deriving DecidableEq, Repr

/-- Format RI: rd (or rs), ra, imm16 (Table 3-4). -/
structure ImmOp where
  (rd ra : BitVec 5)
  (imm : BitVec 16)
  deriving DecidableEq, Repr

/-- SHI: W, rd, ra and the amount imm16[5:0] (Table 3-7). -/
structure ShOp where
  (w : Bool)
  (rd ra : BitVec 5)
  (amt : BitVec 6)
  deriving DecidableEq, Repr

/-- Format RU (LIU). -/
structure LiuOp where
  (rd : BitVec 5)
  (imm : BitVec 21)
  deriving DecidableEq, Repr

/-- Format RB: branches. -/
structure BrOp where
  (ra rb : BitVec 5)
  (off : BitVec 16)
  deriving DecidableEq, Repr

/-- Format J: JMP, JAL. -/
structure JOp where
  (off : BitVec 26)
  deriving DecidableEq, Repr

/-- FP group, two sources, rounding (Table 3-9). -/
structure FpOp where
  (d : Bool)
  (rm : BitVec 3)
  (rd ra rb : BitVec 5)
  deriving DecidableEq, Repr

/-- FP group, one source, rounding; rb is zero. -/
structure FpUn where
  (d : Bool)
  (rm : BitVec 3)
  (rd ra : BitVec 5)
  deriving DecidableEq, Repr

/-- FP group, two sources, no rounding; rm is zero. -/
structure FpCmp where
  (d : Bool)
  (rd ra rb : BitVec 5)
  deriving DecidableEq, Repr

/-- FP group, one source, no rounding; rm and rb are zero. -/
structure FpMov where
  (d : Bool)
  (rd ra : BitVec 5)
  deriving DecidableEq, Repr

/-- FNARROW and FWIDEN: D and rb are zero. -/
structure FpCvt where
  (rm : BitVec 3)
  (rd ra : BitVec 5)
  deriving DecidableEq, Repr

/-- FMA group, format RRR. -/
structure FmaOp where
  (d : Bool)
  (rm : BitVec 3)
  (rd ra rb rc : BitVec 5)
  deriving DecidableEq, Repr

/-- LOOP: ra and the body length n. -/
structure LoopOp where
  (ra : BitVec 5)
  (n : BitVec 16)
  deriving DecidableEq, Repr

/-- An instruction with one destination field only. -/
structure RdOp where
  (rd : BitVec 5)
  deriving DecidableEq, Repr

/-- An instruction with one source field only. -/
structure RaOp where
  (ra : BitVec 5)
  deriving DecidableEq, Repr

/-- RDCR: rd and the control register number. -/
structure CrRd where
  (rd : BitVec 5)
  (crn : BitVec 11)
  deriving DecidableEq, Repr

/-- WRCR: ra and the control register number. -/
structure CrWr where
  (ra : BitVec 5)
  (crn : BitVec 11)
  deriving DecidableEq, Repr

/-- TRAP: the code of the crn field. -/
structure TrapOp where
  (code : BitVec 11)
  deriving DecidableEq, Repr

/-- rd and ra. -/
structure RdRa where
  (rd ra : BitVec 5)
  deriving DecidableEq, Repr

/-- ra and rb. -/
structure RaRb where
  (ra rb : BitVec 5)
  deriving DecidableEq, Repr

/-- Vector memory, unit-stride and broadcast forms; rb is zero (Table 4-5). -/
structure VmOp where
  (vd ra : BitVec 5)
  (m : BitVec 3)
  (imm : BitVec 4)
  deriving DecidableEq, Repr

/-- Vector memory, strided forms. -/
structure VmStr where
  (vd ra rb : BitVec 5)
  (m : BitVec 3)
  (imm : BitVec 4)
  deriving DecidableEq, Repr

/-- Vector register form with D and a mask (Tables 4-6, 4-7). -/
structure ViOp where
  (d : Bool)
  (vd va vb : BitVec 5)
  (m : BitVec 3)
  deriving DecidableEq, Repr

/-- Vector compare into a mask register. -/
structure VCmpOp where
  (d : Bool)
  (md : BitVec 3)
  (va vb : BitVec 5)
  (m : BitVec 3)
  deriving DecidableEq, Repr

/-- VSPLAT; vb is zero. -/
structure VSplatOp where
  (d : Bool)
  (vd xa : BitVec 5)
  (m : BitVec 3)
  deriving DecidableEq, Repr

/-- VEXT: xd := lane xb of va. -/
structure VExtOp where
  (d : Bool)
  (xd va xb : BitVec 5)
  deriving DecidableEq, Repr

/-- VINS: lane xb of vd := xa. -/
structure VInsOp where
  (d : Bool)
  (vd xa xb : BitVec 5)
  deriving DecidableEq, Repr

/-- VPERMB; D and m are zero. -/
structure VPermbOp where
  (vd va vb : BitVec 5)
  deriving DecidableEq, Repr

/-- Vector floating point with rounding; d selects op 0x2B (Table 4-7). -/
structure VfOp where
  (d : Bool)
  (rm : BitVec 3)
  (vd va vb : BitVec 5)
  (m : BitVec 3)
  deriving DecidableEq, Repr

/-- Vector floating point, one source, rounding; vb is zero. -/
structure VfUn where
  (d : Bool)
  (rm : BitVec 3)
  (vd va : BitVec 5)
  (m : BitVec 3)
  deriving DecidableEq, Repr

/-- Vector floating point, one source, no rounding; vb and rm are zero. -/
structure VUnOp where
  (d : Bool)
  (vd va : BitVec 5)
  (m : BitVec 3)
  deriving DecidableEq, Repr

/-- VFMA group, format VF4. -/
structure VfmaOp where
  (d : Bool)
  (vd va vb vc : BitVec 5)
  (m : BitVec 3)
  deriving DecidableEq, Repr

/-- VCVT, format VC (R96). -/
structure VcvtOp where
  (vd va : BitVec 5)
  (dst src : BitVec 4)
  (rnd : BitVec 3)
  (sat : Bool)
  (seg : BitVec 3)
  deriving DecidableEq, Repr

/-- VMX with dir = 0, format VX (R100). -/
structure VmxDn where
  (vd va rb : BitVec 5)
  (efmt rnd : BitVec 3)
  (sat : Bool)
  (mxs : BitVec 2)
  (mxen : Bool)
  deriving DecidableEq, Repr

/-- VMX with dir = 1; rnd, sat, mxs, mxen are zero (R101). -/
structure VmxUp where
  (vd va rb : BitVec 5)
  (efmt : BitVec 3)
  deriving DecidableEq, Repr

/-- Mask to mask: md, ma, mb (Table 4-10). -/
structure MaskOp where
  (md ma mb : BitVec 3)
  deriving DecidableEq, Repr

/-- Mask to x register: xd, ma. -/
structure MaskTo where
  (xd : BitVec 5)
  (ma : BitVec 3)
  deriving DecidableEq, Repr

/-- VMFX: md, xa. -/
structure MaskFrom where
  (md : BitVec 3)
  (xa : BitVec 5)
  deriving DecidableEq, Repr

/-- VMXR: vd := mx register. -/
structure MxRd where
  (vd : BitVec 5)
  (mx : BitVec 2)
  deriving DecidableEq, Repr

/-- VMXW: mx register := va. -/
structure MxWr where
  (va : BitVec 5)
  (mx : BitVec 2)
  deriving DecidableEq, Repr

/-- VMXS (R103). -/
structure VmxsOp where
  (vd : BitVec 5)
  (mx : BitVec 2)
  (efmt : BitVec 3)
  (h : BitVec 2)
  (reset : Bool)
  deriving DecidableEq, Repr

/-- VCRC64 (R104). -/
structure CrcOp where
  (xd va xb : BitVec 5)
  deriving DecidableEq, Repr

/-- TLD (Table 5-8): nrow1 is nrow - 1. -/
structure TldOp where
  (tgt : BitVec 4)
  (ra rb : BitVec 5)
  (lay : BitVec 2)
  (fmt : BitVec 4)
  (nrow1 : BitVec 5)
  (resume : Bool)
  deriving DecidableEq, Repr

/-- TST (Table 5-8). -/
structure TstOp where
  (src : BitVec 4)
  (ra rb : BitVec 5)
  (nrow1 : BitVec 5)
  deriving DecidableEq, Repr

/-- TLDS (Table 5-9). -/
structure TldsOp where
  (sc : BitVec 2)
  (ra rb : BitVec 5)
  (resume : Bool)
  deriving DecidableEq, Repr

/-- TSTS (Table 5-9). -/
structure TstsOp where
  (sc : BitVec 2)
  (ra rb : BitVec 5)
  deriving DecidableEq, Repr

/-- TSCW (Table 5-9). -/
structure TscwOp where
  (sc : BitVec 2)
  (va rb : BitVec 5)
  deriving DecidableEq, Repr

/-- TSCF (Table 5-9). -/
structure TscfOp where
  (sc : BitVec 2)
  (ra : BitVec 5)
  deriving DecidableEq, Repr

/-- TWR (Table 5-9). -/
structure TwrOp where
  (td : BitVec 3)
  (va rb : BitVec 5)
  (fmt : BitVec 4)
  (lay : BitVec 2)
  deriving DecidableEq, Repr

/-- TRD (Table 5-9). -/
structure TrdOp where
  (ts : BitVec 3)
  (vd rb : BitVec 5)
  deriving DecidableEq, Repr

/-- TRL (Table 5-9). -/
structure TrlOp where
  (td : BitVec 3)
  (lay : BitVec 2)
  deriving DecidableEq, Repr

/-- TZ (Table 5-9). -/
structure TzOp where
  (td : BitVec 3)
  (fmt : BitVec 4)
  (lay : BitVec 2)
  deriving DecidableEq, Repr

/-- MMA word (Table 5-8). -/
structure MmaOp where
  (acd : BitVec 2)
  (ta tb : BitVec 3)
  (sa sb : BitVec 2)
  (fmt : BitVec 4)
  (mx zero chk : Bool)
  deriving DecidableEq, Repr

/-- AZERO. -/
structure AccOp where
  (acd : BitVec 2)
  deriving DecidableEq, Repr

/-- ACOPY, AMAX, AMIN. -/
structure AccAcc where
  (acd acs : BitVec 2)
  deriving DecidableEq, Repr

/-- ARD. -/
structure ArdOp where
  (vd : BitVec 5)
  (acs : BitVec 2)
  (rb : BitVec 5)
  deriving DecidableEq, Repr

/-- AWR. -/
structure AwrOp where
  (acd : BitVec 2)
  (va rb : BitVec 5)
  deriving DecidableEq, Repr

/-- ARMAX, ARMIN. -/
structure AredOp where
  (vd : BitVec 5)
  (acs : BitVec 2)
  deriving DecidableEq, Repr

/-- ASCR, ASUBR. -/
structure AvecOp where
  (acd : BitVec 2)
  (va : BitVec 5)
  deriving DecidableEq, Repr

/-- Tagged access (Table 6-3): sz 0 D, 1 F, 2 V. -/
structure TagOp where
  (r ra : BitVec 5)
  (sz : BitVec 2)
  (off : BitVec 10)
  deriving DecidableEq, Repr

/-- SEND (Table 7-9): cls 1 A, 2 B, 3 C. -/
structure SendOp where
  (rd ra rb rc : BitVec 5)
  (cls : BitVec 2)
  deriving DecidableEq, Repr

/-- DISPATCH: cmask bit 0 A, 1 B, 2 C (Table 7-9). -/
structure DispatchOp where
  (rd : BitVec 5)
  (cmask : BitVec 3)
  deriving DecidableEq, Repr

/-- One lane input of a ring stop, for one class and channel (R189). -/
structure RingInput where
  (stop : Nat)
  (lane : Nat)
  (cls : Cls)
  (resp : Bool)
  deriving DecidableEq, Repr

/-- One lane output of a ring stop. -/
structure RingOutput where
  (stop : Nat)
  (lane : Nat)
  deriving DecidableEq, Repr

/-- One ring step of an output, and the bit errors that the flit it sends takes on the way (R185). -/
structure RingSend extends RingOutput where
  errs : List WordErr := []
  deriving DecidableEq, Repr

/-- HARVEST of a thread, and the access to the slot's header line. -/
structure HarvestAt extends ThreadAt where
  acc : Access := {}
  deriving DecidableEq, Repr

/-- A descriptor that a stream table reads into its cache, and the accesses that this takes: to the two lines written
back, if the victim is dirty, then to the two lines read (R232). -/
structure DescFill where
  id : Nat
  acc : List Access := []
  deriving DecidableEq, Repr

/-- A lane of a link, as we number it in the direction that lost it: one of our transmit lanes, lost at the partner's
receiver, or one of our receive lanes. -/
structure LaneEnd where
  lane : Nat
  tx : Bool := false
  deriving DecidableEq, Repr

/-- What the FEC decoder says of a frame: whether it overlaps an uncorrectable codeword, and how many codewords the
decoder newly gave up (R251). -/
structure FecSays where
  bad : Bool := false
  new : Nat := 0
  deriving DecidableEq, Repr

/-- A host operation on a slot that comes over a link, and the accesses to the slot's header line and then to its
payload's lines. -/
structure HostSlot where
  link : Nat
  acc : List Access := []
  deriving DecidableEq, Repr

/-- What the acquire-time step of start heard: the listed root followed, the upstream link, the stratum, and the mean estimate of chip time (ns). -/
structure Acquired where
  (link : Nat)
  (rootIndex : Nat)
  (stratum : Nat)
  (now : W64)
  deriving DecidableEq, Repr

/-- What happens at a link port while start trains the links (Table 15-11, step 6); each is the command of that name. -/
inductive LinkEvent where
  | signalDetect (link : Nat)
  | signalLoss (link : Nat)
  | phyTrainingDone (link : Nat)
  | trainFrameTimer (link : Nat)
  | train (link : Nat)
  | trainingTimeout (link : Nat)
  | admitEngineStart
  | hello (link : Nat)
  | prove (link : Nat)
  | result (link : Nat)
  | admitResend (link : Nat)
  | admitTimeout (link : Nat)
  | backoffEnd (link : Nat)
  | frameBuild (link : Nat)
  | frameReceive (link : Nat) (frame : List Byte) (fec : FecSays)
  deriving DecidableEq, Repr

/-- What start meets: the sampled straps, the step at which the boot controller's self-test fails, if it does, the other
self-test and stack-training results, what the links meet in step 6, and time acquisition (Table 15-11). -/
structure StartEnv where
  (straps : BitVec 2)
  (dieFail : Option Nat)
  (failedSites : List Nat)
  (failedChans : List (Nat × Nat))
  (untrained : List Nat)
  (links : List LinkEvent)
  (acquired : Option Acquired)
  deriving DecidableEq, Repr

/-- What the warden reads of a bay at start (Table 18-4): page 0 of images A and B and the AUTHORITY key each carries. -/
structure BayEnv where
  (pageA pageB : List Byte)
  (authA authB : List Byte)
  deriving DecidableEq, Repr

/-- The commands. A core instruction carries the thread that issues it and its operand fields; the
instructions that have a word stand first, then the commands that have none. -/
inductive Instr where
  | add (t : ThreadAt) (o : IntOp)
  | sub (t : ThreadAt) (o : IntOp)
  | andR (t : ThreadAt) (o : IntOp)
  | orR (t : ThreadAt) (o : IntOp)
  | xorR (t : ThreadAt) (o : IntOp)
  | andn (t : ThreadAt) (o : IntOp)
  | sll (t : ThreadAt) (o : IntOp)
  | srl (t : ThreadAt) (o : IntOp)
  | sra (t : ThreadAt) (o : IntOp)
  | ror (t : ThreadAt) (o : IntOp)
  | lts (t : ThreadAt) (o : IntOp)
  | ltu (t : ThreadAt) (o : IntOp)
  | minS (t : ThreadAt) (o : IntOp)
  | maxS (t : ThreadAt) (o : IntOp)
  | minu (t : ThreadAt) (o : IntOp)
  | maxu (t : ThreadAt) (o : IntOp)
  | clz (t : ThreadAt) (o : IntUn)
  | ctz (t : ThreadAt) (o : IntUn)
  | popc (t : ThreadAt) (o : IntUn)
  | mul (t : ThreadAt) (o : IntOp)
  | mulhiS (t : ThreadAt) (o : XOp)
  | mulhiU (t : ThreadAt) (o : XOp)
  | mulhiSu (t : ThreadAt) (o : XOp)
  | div (t : ThreadAt) (o : IntOp)
  | divu (t : ThreadAt) (o : IntOp)
  | rem (t : ThreadAt) (o : IntOp)
  | remu (t : ThreadAt) (o : IntOp)
  | addi (t : ThreadAt) (o : ImmOp)
  | andi (t : ThreadAt) (o : ImmOp)
  | ori (t : ThreadAt) (o : ImmOp)
  | xori (t : ThreadAt) (o : ImmOp)
  | ltsi (t : ThreadAt) (o : ImmOp)
  | ltui (t : ThreadAt) (o : ImmOp)
  | slli (t : ThreadAt) (o : ShOp)
  | srli (t : ThreadAt) (o : ShOp)
  | srai (t : ThreadAt) (o : ShOp)
  | rori (t : ThreadAt) (o : ShOp)
  | liu (t : ThreadAt) (o : LiuOp)
  | beq (t : ThreadAt) (o : BrOp)
  | bne (t : ThreadAt) (o : BrOp)
  | blt (t : ThreadAt) (o : BrOp)
  | bge (t : ThreadAt) (o : BrOp)
  | bltu (t : ThreadAt) (o : BrOp)
  | bgeu (t : ThreadAt) (o : BrOp)
  | jmp (t : ThreadAt) (o : JOp)
  | jal (t : ThreadAt) (o : JOp)
  | jlr (t : ThreadAt) (o : ImmOp)
  | ldB (t : ThreadAt) (o : ImmOp)
  | ldBu (t : ThreadAt) (o : ImmOp)
  | ldH (t : ThreadAt) (o : ImmOp)
  | ldHu (t : ThreadAt) (o : ImmOp)
  | ldW (t : ThreadAt) (o : ImmOp)
  | ldWu (t : ThreadAt) (o : ImmOp)
  | ldD (t : ThreadAt) (o : ImmOp)
  | stB (t : ThreadAt) (o : ImmOp)
  | stH (t : ThreadAt) (o : ImmOp)
  | stW (t : ThreadAt) (o : ImmOp)
  | stD (t : ThreadAt) (o : ImmOp)
  | fldS (t : ThreadAt) (o : ImmOp)
  | fldD (t : ThreadAt) (o : ImmOp)
  | fstS (t : ThreadAt) (o : ImmOp)
  | fstD (t : ThreadAt) (o : ImmOp)
  | fadd (t : ThreadAt) (o : FpOp)
  | fsub (t : ThreadAt) (o : FpOp)
  | fmul (t : ThreadAt) (o : FpOp)
  | fdiv (t : ThreadAt) (o : FpOp)
  | fsqrt (t : ThreadAt) (o : FpUn)
  | fmin (t : ThreadAt) (o : FpCmp)
  | fmax (t : ThreadAt) (o : FpCmp)
  | fsgnC (t : ThreadAt) (o : FpCmp)
  | fsgnN (t : ThreadAt) (o : FpCmp)
  | fsgnX (t : ThreadAt) (o : FpCmp)
  | feq (t : ThreadAt) (o : FpCmp)
  | flt (t : ThreadAt) (o : FpCmp)
  | fle (t : ThreadAt) (o : FpCmp)
  | fclass (t : ThreadAt) (o : FpMov)
  | ftoiS64 (t : ThreadAt) (o : FpUn)
  | ftoiU64 (t : ThreadAt) (o : FpUn)
  | ftoiS32 (t : ThreadAt) (o : FpUn)
  | ftoiU32 (t : ThreadAt) (o : FpUn)
  | itofS64 (t : ThreadAt) (o : FpUn)
  | itofU64 (t : ThreadAt) (o : FpUn)
  | itofS32 (t : ThreadAt) (o : FpUn)
  | itofU32 (t : ThreadAt) (o : FpUn)
  | fnarrow (t : ThreadAt) (o : FpCvt)
  | fwiden (t : ThreadAt) (o : FpCvt)
  | movfx (t : ThreadAt) (o : FpMov)
  | movxf (t : ThreadAt) (o : FpMov)
  | fmadd (t : ThreadAt) (o : FmaOp)
  | fmsub (t : ThreadAt) (o : FmaOp)
  | fnmadd (t : ThreadAt) (o : FmaOp)
  | fnmsub (t : ThreadAt) (o : FmaOp)
  | loopI (t : ThreadAt) (o : LoopOp)
  | rdtime (t : ThreadAt) (o : RdOp)
  | settc (t : ThreadAt) (o : RaOp)
  | waitt (t : ThreadAt) (o : RaOp)
  | rdcr (t : ThreadAt) (o : CrRd)
  | wrcr (t : ThreadAt) (o : CrWr)
  | fence (t : ThreadAt)
  | hbarm (t : ThreadAt)
  | fret (t : ThreadAt)
  | park (t : ThreadAt)
  | yieldI (t : ThreadAt)
  | trap (t : ThreadAt) (o : TrapOp)
  | vld (t : ThreadAt) (o : VmOp)
  | vst (t : ThreadAt) (o : VmOp)
  | vldsW (t : ThreadAt) (o : VmStr)
  | vstsW (t : ThreadAt) (o : VmStr)
  | vldsD (t : ThreadAt) (o : VmStr)
  | vstsD (t : ThreadAt) (o : VmStr)
  | vbcW (t : ThreadAt) (o : VmOp)
  | vbcD (t : ThreadAt) (o : VmOp)
  | vadd (t : ThreadAt) (o : ViOp)
  | vsub (t : ThreadAt) (o : ViOp)
  | vand (t : ThreadAt) (o : ViOp)
  | vor (t : ThreadAt) (o : ViOp)
  | vxor (t : ThreadAt) (o : ViOp)
  | vsll (t : ThreadAt) (o : ViOp)
  | vsrl (t : ThreadAt) (o : ViOp)
  | vsra (t : ThreadAt) (o : ViOp)
  | vmin (t : ThreadAt) (o : ViOp)
  | vmax (t : ThreadAt) (o : ViOp)
  | vminu (t : ThreadAt) (o : ViOp)
  | vmaxu (t : ThreadAt) (o : ViOp)
  | vmul (t : ThreadAt) (o : ViOp)
  | vcmpeq (t : ThreadAt) (o : VCmpOp)
  | vcmplt (t : ThreadAt) (o : VCmpOp)
  | vcmpltu (t : ThreadAt) (o : VCmpOp)
  | vsplat (t : ThreadAt) (o : VSplatOp)
  | vext (t : ThreadAt) (o : VExtOp)
  | vins (t : ThreadAt) (o : VInsOp)
  | vperm (t : ThreadAt) (o : ViOp)
  | vpermb (t : ThreadAt) (o : VPermbOp)
  | vsel (t : ThreadAt) (o : ViOp)
  | vfadd (t : ThreadAt) (o : VfOp)
  | vfsub (t : ThreadAt) (o : VfOp)
  | vfmul (t : ThreadAt) (o : VfOp)
  | vfdiv (t : ThreadAt) (o : VfOp)
  | vfsqrt (t : ThreadAt) (o : VfUn)
  | vfmin (t : ThreadAt) (o : ViOp)
  | vfmax (t : ThreadAt) (o : ViOp)
  | vfamax (t : ThreadAt) (o : ViOp)
  | vfsgnC (t : ThreadAt) (o : ViOp)
  | vfsgnN (t : ThreadAt) (o : ViOp)
  | vfsgnX (t : ThreadAt) (o : ViOp)
  | vfcmpeq (t : ThreadAt) (o : VCmpOp)
  | vfcmplt (t : ThreadAt) (o : VCmpOp)
  | vfcmple (t : ThreadAt) (o : VCmpOp)
  | vfclass (t : ThreadAt) (o : VUnOp)
  | vfrmax (t : ThreadAt) (o : VUnOp)
  | vfrmin (t : ThreadAt) (o : VUnOp)
  | vframax (t : ThreadAt) (o : VUnOp)
  | vfrsum (t : ThreadAt) (o : VfUn)
  | vfmadd (t : ThreadAt) (o : VfmaOp)
  | vfmsub (t : ThreadAt) (o : VfmaOp)
  | vfnmadd (t : ThreadAt) (o : VfmaOp)
  | vfnmsub (t : ThreadAt) (o : VfmaOp)
  | vcvt (t : ThreadAt) (o : VcvtOp)
  | vmxDown (t : ThreadAt) (o : VmxDn)
  | vmxUp (t : ThreadAt) (o : VmxUp)
  | vmand (t : ThreadAt) (o : MaskOp)
  | vmor (t : ThreadAt) (o : MaskOp)
  | vmxor (t : ThreadAt) (o : MaskOp)
  | vmandn (t : ThreadAt) (o : MaskOp)
  | vmpopc (t : ThreadAt) (o : MaskTo)
  | vmfirst (t : ThreadAt) (o : MaskTo)
  | vmfx (t : ThreadAt) (o : MaskFrom)
  | vmtx (t : ThreadAt) (o : MaskTo)
  | vmxr (t : ThreadAt) (o : MxRd)
  | vmxw (t : ThreadAt) (o : MxWr)
  | vmxs (t : ThreadAt) (o : VmxsOp)
  | vcrc64 (t : ThreadAt) (o : CrcOp)
  | tld (t : ThreadAt) (o : TldOp)
  | tst (t : ThreadAt) (o : TstOp)
  | tlds (t : ThreadAt) (o : TldsOp)
  | tsts (t : ThreadAt) (o : TstsOp)
  | tscw (t : ThreadAt) (o : TscwOp)
  | tscf (t : ThreadAt) (o : TscfOp)
  | twr (t : ThreadAt) (o : TwrOp)
  | trd (t : ThreadAt) (o : TrdOp)
  | trl (t : ThreadAt) (o : TrlOp)
  | tz (t : ThreadAt) (o : TzOp)
  | mma (t : ThreadAt) (o : MmaOp)
  | azero (t : ThreadAt) (o : AccOp)
  | acopy (t : ThreadAt) (o : AccAcc)
  | amax (t : ThreadAt) (o : AccAcc)
  | amin (t : ThreadAt) (o : AccAcc)
  | ard (t : ThreadAt) (o : ArdOp)
  | awr (t : ThreadAt) (o : AwrOp)
  | armax (t : ThreadAt) (o : AredOp)
  | armin (t : ThreadAt) (o : AredOp)
  | ascr (t : ThreadAt) (o : AvecOp)
  | asubr (t : ThreadAt) (o : AvecOp)
  | lde (t : ThreadAt) (o : TagOp)
  | ldk (t : ThreadAt) (o : TagOp)
  | stf (t : ThreadAt) (o : TagOp)
  | stp (t : ThreadAt) (o : TagOp)
  | tprobe (t : ThreadAt) (o : RdRa)
  | tsete (t : ThreadAt) (o : RaRb)
  | tsetf (t : ThreadAt) (o : RaRb)
  | szero (t : ThreadAt) (o : RaRb)
  | ldvD (t : ThreadAt) (o : RdRa)
  | ldvW (t : ThreadAt) (o : RdRa)
  | ldvL (t : ThreadAt) (o : RdRa)
  | winv (t : ThreadAt) (o : RaRb)
  | amoAdd (t : ThreadAt) (o : XOp)
  | amoAnd (t : ThreadAt) (o : XOp)
  | amoOr (t : ThreadAt) (o : XOp)
  | amoXor (t : ThreadAt) (o : XOp)
  | amoMin (t : ThreadAt) (o : XOp)
  | amoMax (t : ThreadAt) (o : XOp)
  | amoMinu (t : ThreadAt) (o : XOp)
  | amoMaxu (t : ThreadAt) (o : XOp)
  | amoSwap (t : ThreadAt) (o : XOp)
  | amoCas (t : ThreadAt) (o : XOp)
  | send (t : ThreadAt) (o : SendOp)
  | dispatch (t : ThreadAt) (o : DispatchOp)
  | qdone (t : ThreadAt) (o : RaOp)
  | qstat (t : ThreadAt) (o : RdOp)
  | hent (t : ThreadAt) (o : RdRa)
  | sndstat (t : ThreadAt) (o : RdOp)
  | paceWindowEnd (counts : List Nat)
  | thermalConversion (temps : List (BitVec 12))
  | sensePointSample (points : List SenseReading)
  | epochBoundary
  | syncReqTimer
  | syncReq (link : Nat)
  | syncResp (link : Nat)
  | syncRespTimeout
  | upstreamExclusionEnd (link : Nat)
  | linkAnnounce (link : Nat)
  | rootAnnounce (link : Nat)
  | holdoverLimit
  | timerCompareMatch (t : ThreadAt)
  | heartbeatExpiry
  | modHbToggle
  | fenceComplete (t : ThreadAt)
  | issueSlot (core : CoreAt)
  | corePlanSwitch (core : CoreAt)
  | tilePortRow (core : CoreAt)
  | tileRowResponse (core : CoreAt)
  | mmaComplete (core : CoreAt) (mismatch : Bool)
  | taggedAccessGrant (t : ThreadAt)
  | deposit (core : CoreAt)
  | scrubPeriodStart (core : CoreAt)
  | scrubSlotRead (core : CoreAt)
  | windowCacheFill (core : CoreAt)
  | memoryResponse (core : CoreAt)
  | requestDeadline (core : CoreAt) (req : Nat)
  | sendResume (t : ThreadAt)
  | scionInject (core : CoreAt) (cls : Cls)
  | scionResponse (core : CoreAt)
  | scionRetry (core : CoreAt) (cls : Cls) (entry : Nat)
  | scionOfferTimeout (core : CoreAt) (cls : Cls) (entry : Nat)
  | scionArrival (core : CoreAt)
  | scionFlitWrite (core : CoreAt)
  | spillCommit (core : CoreAt) (cls : Cls)
  | refillEntry (core : CoreAt)
  | dbgRead (link : Nat)
  | routerFlitArrival (inp : RingInput)
  | ringOutputSend (out : RingSend)
  | ringCreditReturn (inp : RingInput)
  | epochHeldRequest (core : CoreAt)
  | controllerRead (stack : Nat) (cls : Cls)
  | controllerWrite (stack : Nat) (cls : Cls)
  | controllerAtomic (stack : Nat) (cls : Cls)
  | channelSlot (stack : Nat) (chan : Nat) (refresh : Bool)
  | channelTransferDone (stack : Nat) (chan : Nat) (result : Transfer)
  | burstFlit (stack : Nat) (cls : Cls)
  | burstStagingGrant (stack : Nat) (cls : Cls)
  | burstAbandonLink (stack : Nat) (link : Nat)
  | burstAbandonAge (stack : Nat)
  | channelIsolate (stack : Nat) (chan : Nat)
  | relocationCopy (stack : Nat)
  | streamRead (t : ThreadAt)
  | streamAdvance (t : ThreadAt)
  | streamSetdue (t : ThreadAt)
  | streamLate (t : ThreadAt)
  | streamHarvest (t : HarvestAt)
  | streamFail (t : ThreadAt)
  | streamCacheFill (stack : Nat) (fill : DescFill)
  | streamIdAvailable (stack : Nat)
  | laneDegrade (link : Nat) (lane : Nat) (ce : Nat)
  | laneLoss (link : Nat) (lane : LaneEnd)
  | laneMirror (link : Nat)
  | laneMirrorOn (link : Nat)
  | laneSwitched (link : Nat)
  | laneTest (link : Nat)
  | laneTestResult (link : Nat)
  | laneRefuse (link : Nat)
  | frameReceive (link : Nat) (frame : List Byte) (fec : FecSays)
  | frameBuild (link : Nat)
  | nakResend (link : Nat)
  | replayTimeout (link : Nat)
  | signalDetect (link : Nat)
  | signalLoss (link : Nat)
  | train (link : Nat)
  | trainingTimeout (link : Nat)
  | retrainTimeout (link : Nat)
  | linkDown (link : Nat)
  | ingressForward (link : Nat) (vc : Nat)
  | egressReserve (link : Nat) (cls : Cls)
  | requestRecordTimeout (link : Nat) (rec : Nat)
  | stallDrainEnter (link : Nat) (cls : Cls)
  | apertureBurstDelivered (link : Nat) (bseq : Nat)
  | admitEngineStart
  | admitHello (link : Nat)
  | admitProve (link : Nat)
  | admitResult (link : Nat)
  | admitResend (link : Nat)
  | admitTimeout (link : Nat)
  | quarantineBackoffEnd (link : Nat)
  | quarantineCountReset (link : Nat)
  | acapWindowEnd (link : Nat)
  | evClear (t : ThreadAt) (o : CrWr)
  | modResetNRelease (env : StartEnv)
  | bootPlanThreadStart
  | modResetNAssert
  | modPwrEnChange (on : Bool)
  | planOpen (link : Nat)
  | planChunk (link : Nat)
  | planInstall (link : Nat)
  | planAbort (link : Nat)
  | planQuery (link : Nat)
  | planSessionIdle
  | oldBankRelease
  | prune (src : MgmtSrc)
  | graft (src : MgmtSrc)
  | unitTest (src : MgmtSrc)
  | unitTestEnd (u : UnitId) (pass : Bool) (errors : Nat)
  | unitQuery (src : MgmtSrc)
  | unitSwitch (u : UnitId)
  | pruneFinal (u : UnitId)
  | migrateOut (src : MgmtSrc)
  | migrateIn (src : MgmtSrc)
  | migrateEnd (src : MgmtSrc)
  | hostSubmit (link : Nat)
  | submitNoticeDone
  | hostClose (link : Nat)
  | hostHread (op : HostSlot)
  | hostHrelease (op : HostSlot)
  | hostQuery (link : Nat)
  | hostEnd (link : Nat)
  | latchPulse
  | latchClaim (cause : ClaimCause)
  | handover (src : TraySrc)
  | modPresentNChange (bay : Nat) (present : Bool)
  | bayStart (bay : Nat) (env : BayEnv)
  | startTimeout (bay : Nat)
  | hbLapse (bay : Nat)
  | errCorr (bay : Nat)
  | errFatal (bay : Nat)
  | feedLow (feed : Nat)
  | rampComplete (bay : Nat)
  | rampPause (bay : Nat)
  | rampResume (bay : Nat)
  | rampAbort (bay : Nat)
  | tripFast (bay : Nat)
  | tripSlow (bay : Nat)
  | overload (bay : Nat)
  | reclose (bay : Nat)
  | leak (zone : Nat)
  | sensorFault (zone : Nat)
  | leakClear (src : TraySrc)
  | stringMeasure (cells : List Nat) (total : Nat)
  | tapTest (moves : List Nat) (consistent : Bool)
  | cablePresenceChange (conn : Nat) (present : Bool) (record : List Byte)
  | wardenChannelFrame (e : ChanEnd) (frame : List Byte)
  | wardenChannelResend (e : ChanEnd)
  | wardenChannelResync (e : ChanEnd)
  | dieReport (report : ReportKind)
  | mgmtForward (link : Nat)
  | trayQuery (src : TraySrc)
  | logRead (src : TraySrc)
  | bayCtrlStart (src : TraySrc)
  | bayCtrlStop (src : TraySrc)
  | bayCtrlRestart (src : TraySrc)
  | bayCtrlResetLockout (src : TraySrc)
  | trayCfg (src : TraySrc)
  | rsOpen (src : TraySrc)
  | rsChunk (src : TraySrc)
  | rsCommit (src : TraySrc)
  | fwOpen (src : TraySrc)
  | fwChunk (src : TraySrc)
  | fwCommit (src : TraySrc)
  | fwActivate (src : TraySrc)
  | fwRejoinTimeout
  | spHello (frame : List Byte)
  | spAuth (frame : List Byte)
  | spSessionEnd
  | feedOvervoltageBlock (feed : Nat)
  | inputUndervoltage
  | phyTrainingDone (link : Nat)
  | trainFrameTimer (link : Nat)
  | feedPathUnblock (feed : Nat)
  | holdupPackChange (fitted : Bool)
  | wardenCardPowerUp (w : Warden) (trayPowerUp : Bool)
  | rootstockWriteDone (ok : Bool)
  | bundleWriteDone (ok : Bool)
  | baySequenceTimer (bay : Nat)
  | fwRejoinHealthy
  deriving DecidableEq, Repr

end Sys2Proof
end

