-- ==== Sys2Proof/WellFormed.lean ====
section
/-! DEFINITION. Which commands are well formed: enumerated fields hold defined code points (R9, R66), and
units, links, bays and lanes exist (R15). -/

namespace Sys2Proof

/-- The rm codes of R73: 0 dynamic, 1 to 5. -/
def rmOk (rm : BitVec 3) : Bool := rm.toNat ≤ 5

/-- The VCVT pairs of Table 4-8: lanes, segment size in bytes, segments, and whether the pair is exact. -/
def cvtPair (src dst : Nat) : Option (Nat × Nat × Nat × Bool) :=
  match src, dst with
  | 1, 2 | 1, 3 => some (32, 64, 2, false)
  | 1, 4 | 1, 5 | 1, 6 | 1, 7 | 1, 9 => some (32, 32, 4, false)
  | 1, 8 | 1, 10 => some (32, 16, 8, false)
  | 1, 11 | 11, 1 => some (32, 128, 1, false)
  | 2, 1 | 3, 1 => some (32, 64, 2, true)
  | 4, 1 | 5, 1 | 6, 1 | 7, 1 | 9, 1 => some (32, 32, 4, true)
  | 8, 1 | 10, 1 => some (32, 16, 8, true)
  | 0, 1 => some (16, 64, 2, false)
  | 1, 0 => some (16, 64, 2, true)
  | 0, 12 | 12, 0 => some (16, 128, 1, false)
  | _, _ => none

/-- VCVT: a pair of Table 4-8, a segment of the pair, a rounding code the pair allows (R96). -/
def VcvtOp.ok (o : VcvtOp) : Bool :=
  match cvtPair o.src.toNat o.dst.toNat with
  | none => false
  | some (_, _, segs, exact) => o.seg.toNat < segs && (if exact then o.rnd == 0 && !o.sat else o.rnd != 7)

/-- The formats of tiles: fmt 1 to 10 (R129). -/
def tileFmtOk (f : BitVec 4) : Bool := 1 ≤ f.toNat && f.toNat ≤ 10

/-- TLD: tile targets with fmt 1 to 10 and lay 0 to 2; accumulators with fmt 1 or 11 and lay 0 (R129). -/
def TldOp.ok (o : TldOp) : Bool :=
  if o.tgt.toNat < 8 then tileFmtOk o.fmt && o.lay != 3
  else o.tgt.toNat < 12 && (o.fmt == 1 || o.fmt == 11) && o.lay == 0

/-- MMA: a suffix of Table 5-2; without scales sa and sb are zero (R124). -/
def MmaOp.ok (o : MmaOp) : Bool :=
  if o.mx then o.fmt.toNat ∈ [4, 5, 6, 7, 8, 9] else o.fmt.toNat ∈ [1, 2, 3, 4, 5, 9, 10] && o.sa == 0 && o.sb == 0

def CoreAt.ok (c : CoreAt) : Bool := c.row.toNat < 28
def ThreadAt.ok (t : ThreadAt) : Bool := t.row.toNat < 28
/-- A stop: a site of the die or an edge stop (Tables 8-2 and 8-3). -/
def stopOk (n : Nat) : Bool := n < 960 || (1000 ≤ n && n ≤ 1092)
/-- Lanes 0 to 3 of a row ring, 4 to 7 of a column ring, 8 to 15 of the edge ring. -/
def laneOk (stop lane : Nat) : Bool := if stop < 960 then lane < 8 else lane < 16

def UnitId.ok : UnitId → Bool
  | .site r c => r < 30 && c < 32
  | .channel s c => s < 8 && c < 32
  | .lane k l => k < 24 && l < 5
  | .link k => k < 24
  | .modul n => n < 2 ^ 18

def MgmtSrc.ok : MgmtSrc → Bool
  | .link k => k < 24
  | .warden => true

def TraySrc.ok : TraySrc → Bool
  | .channel b => b < 8
  | .service _ => true

def ChanEnd.ok : ChanEnd → Bool
  | .die => true
  | .bay b => b < 8

def ReportKind.ok : ReportKind → Bool
  | .stackChannel s c => s < 8 && c < 32
  | .linkQuarantine k => k < 24
  | _ => true

/-- A command is well formed. -/
def Instr.wf : Instr → Bool
  | .paceWindowEnd _ => true
  | .thermalConversion _ => true
  | .sensePointSample _ => true
  | .epochBoundary => true
  | .syncReqTimer => true
  | .syncReq link => decide (link < 24)
  | .syncResp link => decide (link < 24)
  | .syncRespTimeout => true
  | .upstreamExclusionEnd link => decide (link < 24)
  | .linkAnnounce link => decide (link < 24)
  | .rootAnnounce link => decide (link < 24)
  | .holdoverLimit => true
  | .timerCompareMatch t => t.ok
  | .heartbeatExpiry => true
  | .modHbToggle => true
  | .add t _ => t.ok
  | .sub t _ => t.ok
  | .andR t _ => t.ok
  | .orR t _ => t.ok
  | .xorR t _ => t.ok
  | .andn t _ => t.ok
  | .sll t _ => t.ok
  | .srl t _ => t.ok
  | .sra t _ => t.ok
  | .ror t _ => t.ok
  | .lts t _ => t.ok
  | .ltu t _ => t.ok
  | .minS t _ => t.ok
  | .maxS t _ => t.ok
  | .minu t _ => t.ok
  | .maxu t _ => t.ok
  | .clz t _ => t.ok
  | .ctz t _ => t.ok
  | .popc t _ => t.ok
  | .mul t _ => t.ok
  | .mulhiS t _ => t.ok
  | .mulhiU t _ => t.ok
  | .mulhiSu t _ => t.ok
  | .div t _ => t.ok
  | .divu t _ => t.ok
  | .rem t _ => t.ok
  | .remu t _ => t.ok
  | .addi t _ => t.ok
  | .andi t _ => t.ok
  | .ori t _ => t.ok
  | .xori t _ => t.ok
  | .ltsi t _ => t.ok
  | .ltui t _ => t.ok
  | .slli t o => t.ok && !(o.w && decide (31 < o.amt.toNat))
  | .srli t o => t.ok && !(o.w && decide (31 < o.amt.toNat))
  | .srai t o => t.ok && !(o.w && decide (31 < o.amt.toNat))
  | .rori t o => t.ok && !(o.w && decide (31 < o.amt.toNat))
  | .liu t _ => t.ok
  | .beq t _ => t.ok
  | .bne t _ => t.ok
  | .blt t _ => t.ok
  | .bge t _ => t.ok
  | .bltu t _ => t.ok
  | .bgeu t _ => t.ok
  | .jmp t _ => t.ok
  | .jal t _ => t.ok
  | .jlr t _ => t.ok
  | .ldB t _ => t.ok
  | .ldBu t _ => t.ok
  | .ldH t _ => t.ok
  | .ldHu t _ => t.ok
  | .ldW t _ => t.ok
  | .ldWu t _ => t.ok
  | .ldD t _ => t.ok
  | .stB t _ => t.ok
  | .stH t _ => t.ok
  | .stW t _ => t.ok
  | .stD t _ => t.ok
  | .fldS t _ => t.ok
  | .fldD t _ => t.ok
  | .fstS t _ => t.ok
  | .fstD t _ => t.ok
  | .fadd t o => t.ok && rmOk o.rm
  | .fsub t o => t.ok && rmOk o.rm
  | .fmul t o => t.ok && rmOk o.rm
  | .fdiv t o => t.ok && rmOk o.rm
  | .fsqrt t o => t.ok && rmOk o.rm
  | .fmin t _ => t.ok
  | .fmax t _ => t.ok
  | .fsgnC t _ => t.ok
  | .fsgnN t _ => t.ok
  | .fsgnX t _ => t.ok
  | .feq t _ => t.ok
  | .flt t _ => t.ok
  | .fle t _ => t.ok
  | .fclass t _ => t.ok
  | .ftoiS64 t o => t.ok && rmOk o.rm
  | .ftoiU64 t o => t.ok && rmOk o.rm
  | .ftoiS32 t o => t.ok && rmOk o.rm
  | .ftoiU32 t o => t.ok && rmOk o.rm
  | .itofS64 t o => t.ok && rmOk o.rm
  | .itofU64 t o => t.ok && rmOk o.rm
  | .itofS32 t o => t.ok && rmOk o.rm
  | .itofU32 t o => t.ok && rmOk o.rm
  | .fnarrow t o => t.ok && rmOk o.rm
  | .fwiden t o => t.ok && rmOk o.rm
  | .movfx t _ => t.ok
  | .movxf t _ => t.ok
  | .fmadd t o => t.ok && rmOk o.rm
  | .fmsub t o => t.ok && rmOk o.rm
  | .fnmadd t o => t.ok && rmOk o.rm
  | .fnmsub t o => t.ok && rmOk o.rm
  | .loopI t _ => t.ok
  | .rdtime t _ => t.ok
  | .settc t _ => t.ok
  | .waitt t _ => t.ok
  | .rdcr t _ => t.ok
  | .wrcr t _ => t.ok
  | .fence t => t.ok
  | .fenceComplete t => t.ok
  | .hbarm t => t.ok
  | .fret t => t.ok
  | .park t => t.ok
  | .yieldI t => t.ok
  | .trap t _ => t.ok
  | .issueSlot core => core.ok
  | .corePlanSwitch core => core.ok
  | .vld t _ => t.ok
  | .vst t _ => t.ok
  | .vldsW t _ => t.ok
  | .vstsW t _ => t.ok
  | .vldsD t _ => t.ok
  | .vstsD t _ => t.ok
  | .vbcW t _ => t.ok
  | .vbcD t _ => t.ok
  | .vadd t _ => t.ok
  | .vsub t _ => t.ok
  | .vand t _ => t.ok
  | .vor t _ => t.ok
  | .vxor t _ => t.ok
  | .vsll t _ => t.ok
  | .vsrl t _ => t.ok
  | .vsra t _ => t.ok
  | .vmin t _ => t.ok
  | .vmax t _ => t.ok
  | .vminu t _ => t.ok
  | .vmaxu t _ => t.ok
  | .vmul t _ => t.ok
  | .vcmpeq t _ => t.ok
  | .vcmplt t _ => t.ok
  | .vcmpltu t _ => t.ok
  | .vsplat t _ => t.ok
  | .vext t _ => t.ok
  | .vins t _ => t.ok
  | .vperm t _ => t.ok
  | .vpermb t _ => t.ok
  | .vsel t _ => t.ok
  | .vfadd t o => t.ok && rmOk o.rm
  | .vfsub t o => t.ok && rmOk o.rm
  | .vfmul t o => t.ok && rmOk o.rm
  | .vfdiv t o => t.ok && rmOk o.rm
  | .vfsqrt t o => t.ok && rmOk o.rm
  | .vfmin t _ => t.ok
  | .vfmax t _ => t.ok
  | .vfamax t _ => t.ok
  | .vfsgnC t _ => t.ok
  | .vfsgnN t _ => t.ok
  | .vfsgnX t _ => t.ok
  | .vfcmpeq t _ => t.ok
  | .vfcmplt t _ => t.ok
  | .vfcmple t _ => t.ok
  | .vfclass t _ => t.ok
  | .vfrmax t _ => t.ok
  | .vfrmin t _ => t.ok
  | .vframax t _ => t.ok
  | .vfrsum t o => t.ok && rmOk o.rm
  | .vfmadd t _ => t.ok
  | .vfmsub t _ => t.ok
  | .vfnmadd t _ => t.ok
  | .vfnmsub t _ => t.ok
  | .vcvt t o => t.ok && o.ok
  | .vmxDown t o => t.ok && decide (o.efmt.toNat < 6) && o.rnd != 7
  | .vmxUp t o => t.ok && decide (o.efmt.toNat < 6)
  | .vmand t _ => t.ok
  | .vmor t _ => t.ok
  | .vmxor t _ => t.ok
  | .vmandn t _ => t.ok
  | .vmpopc t _ => t.ok
  | .vmfirst t _ => t.ok
  | .vmfx t _ => t.ok
  | .vmtx t _ => t.ok
  | .vmxr t _ => t.ok
  | .vmxw t _ => t.ok
  | .vmxs t o => t.ok && decide (o.efmt.toNat < 6)
  | .vcrc64 t _ => t.ok
  | .tld t o => t.ok && o.ok
  | .tst t o => t.ok && decide (o.src.toNat < 12)
  | .tlds t _ => t.ok
  | .tsts t _ => t.ok
  | .tscw t _ => t.ok
  | .tscf t _ => t.ok
  | .twr t o => t.ok && tileFmtOk o.fmt && o.lay != 3
  | .trd t _ => t.ok
  | .trl t o => t.ok && o.lay != 3
  | .tz t o => t.ok && tileFmtOk o.fmt && o.lay != 3
  | .tilePortRow core => core.ok
  | .tileRowResponse core => core.ok
  | .mma t o => t.ok && o.ok
  | .mmaComplete core _ => core.ok
  | .azero t _ => t.ok
  | .acopy t _ => t.ok
  | .amax t _ => t.ok
  | .amin t _ => t.ok
  | .ard t _ => t.ok
  | .awr t _ => t.ok
  | .armax t _ => t.ok
  | .armin t _ => t.ok
  | .ascr t _ => t.ok
  | .asubr t _ => t.ok
  | .lde t o => t.ok && o.sz != 3
  | .ldk t o => t.ok && o.sz != 3
  | .stf t o => t.ok && o.sz != 3
  | .stp t o => t.ok && o.sz != 3
  | .taggedAccessGrant t => t.ok
  | .tprobe t _ => t.ok
  | .tsete t _ => t.ok
  | .tsetf t _ => t.ok
  | .szero t _ => t.ok
  | .deposit core => core.ok
  | .scrubPeriodStart core => core.ok
  | .scrubSlotRead core => core.ok
  | .windowCacheFill core => core.ok
  | .ldvD t _ => t.ok
  | .ldvW t _ => t.ok
  | .ldvL t _ => t.ok
  | .winv t _ => t.ok
  | .amoAdd t _ => t.ok
  | .amoAnd t _ => t.ok
  | .amoOr t _ => t.ok
  | .amoXor t _ => t.ok
  | .amoMin t _ => t.ok
  | .amoMax t _ => t.ok
  | .amoMinu t _ => t.ok
  | .amoMaxu t _ => t.ok
  | .amoSwap t _ => t.ok
  | .amoCas t _ => t.ok
  | .memoryResponse core => core.ok
  | .requestDeadline core _ => core.ok
  | .send t o => t.ok && o.cls != 0
  | .sendResume t => t.ok
  | .scionInject core _ => core.ok
  | .scionResponse core => core.ok
  | .scionRetry core _ _ => core.ok
  | .scionOfferTimeout core _ _ => core.ok
  | .scionArrival core => core.ok
  | .scionFlitWrite core => core.ok
  | .spillCommit core _ => core.ok
  | .refillEntry core => core.ok
  | .dispatch t o => t.ok && o.rd != 0 && o.rd != 31
  | .qdone t _ => t.ok
  | .qstat t _ => t.ok
  | .hent t _ => t.ok
  | .sndstat t _ => t.ok
  | .dbgRead link => decide (link < 24)
  | .routerFlitArrival inp => stopOk inp.stop && laneOk inp.stop inp.lane
  | .ringOutputSend out => stopOk out.stop && laneOk out.stop out.lane && out.errs.all fun e => decide (e.word.toNat < 10)
  | .ringCreditReturn inp => stopOk inp.stop && laneOk inp.stop inp.lane
  | .epochHeldRequest core => core.ok
  | .controllerRead stack _ => decide (stack < 8)
  | .controllerWrite stack _ => decide (stack < 8)
  | .controllerAtomic stack _ => decide (stack < 8)
  | .channelSlot stack chan _ => decide (stack < 8) && decide (chan < 32)
  | .channelTransferDone stack chan _ => decide (stack < 8) && decide (chan < 32)
  | .burstFlit stack _ => decide (stack < 8)
  | .burstStagingGrant stack _ => decide (stack < 8)
  | .burstAbandonLink stack link => decide (stack < 8) && decide (link < 24)
  | .burstAbandonAge stack => decide (stack < 8)
  | .channelIsolate stack chan => decide (stack < 8) && decide (chan < 32)
  | .relocationCopy stack => decide (stack < 8)
  | .streamRead t => t.ok
  | .streamAdvance t => t.ok
  | .streamSetdue t => t.ok
  | .streamLate t => t.ok
  | .streamHarvest t => t.ok
  | .streamFail t => t.ok
  | .streamCacheFill stack fill => decide (stack < 8) && decide (fill.id < 2 ^ 21)
  | .streamIdAvailable stack => decide (stack < 8)
  | .laneDegrade link lane _ => decide (link < 24) && decide (lane < 5)
  | .laneLoss link lane => decide (link < 24) && decide (lane.lane < 5)
  | .laneMirror link => decide (link < 24)
  | .laneMirrorOn link => decide (link < 24)
  | .laneSwitched link => decide (link < 24)
  | .laneTest link => decide (link < 24)
  | .laneTestResult link => decide (link < 24)
  | .laneRefuse link => decide (link < 24)
  | .frameReceive link _ _ => decide (link < 24)
  | .frameBuild link => decide (link < 24)
  | .nakResend link => decide (link < 24)
  | .replayTimeout link => decide (link < 24)
  | .signalDetect link => decide (link < 24)
  | .signalLoss link => decide (link < 24)
  | .train link => decide (link < 24)
  | .trainingTimeout link => decide (link < 24)
  | .retrainTimeout link => decide (link < 24)
  | .linkDown link => decide (link < 24)
  | .ingressForward link vc => decide (link < 24) && decide (vc < 8)
  | .egressReserve link _ => decide (link < 24)
  | .requestRecordTimeout link _ => decide (link < 24)
  | .stallDrainEnter link _ => decide (link < 24)
  | .apertureBurstDelivered link _ => decide (link < 24)
  | .admitEngineStart => true
  | .admitHello link => decide (link < 24)
  | .admitProve link => decide (link < 24)
  | .admitResult link => decide (link < 24)
  | .admitResend link => decide (link < 24)
  | .admitTimeout link => decide (link < 24)
  | .quarantineBackoffEnd link => decide (link < 24)
  | .quarantineCountReset link => decide (link < 24)
  | .acapWindowEnd link => decide (link < 24)
  | .evClear t _ => t.ok
  | .modResetNRelease _ => true
  | .bootPlanThreadStart => true
  | .modResetNAssert => true
  | .modPwrEnChange _ => true
  | .planOpen link => decide (link < 24)
  | .planChunk link => decide (link < 24)
  | .planInstall link => decide (link < 24)
  | .planAbort link => decide (link < 24)
  | .planQuery link => decide (link < 24)
  | .planSessionIdle => true
  | .oldBankRelease => true
  | .prune src => src.ok
  | .graft src => src.ok
  | .unitTest src => src.ok
  | .unitTestEnd u _ _ => u.ok
  | .unitQuery src => src.ok
  | .unitSwitch u => u.ok
  | .pruneFinal u => u.ok
  | .migrateOut src => src.ok
  | .migrateIn src => src.ok
  | .migrateEnd src => src.ok
  | .hostSubmit link => decide (link < 24)
  | .submitNoticeDone => true
  | .hostClose link => decide (link < 24)
  | .hostHread op => decide (op.link < 24)
  | .hostHrelease op => decide (op.link < 24)
  | .hostQuery link => decide (link < 24)
  | .hostEnd link => decide (link < 24)
  | .latchPulse => true
  | .latchClaim _ => true
  | .handover src => src.ok
  | .modPresentNChange bay _ => decide (bay < 8)
  | .bayStart bay _ => decide (bay < 8)
  | .startTimeout bay => decide (bay < 8)
  | .hbLapse bay => decide (bay < 8)
  | .errCorr bay => decide (bay < 8)
  | .errFatal bay => decide (bay < 8)
  | .feedLow feed => decide (feed < 2)
  | .rampComplete bay => decide (bay < 8)
  | .rampPause bay => decide (bay < 8)
  | .rampResume bay => decide (bay < 8)
  | .rampAbort bay => decide (bay < 8)
  | .tripFast bay => decide (bay < 8)
  | .tripSlow bay => decide (bay < 8)
  | .overload bay => decide (bay < 8)
  | .reclose bay => decide (bay < 8)
  | .leak zone => decide (zone < 10)
  | .sensorFault zone => decide (zone < 10)
  | .leakClear src => src.ok
  | .stringMeasure _ _ => true
  | .tapTest _ _ => true
  | .cablePresenceChange conn _ _ => decide (conn < 34)
  | .wardenChannelFrame e _ => e.ok
  | .wardenChannelResend e => e.ok
  | .wardenChannelResync e => e.ok
  | .dieReport report => report.ok
  | .mgmtForward link => decide (link < 24)
  | .trayQuery src => src.ok
  | .logRead src => src.ok
  | .bayCtrlStart src => src.ok
  | .bayCtrlStop src => src.ok
  | .bayCtrlRestart src => src.ok
  | .bayCtrlResetLockout src => src.ok
  | .trayCfg src => src.ok
  | .rsOpen src => src.ok
  | .rsChunk src => src.ok
  | .rsCommit src => src.ok
  | .fwOpen src => src.ok
  | .fwChunk src => src.ok
  | .fwCommit src => src.ok
  | .fwActivate src => src.ok
  | .fwRejoinTimeout => true
  | .spHello _ => true
  | .spAuth _ => true
  | .spSessionEnd => true
  | .feedOvervoltageBlock feed => decide (feed < 2)
  | .inputUndervoltage => true
  | .phyTrainingDone link => decide (link < 24)
  | .trainFrameTimer link => decide (link < 24)
  | .feedPathUnblock feed => decide (feed < 2)
  | .holdupPackChange _ => true
  | .wardenCardPowerUp _ _ => true
  | .rootstockWriteDone _ => true
  | .bundleWriteDone _ => true
  | .baySequenceTimer bay => decide (bay < 8)
  | .fwRejoinHealthy => true

end Sys2Proof
end

