-- ==== Sys2Proof/Decode.lean ====
section
/-! DEFINITION. The instruction words of a core: the encoder and the decoder (Tables 3-4 to 3-10, 4-4 to
4-10, 5-7 to 5-9, 6-3, 6-6, 7-9, 7-10), and the table's own words, of which the table gives no bits. -/

namespace Sys2Proof

/-- One bit of a word. -/
def bit1 (b : Bool) : BitVec 1 := BitVec.ofBool b

/-- The word of a core instruction; zero for a command that is no instruction. -/
def encodeWord : Instr → W32
  | .add _ o => 0x01#6 ++ o.rd ++ o.ra ++ o.rb ++ bit1 o.w ++ 0#10
  | .sub _ o => 0x01#6 ++ o.rd ++ o.ra ++ o.rb ++ bit1 o.w ++ 1#10
  | .andR _ o => 0x01#6 ++ o.rd ++ o.ra ++ o.rb ++ bit1 o.w ++ 2#10
  | .orR _ o => 0x01#6 ++ o.rd ++ o.ra ++ o.rb ++ bit1 o.w ++ 3#10
  | .xorR _ o => 0x01#6 ++ o.rd ++ o.ra ++ o.rb ++ bit1 o.w ++ 4#10
  | .andn _ o => 0x01#6 ++ o.rd ++ o.ra ++ o.rb ++ bit1 o.w ++ 5#10
  | .sll _ o => 0x01#6 ++ o.rd ++ o.ra ++ o.rb ++ bit1 o.w ++ 6#10
  | .srl _ o => 0x01#6 ++ o.rd ++ o.ra ++ o.rb ++ bit1 o.w ++ 7#10
  | .sra _ o => 0x01#6 ++ o.rd ++ o.ra ++ o.rb ++ bit1 o.w ++ 8#10
  | .ror _ o => 0x01#6 ++ o.rd ++ o.ra ++ o.rb ++ bit1 o.w ++ 9#10
  | .lts _ o => 0x01#6 ++ o.rd ++ o.ra ++ o.rb ++ bit1 o.w ++ 0xa#10
  | .ltu _ o => 0x01#6 ++ o.rd ++ o.ra ++ o.rb ++ bit1 o.w ++ 0xb#10
  | .minS _ o => 0x01#6 ++ o.rd ++ o.ra ++ o.rb ++ bit1 o.w ++ 0xc#10
  | .maxS _ o => 0x01#6 ++ o.rd ++ o.ra ++ o.rb ++ bit1 o.w ++ 0xd#10
  | .minu _ o => 0x01#6 ++ o.rd ++ o.ra ++ o.rb ++ bit1 o.w ++ 0xe#10
  | .maxu _ o => 0x01#6 ++ o.rd ++ o.ra ++ o.rb ++ bit1 o.w ++ 0xf#10
  | .clz _ o => 0x01#6 ++ o.rd ++ o.ra ++ 0#5 ++ bit1 o.w ++ 0x10#10
  | .ctz _ o => 0x01#6 ++ o.rd ++ o.ra ++ 0#5 ++ bit1 o.w ++ 0x11#10
  | .popc _ o => 0x01#6 ++ o.rd ++ o.ra ++ 0#5 ++ bit1 o.w ++ 0x12#10
  | .mul _ o => 0x01#6 ++ o.rd ++ o.ra ++ o.rb ++ bit1 o.w ++ 0x18#10
  | .mulhiS _ o => 0x01#6 ++ o.rd ++ o.ra ++ o.rb ++ 0x19#11
  | .mulhiU _ o => 0x01#6 ++ o.rd ++ o.ra ++ o.rb ++ 0x1a#11
  | .mulhiSu _ o => 0x01#6 ++ o.rd ++ o.ra ++ o.rb ++ 0x1b#11
  | .div _ o => 0x01#6 ++ o.rd ++ o.ra ++ o.rb ++ bit1 o.w ++ 0x1c#10
  | .divu _ o => 0x01#6 ++ o.rd ++ o.ra ++ o.rb ++ bit1 o.w ++ 0x1d#10
  | .rem _ o => 0x01#6 ++ o.rd ++ o.ra ++ o.rb ++ bit1 o.w ++ 0x1e#10
  | .remu _ o => 0x01#6 ++ o.rd ++ o.ra ++ o.rb ++ bit1 o.w ++ 0x1f#10
  | .addi _ o => 0x02#6 ++ o.rd ++ o.ra ++ o.imm
  | .andi _ o => 0x03#6 ++ o.rd ++ o.ra ++ o.imm
  | .ori _ o => 0x04#6 ++ o.rd ++ o.ra ++ o.imm
  | .xori _ o => 0x05#6 ++ o.rd ++ o.ra ++ o.imm
  | .ltsi _ o => 0x06#6 ++ o.rd ++ o.ra ++ o.imm
  | .ltui _ o => 0x07#6 ++ o.rd ++ o.ra ++ o.imm
  | .slli _ o => 0x08#6 ++ o.rd ++ o.ra ++ 0#7 ++ bit1 o.w ++ 0#2 ++ o.amt
  | .srli _ o => 0x08#6 ++ o.rd ++ o.ra ++ 0#7 ++ bit1 o.w ++ 1#2 ++ o.amt
  | .srai _ o => 0x08#6 ++ o.rd ++ o.ra ++ 0#7 ++ bit1 o.w ++ 2#2 ++ o.amt
  | .rori _ o => 0x08#6 ++ o.rd ++ o.ra ++ 0#7 ++ bit1 o.w ++ 3#2 ++ o.amt
  | .liu _ o => 0x09#6 ++ o.rd ++ o.imm
  | .beq _ o => 0x0B#6 ++ o.ra ++ o.rb ++ o.off
  | .bne _ o => 0x0C#6 ++ o.ra ++ o.rb ++ o.off
  | .blt _ o => 0x0D#6 ++ o.ra ++ o.rb ++ o.off
  | .bge _ o => 0x0E#6 ++ o.ra ++ o.rb ++ o.off
  | .bltu _ o => 0x0F#6 ++ o.ra ++ o.rb ++ o.off
  | .bgeu _ o => 0x10#6 ++ o.ra ++ o.rb ++ o.off
  | .jmp _ o => 0x11#6 ++ o.off
  | .jal _ o => 0x12#6 ++ o.off
  | .jlr _ o => 0x13#6 ++ o.rd ++ o.ra ++ o.imm
  | .ldB _ o => 0x14#6 ++ o.rd ++ o.ra ++ o.imm
  | .ldBu _ o => 0x15#6 ++ o.rd ++ o.ra ++ o.imm
  | .ldH _ o => 0x16#6 ++ o.rd ++ o.ra ++ o.imm
  | .ldHu _ o => 0x17#6 ++ o.rd ++ o.ra ++ o.imm
  | .ldW _ o => 0x18#6 ++ o.rd ++ o.ra ++ o.imm
  | .ldWu _ o => 0x19#6 ++ o.rd ++ o.ra ++ o.imm
  | .ldD _ o => 0x1A#6 ++ o.rd ++ o.ra ++ o.imm
  | .stB _ o => 0x1B#6 ++ o.rd ++ o.ra ++ o.imm
  | .stH _ o => 0x1C#6 ++ o.rd ++ o.ra ++ o.imm
  | .stW _ o => 0x1D#6 ++ o.rd ++ o.ra ++ o.imm
  | .stD _ o => 0x1E#6 ++ o.rd ++ o.ra ++ o.imm
  | .fldS _ o => 0x1F#6 ++ o.rd ++ o.ra ++ o.imm
  | .fldD _ o => 0x20#6 ++ o.rd ++ o.ra ++ o.imm
  | .fstS _ o => 0x21#6 ++ o.rd ++ o.ra ++ o.imm
  | .fstD _ o => 0x22#6 ++ o.rd ++ o.ra ++ o.imm
  | .fadd _ o => 0x23#6 ++ o.rd ++ o.ra ++ o.rb ++ bit1 o.d ++ o.rm ++ 0#7
  | .fsub _ o => 0x23#6 ++ o.rd ++ o.ra ++ o.rb ++ bit1 o.d ++ o.rm ++ 1#7
  | .fmul _ o => 0x23#6 ++ o.rd ++ o.ra ++ o.rb ++ bit1 o.d ++ o.rm ++ 2#7
  | .fdiv _ o => 0x23#6 ++ o.rd ++ o.ra ++ o.rb ++ bit1 o.d ++ o.rm ++ 3#7
  | .fsqrt _ o => 0x23#6 ++ o.rd ++ o.ra ++ 0#5 ++ bit1 o.d ++ o.rm ++ 4#7
  | .fmin _ o => 0x23#6 ++ o.rd ++ o.ra ++ o.rb ++ bit1 o.d ++ 5#10
  | .fmax _ o => 0x23#6 ++ o.rd ++ o.ra ++ o.rb ++ bit1 o.d ++ 6#10
  | .fsgnC _ o => 0x23#6 ++ o.rd ++ o.ra ++ o.rb ++ bit1 o.d ++ 7#10
  | .fsgnN _ o => 0x23#6 ++ o.rd ++ o.ra ++ o.rb ++ bit1 o.d ++ 8#10
  | .fsgnX _ o => 0x23#6 ++ o.rd ++ o.ra ++ o.rb ++ bit1 o.d ++ 9#10
  | .feq _ o => 0x23#6 ++ o.rd ++ o.ra ++ o.rb ++ bit1 o.d ++ 0xa#10
  | .flt _ o => 0x23#6 ++ o.rd ++ o.ra ++ o.rb ++ bit1 o.d ++ 0xb#10
  | .fle _ o => 0x23#6 ++ o.rd ++ o.ra ++ o.rb ++ bit1 o.d ++ 0xc#10
  | .fclass _ o => 0x23#6 ++ o.rd ++ o.ra ++ 0#5 ++ bit1 o.d ++ 0xd#10
  | .ftoiS64 _ o => 0x23#6 ++ o.rd ++ o.ra ++ 0#5 ++ bit1 o.d ++ o.rm ++ 0xe#7
  | .ftoiU64 _ o => 0x23#6 ++ o.rd ++ o.ra ++ 0#5 ++ bit1 o.d ++ o.rm ++ 0xf#7
  | .ftoiS32 _ o => 0x23#6 ++ o.rd ++ o.ra ++ 0#5 ++ bit1 o.d ++ o.rm ++ 0x10#7
  | .ftoiU32 _ o => 0x23#6 ++ o.rd ++ o.ra ++ 0#5 ++ bit1 o.d ++ o.rm ++ 0x11#7
  | .itofS64 _ o => 0x23#6 ++ o.rd ++ o.ra ++ 0#5 ++ bit1 o.d ++ o.rm ++ 0x12#7
  | .itofU64 _ o => 0x23#6 ++ o.rd ++ o.ra ++ 0#5 ++ bit1 o.d ++ o.rm ++ 0x13#7
  | .itofS32 _ o => 0x23#6 ++ o.rd ++ o.ra ++ 0#5 ++ bit1 o.d ++ o.rm ++ 0x14#7
  | .itofU32 _ o => 0x23#6 ++ o.rd ++ o.ra ++ 0#5 ++ bit1 o.d ++ o.rm ++ 0x15#7
  | .fnarrow _ o => 0x23#6 ++ o.rd ++ o.ra ++ 0#6 ++ o.rm ++ 0x16#7
  | .fwiden _ o => 0x23#6 ++ o.rd ++ o.ra ++ 0#6 ++ o.rm ++ 0x17#7
  | .movfx _ o => 0x23#6 ++ o.rd ++ o.ra ++ 0#5 ++ bit1 o.d ++ 0x18#10
  | .movxf _ o => 0x23#6 ++ o.rd ++ o.ra ++ 0#5 ++ bit1 o.d ++ 0x19#10
  | .fmadd _ o => 0x24#6 ++ o.rd ++ o.ra ++ o.rb ++ o.rc ++ 0#2 ++ bit1 o.d ++ o.rm
  | .fmsub _ o => 0x24#6 ++ o.rd ++ o.ra ++ o.rb ++ o.rc ++ 1#2 ++ bit1 o.d ++ o.rm
  | .fnmadd _ o => 0x24#6 ++ o.rd ++ o.ra ++ o.rb ++ o.rc ++ 2#2 ++ bit1 o.d ++ o.rm
  | .fnmsub _ o => 0x24#6 ++ o.rd ++ o.ra ++ o.rb ++ o.rc ++ 3#2 ++ bit1 o.d ++ o.rm
  | .loopI _ o => 0x25#6 ++ 0#5 ++ o.ra ++ o.n
  | .rdtime _ o => 0x3F#6 ++ o.rd ++ 0#21
  | .settc _ o => 0x3F#6 ++ 0#5 ++ o.ra ++ 0x800#16
  | .waitt _ o => 0x3F#6 ++ 0#5 ++ o.ra ++ 0x1000#16
  | .rdcr _ o => 0x3F#6 ++ o.rd ++ 3#10 ++ o.crn
  | .wrcr _ o => 0x3F#6 ++ 0#5 ++ o.ra ++ 4#5 ++ o.crn
  | .fence _ => 0x3F#6 ++ 0x2800#26
  | .hbarm _ => 0x3F#6 ++ 0x3000#26
  | .fret _ => 0x3F#6 ++ 0x3800#26
  | .park _ => 0x3F#6 ++ 0x4000#26
  | .yieldI _ => 0x3F#6 ++ 0x4800#26
  | .trap _ o => 0x3F#6 ++ 0xa#15 ++ o.code
  | .vld _ o => 0x28#6 ++ o.vd ++ o.ra ++ 0#5 ++ o.m ++ 0#4 ++ o.imm
  | .vst _ o => 0x28#6 ++ o.vd ++ o.ra ++ 0#5 ++ o.m ++ 1#4 ++ o.imm
  | .vbcW _ o => 0x28#6 ++ o.vd ++ o.ra ++ 0#5 ++ o.m ++ 6#4 ++ o.imm
  | .vbcD _ o => 0x28#6 ++ o.vd ++ o.ra ++ 0#5 ++ o.m ++ 7#4 ++ o.imm
  | .vldsW _ o => 0x28#6 ++ o.vd ++ o.ra ++ o.rb ++ o.m ++ 2#4 ++ o.imm
  | .vstsW _ o => 0x28#6 ++ o.vd ++ o.ra ++ o.rb ++ o.m ++ 3#4 ++ o.imm
  | .vldsD _ o => 0x28#6 ++ o.vd ++ o.ra ++ o.rb ++ o.m ++ 4#4 ++ o.imm
  | .vstsD _ o => 0x28#6 ++ o.vd ++ o.ra ++ o.rb ++ o.m ++ 5#4 ++ o.imm
  | .vadd _ o => 0x29#6 ++ o.vd ++ o.va ++ o.vb ++ o.m ++ bit1 o.d ++ 0#7
  | .vsub _ o => 0x29#6 ++ o.vd ++ o.va ++ o.vb ++ o.m ++ bit1 o.d ++ 1#7
  | .vand _ o => 0x29#6 ++ o.vd ++ o.va ++ o.vb ++ o.m ++ bit1 o.d ++ 2#7
  | .vor _ o => 0x29#6 ++ o.vd ++ o.va ++ o.vb ++ o.m ++ bit1 o.d ++ 3#7
  | .vxor _ o => 0x29#6 ++ o.vd ++ o.va ++ o.vb ++ o.m ++ bit1 o.d ++ 4#7
  | .vsll _ o => 0x29#6 ++ o.vd ++ o.va ++ o.vb ++ o.m ++ bit1 o.d ++ 5#7
  | .vsrl _ o => 0x29#6 ++ o.vd ++ o.va ++ o.vb ++ o.m ++ bit1 o.d ++ 6#7
  | .vsra _ o => 0x29#6 ++ o.vd ++ o.va ++ o.vb ++ o.m ++ bit1 o.d ++ 7#7
  | .vmin _ o => 0x29#6 ++ o.vd ++ o.va ++ o.vb ++ o.m ++ bit1 o.d ++ 8#7
  | .vmax _ o => 0x29#6 ++ o.vd ++ o.va ++ o.vb ++ o.m ++ bit1 o.d ++ 9#7
  | .vminu _ o => 0x29#6 ++ o.vd ++ o.va ++ o.vb ++ o.m ++ bit1 o.d ++ 0xa#7
  | .vmaxu _ o => 0x29#6 ++ o.vd ++ o.va ++ o.vb ++ o.m ++ bit1 o.d ++ 0xb#7
  | .vmul _ o => 0x29#6 ++ o.vd ++ o.va ++ o.vb ++ o.m ++ bit1 o.d ++ 0xc#7
  | .vcmpeq _ o => 0x29#6 ++ 0#2 ++ o.md ++ o.va ++ o.vb ++ o.m ++ bit1 o.d ++ 0xd#7
  | .vcmplt _ o => 0x29#6 ++ 0#2 ++ o.md ++ o.va ++ o.vb ++ o.m ++ bit1 o.d ++ 0xe#7
  | .vcmpltu _ o => 0x29#6 ++ 0#2 ++ o.md ++ o.va ++ o.vb ++ o.m ++ bit1 o.d ++ 0xf#7
  | .vsplat _ o => 0x29#6 ++ o.vd ++ o.xa ++ 0#5 ++ o.m ++ bit1 o.d ++ 0x10#7
  | .vext _ o => 0x29#6 ++ o.xd ++ o.va ++ o.xb ++ 0#3 ++ bit1 o.d ++ 0x11#7
  | .vins _ o => 0x29#6 ++ o.vd ++ o.xa ++ o.xb ++ 0#3 ++ bit1 o.d ++ 0x12#7
  | .vperm _ o => 0x29#6 ++ o.vd ++ o.va ++ o.vb ++ o.m ++ bit1 o.d ++ 0x13#7
  | .vpermb _ o => 0x29#6 ++ o.vd ++ o.va ++ o.vb ++ 0x14#11
  | .vsel _ o => 0x29#6 ++ o.vd ++ o.va ++ o.vb ++ o.m ++ bit1 o.d ++ 0x15#7
  | .vfadd _ o => (0x15#5 ++ bit1 o.d) ++ o.vd ++ o.va ++ o.vb ++ o.m ++ o.rm ++ 0#5
  | .vfsub _ o => (0x15#5 ++ bit1 o.d) ++ o.vd ++ o.va ++ o.vb ++ o.m ++ o.rm ++ 1#5
  | .vfmul _ o => (0x15#5 ++ bit1 o.d) ++ o.vd ++ o.va ++ o.vb ++ o.m ++ o.rm ++ 2#5
  | .vfdiv _ o => (0x15#5 ++ bit1 o.d) ++ o.vd ++ o.va ++ o.vb ++ o.m ++ o.rm ++ 3#5
  | .vfsqrt _ o => (0x15#5 ++ bit1 o.d) ++ o.vd ++ o.va ++ 0#5 ++ o.m ++ o.rm ++ 4#5
  | .vfmin _ o => (0x15#5 ++ bit1 o.d) ++ o.vd ++ o.va ++ o.vb ++ o.m ++ 5#8
  | .vfmax _ o => (0x15#5 ++ bit1 o.d) ++ o.vd ++ o.va ++ o.vb ++ o.m ++ 6#8
  | .vfamax _ o => (0x15#5 ++ bit1 o.d) ++ o.vd ++ o.va ++ o.vb ++ o.m ++ 7#8
  | .vfsgnC _ o => (0x15#5 ++ bit1 o.d) ++ o.vd ++ o.va ++ o.vb ++ o.m ++ 8#8
  | .vfsgnN _ o => (0x15#5 ++ bit1 o.d) ++ o.vd ++ o.va ++ o.vb ++ o.m ++ 9#8
  | .vfsgnX _ o => (0x15#5 ++ bit1 o.d) ++ o.vd ++ o.va ++ o.vb ++ o.m ++ 0xa#8
  | .vfcmpeq _ o => (0x15#5 ++ bit1 o.d) ++ 0#2 ++ o.md ++ o.va ++ o.vb ++ o.m ++ 0xb#8
  | .vfcmplt _ o => (0x15#5 ++ bit1 o.d) ++ 0#2 ++ o.md ++ o.va ++ o.vb ++ o.m ++ 0xc#8
  | .vfcmple _ o => (0x15#5 ++ bit1 o.d) ++ 0#2 ++ o.md ++ o.va ++ o.vb ++ o.m ++ 0xd#8
  | .vfclass _ o => (0x15#5 ++ bit1 o.d) ++ o.vd ++ o.va ++ 0#5 ++ o.m ++ 0xe#8
  | .vfrmax _ o => (0x15#5 ++ bit1 o.d) ++ o.vd ++ o.va ++ 0#5 ++ o.m ++ 0xf#8
  | .vfrmin _ o => (0x15#5 ++ bit1 o.d) ++ o.vd ++ o.va ++ 0#5 ++ o.m ++ 0x10#8
  | .vframax _ o => (0x15#5 ++ bit1 o.d) ++ o.vd ++ o.va ++ 0#5 ++ o.m ++ 0x11#8
  | .vfrsum _ o => (0x15#5 ++ bit1 o.d) ++ o.vd ++ o.va ++ 0#5 ++ o.m ++ o.rm ++ 0x12#5
  | .vfmadd _ o => 0x2C#6 ++ o.vd ++ o.va ++ o.vb ++ o.vc ++ 0#2 ++ bit1 o.d ++ o.m
  | .vfmsub _ o => 0x2C#6 ++ o.vd ++ o.va ++ o.vb ++ o.vc ++ 1#2 ++ bit1 o.d ++ o.m
  | .vfnmadd _ o => 0x2C#6 ++ o.vd ++ o.va ++ o.vb ++ o.vc ++ 2#2 ++ bit1 o.d ++ o.m
  | .vfnmsub _ o => 0x2C#6 ++ o.vd ++ o.va ++ o.vb ++ o.vc ++ 3#2 ++ bit1 o.d ++ o.m
  | .vcvt _ o => 0x2D#6 ++ o.vd ++ o.va ++ o.dst ++ o.src ++ o.rnd ++ bit1 o.sat ++ o.seg ++ 0#1
  | .vmxDown _ o => 0x2E#6 ++ o.vd ++ o.va ++ o.rb ++ o.efmt ++ o.rnd ++ bit1 o.sat ++ o.mxs ++ bit1 o.mxen ++ 0#1
  | .vmxUp _ o => 0x2E#6 ++ o.vd ++ o.va ++ o.rb ++ o.efmt ++ 1#8
  | .vmand _ o => 0x2F#6 ++ 0#2 ++ o.md ++ 0#2 ++ o.ma ++ 0#2 ++ o.mb ++ 0#11
  | .vmor _ o => 0x2F#6 ++ 0#2 ++ o.md ++ 0#2 ++ o.ma ++ 0#2 ++ o.mb ++ 0x20#11
  | .vmxor _ o => 0x2F#6 ++ 0#2 ++ o.md ++ 0#2 ++ o.ma ++ 0#2 ++ o.mb ++ 0x40#11
  | .vmandn _ o => 0x2F#6 ++ 0#2 ++ o.md ++ 0#2 ++ o.ma ++ 0#2 ++ o.mb ++ 0x60#11
  | .vmpopc _ o => 0x2F#6 ++ o.xd ++ 0#2 ++ o.ma ++ 0x80#16
  | .vmfirst _ o => 0x2F#6 ++ o.xd ++ 0#2 ++ o.ma ++ 0xa0#16
  | .vmfx _ o => 0x2F#6 ++ 0#2 ++ o.md ++ o.xa ++ 0xc0#16
  | .vmtx _ o => 0x2F#6 ++ o.xd ++ 0#2 ++ o.ma ++ 0xe0#16
  | .vmxr _ o => 0x2F#6 ++ o.vd ++ 0x40#19 ++ o.mx
  | .vmxw _ o => 0x2F#6 ++ 0#5 ++ o.va ++ 0x48#14 ++ o.mx
  | .vmxs _ o => 0x2F#6 ++ o.vd ++ 0#5 ++ o.h ++ o.efmt ++ 0x28#8 ++ bit1 o.reset ++ o.mx
  | .vcrc64 _ o => 0x2F#6 ++ o.xd ++ o.va ++ o.xb ++ 0x160#11
  | .tld _ o => 0x30#6 ++ o.tgt ++ o.ra ++ o.rb ++ o.lay ++ o.fmt ++ o.nrow1 ++ bit1 o.resume
  | .tst _ o => 0x31#6 ++ o.src ++ o.ra ++ o.rb ++ 0#6 ++ o.nrow1 ++ 0#1
  | .tlds _ o => 0x32#6 ++ 0#2 ++ o.sc ++ o.ra ++ o.rb ++ 0#10 ++ bit1 o.resume ++ 0#1
  | .tsts _ o => 0x32#6 ++ 0#2 ++ o.sc ++ o.ra ++ o.rb ++ 0x100#12
  | .tscw _ o => 0x32#6 ++ 0#2 ++ o.sc ++ o.va ++ o.rb ++ 0x200#12
  | .tscf _ o => 0x32#6 ++ 0#2 ++ o.sc ++ o.ra ++ 0x300#17
  | .twr _ o => 0x32#6 ++ 0#1 ++ o.td ++ o.va ++ o.rb ++ 4#4 ++ o.fmt ++ o.lay ++ 0#2
  | .trd _ o => 0x32#6 ++ 0#1 ++ o.ts ++ o.vd ++ o.rb ++ 0x500#12
  | .trl _ o => 0x32#6 ++ 0#1 ++ o.td ++ 0x60#18 ++ o.lay ++ 0#2
  | .tz _ o => 0x32#6 ++ 0#1 ++ o.td ++ 7#14 ++ o.fmt ++ o.lay ++ 0#2
  | .mma _ o => 0x33#6 ++ o.acd ++ o.ta ++ o.tb ++ o.sa ++ o.sb ++ o.fmt ++ bit1 o.mx ++ bit1 o.zero ++ bit1 o.chk ++ 0#7
  | .azero _ o => 0x34#6 ++ o.acd ++ 0#24
  | .acopy _ o => 0x34#6 ++ o.acd ++ o.acs ++ 0x40#22
  | .amax _ o => 0x34#6 ++ o.acd ++ o.acs ++ 0x80#22
  | .amin _ o => 0x34#6 ++ o.acd ++ o.acs ++ 0xc0#22
  | .ard _ o => 0x34#6 ++ 0#2 ++ o.acs ++ o.vd ++ o.rb ++ 0x100#12
  | .awr _ o => 0x34#6 ++ o.acd ++ 0#2 ++ o.va ++ o.rb ++ 0x140#12
  | .armax _ o => 0x34#6 ++ 0#2 ++ o.acs ++ o.vd ++ 0x180#17
  | .armin _ o => 0x34#6 ++ 0#2 ++ o.acs ++ o.vd ++ 0x1c0#17
  | .ascr _ o => 0x34#6 ++ o.acd ++ 0#2 ++ o.va ++ 0x200#17
  | .asubr _ o => 0x34#6 ++ o.acd ++ 0#2 ++ o.va ++ 0x240#17
  | .lde _ o => 0x36#6 ++ o.r ++ o.ra ++ 0#4 ++ o.sz ++ o.off
  | .ldk _ o => 0x36#6 ++ o.r ++ o.ra ++ 1#4 ++ o.sz ++ o.off
  | .stf _ o => 0x36#6 ++ o.r ++ o.ra ++ 2#4 ++ o.sz ++ o.off
  | .stp _ o => 0x36#6 ++ o.r ++ o.ra ++ 3#4 ++ o.sz ++ o.off
  | .tprobe _ o => 0x37#6 ++ o.rd ++ o.ra ++ 0#16
  | .tsete _ o => 0x37#6 ++ 0#5 ++ o.ra ++ o.rb ++ 0x40#11
  | .tsetf _ o => 0x37#6 ++ 0#5 ++ o.ra ++ o.rb ++ 0x80#11
  | .szero _ o => 0x37#6 ++ 0#5 ++ o.ra ++ o.rb ++ 0xc0#11
  | .ldvD _ o => 0x38#6 ++ o.rd ++ o.ra ++ 0#16
  | .ldvW _ o => 0x38#6 ++ o.rd ++ o.ra ++ 0x40#16
  | .ldvL _ o => 0x38#6 ++ o.rd ++ o.ra ++ 0x80#16
  | .winv _ o => 0x38#6 ++ 0#5 ++ o.ra ++ o.rb ++ 0x200#11
  | .amoAdd _ o => 0x38#6 ++ o.rd ++ o.ra ++ o.rb ++ 0x400#11
  | .amoAnd _ o => 0x38#6 ++ o.rd ++ o.ra ++ o.rb ++ 0x440#11
  | .amoOr _ o => 0x38#6 ++ o.rd ++ o.ra ++ o.rb ++ 0x480#11
  | .amoXor _ o => 0x38#6 ++ o.rd ++ o.ra ++ o.rb ++ 0x4c0#11
  | .amoMin _ o => 0x38#6 ++ o.rd ++ o.ra ++ o.rb ++ 0x500#11
  | .amoMax _ o => 0x38#6 ++ o.rd ++ o.ra ++ o.rb ++ 0x540#11
  | .amoMinu _ o => 0x38#6 ++ o.rd ++ o.ra ++ o.rb ++ 0x580#11
  | .amoMaxu _ o => 0x38#6 ++ o.rd ++ o.ra ++ o.rb ++ 0x5c0#11
  | .amoSwap _ o => 0x38#6 ++ o.rd ++ o.ra ++ o.rb ++ 0x600#11
  | .amoCas _ o => 0x38#6 ++ o.rd ++ o.ra ++ o.rb ++ 0x640#11
  | .send _ o => 0x39#6 ++ o.rd ++ o.ra ++ o.rb ++ o.rc ++ o.cls ++ 0#4
  | .dispatch _ o => 0x3A#6 ++ o.rd ++ 0#15 ++ o.cmask ++ 0#3
  | .qdone _ o => 0x3A#6 ++ 0#5 ++ o.ra ++ 0x40#16
  | .qstat _ o => 0x3A#6 ++ o.rd ++ 0x80#21
  | .hent _ o => 0x3A#6 ++ o.rd ++ o.ra ++ 0xc0#16
  | .sndstat _ o => 0x3A#6 ++ o.rd ++ 0x100#21
  | _ => 0

/-- Bits [lo+n-1:lo] of a word. -/
def fld (w : W32) (lo n : Nat) : BitVec n := w.extractLsb' lo n
/-- One bit of a word as a flag. -/
def flag (w : W32) (n : Nat) : Bool := w.getLsbD n

def decode01 (a : ThreadAt) (w : W32) : Option Instr :=
  if fld w 0 10 == 0 then
    some (.add a { rd := fld w 21 5, ra := fld w 16 5, rb := fld w 11 5, w := flag w 10 })
  else if fld w 0 10 == 1 then
    some (.sub a { rd := fld w 21 5, ra := fld w 16 5, rb := fld w 11 5, w := flag w 10 })
  else if fld w 0 10 == 2 then
    some (.andR a { rd := fld w 21 5, ra := fld w 16 5, rb := fld w 11 5, w := flag w 10 })
  else if fld w 0 10 == 3 then
    some (.orR a { rd := fld w 21 5, ra := fld w 16 5, rb := fld w 11 5, w := flag w 10 })
  else if fld w 0 10 == 4 then
    some (.xorR a { rd := fld w 21 5, ra := fld w 16 5, rb := fld w 11 5, w := flag w 10 })
  else if fld w 0 10 == 5 then
    some (.andn a { rd := fld w 21 5, ra := fld w 16 5, rb := fld w 11 5, w := flag w 10 })
  else if fld w 0 10 == 6 then
    some (.sll a { rd := fld w 21 5, ra := fld w 16 5, rb := fld w 11 5, w := flag w 10 })
  else if fld w 0 10 == 7 then
    some (.srl a { rd := fld w 21 5, ra := fld w 16 5, rb := fld w 11 5, w := flag w 10 })
  else if fld w 0 10 == 8 then
    some (.sra a { rd := fld w 21 5, ra := fld w 16 5, rb := fld w 11 5, w := flag w 10 })
  else if fld w 0 10 == 9 then
    some (.ror a { rd := fld w 21 5, ra := fld w 16 5, rb := fld w 11 5, w := flag w 10 })
  else if fld w 0 10 == 0xa then
    some (.lts a { rd := fld w 21 5, ra := fld w 16 5, rb := fld w 11 5, w := flag w 10 })
  else if fld w 0 10 == 0xb then
    some (.ltu a { rd := fld w 21 5, ra := fld w 16 5, rb := fld w 11 5, w := flag w 10 })
  else if fld w 0 10 == 0xc then
    some (.minS a { rd := fld w 21 5, ra := fld w 16 5, rb := fld w 11 5, w := flag w 10 })
  else if fld w 0 10 == 0xd then
    some (.maxS a { rd := fld w 21 5, ra := fld w 16 5, rb := fld w 11 5, w := flag w 10 })
  else if fld w 0 10 == 0xe then
    some (.minu a { rd := fld w 21 5, ra := fld w 16 5, rb := fld w 11 5, w := flag w 10 })
  else if fld w 0 10 == 0xf then
    some (.maxu a { rd := fld w 21 5, ra := fld w 16 5, rb := fld w 11 5, w := flag w 10 })
  else if fld w 11 5 == 0 && fld w 0 10 == 0x10 then
    some (.clz a { rd := fld w 21 5, ra := fld w 16 5, w := flag w 10 })
  else if fld w 11 5 == 0 && fld w 0 10 == 0x11 then
    some (.ctz a { rd := fld w 21 5, ra := fld w 16 5, w := flag w 10 })
  else if fld w 11 5 == 0 && fld w 0 10 == 0x12 then
    some (.popc a { rd := fld w 21 5, ra := fld w 16 5, w := flag w 10 })
  else if fld w 0 10 == 0x18 then
    some (.mul a { rd := fld w 21 5, ra := fld w 16 5, rb := fld w 11 5, w := flag w 10 })
  else if fld w 0 11 == 0x19 then
    some (.mulhiS a { rd := fld w 21 5, ra := fld w 16 5, rb := fld w 11 5 })
  else if fld w 0 11 == 0x1a then
    some (.mulhiU a { rd := fld w 21 5, ra := fld w 16 5, rb := fld w 11 5 })
  else if fld w 0 11 == 0x1b then
    some (.mulhiSu a { rd := fld w 21 5, ra := fld w 16 5, rb := fld w 11 5 })
  else if fld w 0 10 == 0x1c then
    some (.div a { rd := fld w 21 5, ra := fld w 16 5, rb := fld w 11 5, w := flag w 10 })
  else if fld w 0 10 == 0x1d then
    some (.divu a { rd := fld w 21 5, ra := fld w 16 5, rb := fld w 11 5, w := flag w 10 })
  else if fld w 0 10 == 0x1e then
    some (.rem a { rd := fld w 21 5, ra := fld w 16 5, rb := fld w 11 5, w := flag w 10 })
  else if fld w 0 10 == 0x1f then
    some (.remu a { rd := fld w 21 5, ra := fld w 16 5, rb := fld w 11 5, w := flag w 10 })
  else none

def decode02 (a : ThreadAt) (w : W32) : Option Instr :=
  some (.addi a { rd := fld w 21 5, ra := fld w 16 5, imm := fld w 0 16 })

def decode03 (a : ThreadAt) (w : W32) : Option Instr :=
  some (.andi a { rd := fld w 21 5, ra := fld w 16 5, imm := fld w 0 16 })

def decode04 (a : ThreadAt) (w : W32) : Option Instr :=
  some (.ori a { rd := fld w 21 5, ra := fld w 16 5, imm := fld w 0 16 })

def decode05 (a : ThreadAt) (w : W32) : Option Instr :=
  some (.xori a { rd := fld w 21 5, ra := fld w 16 5, imm := fld w 0 16 })

def decode06 (a : ThreadAt) (w : W32) : Option Instr :=
  some (.ltsi a { rd := fld w 21 5, ra := fld w 16 5, imm := fld w 0 16 })

def decode07 (a : ThreadAt) (w : W32) : Option Instr :=
  some (.ltui a { rd := fld w 21 5, ra := fld w 16 5, imm := fld w 0 16 })

def decode08 (a : ThreadAt) (w : W32) : Option Instr :=
  if fld w 9 7 == 0 && fld w 6 2 == 0 then
    some (.slli a { rd := fld w 21 5, ra := fld w 16 5, w := flag w 8, amt := fld w 0 6 })
  else if fld w 9 7 == 0 && fld w 6 2 == 1 then
    some (.srli a { rd := fld w 21 5, ra := fld w 16 5, w := flag w 8, amt := fld w 0 6 })
  else if fld w 9 7 == 0 && fld w 6 2 == 2 then
    some (.srai a { rd := fld w 21 5, ra := fld w 16 5, w := flag w 8, amt := fld w 0 6 })
  else if fld w 9 7 == 0 && fld w 6 2 == 3 then
    some (.rori a { rd := fld w 21 5, ra := fld w 16 5, w := flag w 8, amt := fld w 0 6 })
  else none

def decode09 (a : ThreadAt) (w : W32) : Option Instr :=
  some (.liu a { rd := fld w 21 5, imm := fld w 0 21 })

def decode0B (a : ThreadAt) (w : W32) : Option Instr :=
  some (.beq a { ra := fld w 21 5, rb := fld w 16 5, off := fld w 0 16 })

def decode0C (a : ThreadAt) (w : W32) : Option Instr :=
  some (.bne a { ra := fld w 21 5, rb := fld w 16 5, off := fld w 0 16 })

def decode0D (a : ThreadAt) (w : W32) : Option Instr :=
  some (.blt a { ra := fld w 21 5, rb := fld w 16 5, off := fld w 0 16 })

def decode0E (a : ThreadAt) (w : W32) : Option Instr :=
  some (.bge a { ra := fld w 21 5, rb := fld w 16 5, off := fld w 0 16 })

def decode0F (a : ThreadAt) (w : W32) : Option Instr :=
  some (.bltu a { ra := fld w 21 5, rb := fld w 16 5, off := fld w 0 16 })

def decode10 (a : ThreadAt) (w : W32) : Option Instr :=
  some (.bgeu a { ra := fld w 21 5, rb := fld w 16 5, off := fld w 0 16 })

def decode11 (a : ThreadAt) (w : W32) : Option Instr :=
  some (.jmp a { off := fld w 0 26 })

def decode12 (a : ThreadAt) (w : W32) : Option Instr :=
  some (.jal a { off := fld w 0 26 })

def decode13 (a : ThreadAt) (w : W32) : Option Instr :=
  some (.jlr a { rd := fld w 21 5, ra := fld w 16 5, imm := fld w 0 16 })

def decode14 (a : ThreadAt) (w : W32) : Option Instr :=
  some (.ldB a { rd := fld w 21 5, ra := fld w 16 5, imm := fld w 0 16 })

def decode15 (a : ThreadAt) (w : W32) : Option Instr :=
  some (.ldBu a { rd := fld w 21 5, ra := fld w 16 5, imm := fld w 0 16 })

def decode16 (a : ThreadAt) (w : W32) : Option Instr :=
  some (.ldH a { rd := fld w 21 5, ra := fld w 16 5, imm := fld w 0 16 })

def decode17 (a : ThreadAt) (w : W32) : Option Instr :=
  some (.ldHu a { rd := fld w 21 5, ra := fld w 16 5, imm := fld w 0 16 })

def decode18 (a : ThreadAt) (w : W32) : Option Instr :=
  some (.ldW a { rd := fld w 21 5, ra := fld w 16 5, imm := fld w 0 16 })

def decode19 (a : ThreadAt) (w : W32) : Option Instr :=
  some (.ldWu a { rd := fld w 21 5, ra := fld w 16 5, imm := fld w 0 16 })

def decode1A (a : ThreadAt) (w : W32) : Option Instr :=
  some (.ldD a { rd := fld w 21 5, ra := fld w 16 5, imm := fld w 0 16 })

def decode1B (a : ThreadAt) (w : W32) : Option Instr :=
  some (.stB a { rd := fld w 21 5, ra := fld w 16 5, imm := fld w 0 16 })

def decode1C (a : ThreadAt) (w : W32) : Option Instr :=
  some (.stH a { rd := fld w 21 5, ra := fld w 16 5, imm := fld w 0 16 })

def decode1D (a : ThreadAt) (w : W32) : Option Instr :=
  some (.stW a { rd := fld w 21 5, ra := fld w 16 5, imm := fld w 0 16 })

def decode1E (a : ThreadAt) (w : W32) : Option Instr :=
  some (.stD a { rd := fld w 21 5, ra := fld w 16 5, imm := fld w 0 16 })

def decode1F (a : ThreadAt) (w : W32) : Option Instr :=
  some (.fldS a { rd := fld w 21 5, ra := fld w 16 5, imm := fld w 0 16 })

def decode20 (a : ThreadAt) (w : W32) : Option Instr :=
  some (.fldD a { rd := fld w 21 5, ra := fld w 16 5, imm := fld w 0 16 })

def decode21 (a : ThreadAt) (w : W32) : Option Instr :=
  some (.fstS a { rd := fld w 21 5, ra := fld w 16 5, imm := fld w 0 16 })

def decode22 (a : ThreadAt) (w : W32) : Option Instr :=
  some (.fstD a { rd := fld w 21 5, ra := fld w 16 5, imm := fld w 0 16 })

def decode23 (a : ThreadAt) (w : W32) : Option Instr :=
  if fld w 0 7 == 0 then
    some (.fadd a { rd := fld w 21 5, ra := fld w 16 5, rb := fld w 11 5, d := flag w 10, rm := fld w 7 3 })
  else if fld w 0 7 == 1 then
    some (.fsub a { rd := fld w 21 5, ra := fld w 16 5, rb := fld w 11 5, d := flag w 10, rm := fld w 7 3 })
  else if fld w 0 7 == 2 then
    some (.fmul a { rd := fld w 21 5, ra := fld w 16 5, rb := fld w 11 5, d := flag w 10, rm := fld w 7 3 })
  else if fld w 0 7 == 3 then
    some (.fdiv a { rd := fld w 21 5, ra := fld w 16 5, rb := fld w 11 5, d := flag w 10, rm := fld w 7 3 })
  else if fld w 11 5 == 0 && fld w 0 7 == 4 then
    some (.fsqrt a { rd := fld w 21 5, ra := fld w 16 5, d := flag w 10, rm := fld w 7 3 })
  else if fld w 0 10 == 5 then
    some (.fmin a { rd := fld w 21 5, ra := fld w 16 5, rb := fld w 11 5, d := flag w 10 })
  else if fld w 0 10 == 6 then
    some (.fmax a { rd := fld w 21 5, ra := fld w 16 5, rb := fld w 11 5, d := flag w 10 })
  else if fld w 0 10 == 7 then
    some (.fsgnC a { rd := fld w 21 5, ra := fld w 16 5, rb := fld w 11 5, d := flag w 10 })
  else if fld w 0 10 == 8 then
    some (.fsgnN a { rd := fld w 21 5, ra := fld w 16 5, rb := fld w 11 5, d := flag w 10 })
  else if fld w 0 10 == 9 then
    some (.fsgnX a { rd := fld w 21 5, ra := fld w 16 5, rb := fld w 11 5, d := flag w 10 })
  else if fld w 0 10 == 0xa then
    some (.feq a { rd := fld w 21 5, ra := fld w 16 5, rb := fld w 11 5, d := flag w 10 })
  else if fld w 0 10 == 0xb then
    some (.flt a { rd := fld w 21 5, ra := fld w 16 5, rb := fld w 11 5, d := flag w 10 })
  else if fld w 0 10 == 0xc then
    some (.fle a { rd := fld w 21 5, ra := fld w 16 5, rb := fld w 11 5, d := flag w 10 })
  else if fld w 11 5 == 0 && fld w 0 10 == 0xd then
    some (.fclass a { rd := fld w 21 5, ra := fld w 16 5, d := flag w 10 })
  else if fld w 11 5 == 0 && fld w 0 7 == 0xe then
    some (.ftoiS64 a { rd := fld w 21 5, ra := fld w 16 5, d := flag w 10, rm := fld w 7 3 })
  else if fld w 11 5 == 0 && fld w 0 7 == 0xf then
    some (.ftoiU64 a { rd := fld w 21 5, ra := fld w 16 5, d := flag w 10, rm := fld w 7 3 })
  else if fld w 11 5 == 0 && fld w 0 7 == 0x10 then
    some (.ftoiS32 a { rd := fld w 21 5, ra := fld w 16 5, d := flag w 10, rm := fld w 7 3 })
  else if fld w 11 5 == 0 && fld w 0 7 == 0x11 then
    some (.ftoiU32 a { rd := fld w 21 5, ra := fld w 16 5, d := flag w 10, rm := fld w 7 3 })
  else if fld w 11 5 == 0 && fld w 0 7 == 0x12 then
    some (.itofS64 a { rd := fld w 21 5, ra := fld w 16 5, d := flag w 10, rm := fld w 7 3 })
  else if fld w 11 5 == 0 && fld w 0 7 == 0x13 then
    some (.itofU64 a { rd := fld w 21 5, ra := fld w 16 5, d := flag w 10, rm := fld w 7 3 })
  else if fld w 11 5 == 0 && fld w 0 7 == 0x14 then
    some (.itofS32 a { rd := fld w 21 5, ra := fld w 16 5, d := flag w 10, rm := fld w 7 3 })
  else if fld w 11 5 == 0 && fld w 0 7 == 0x15 then
    some (.itofU32 a { rd := fld w 21 5, ra := fld w 16 5, d := flag w 10, rm := fld w 7 3 })
  else if fld w 10 6 == 0 && fld w 0 7 == 0x16 then
    some (.fnarrow a { rd := fld w 21 5, ra := fld w 16 5, rm := fld w 7 3 })
  else if fld w 10 6 == 0 && fld w 0 7 == 0x17 then
    some (.fwiden a { rd := fld w 21 5, ra := fld w 16 5, rm := fld w 7 3 })
  else if fld w 11 5 == 0 && fld w 0 10 == 0x18 then
    some (.movfx a { rd := fld w 21 5, ra := fld w 16 5, d := flag w 10 })
  else if fld w 11 5 == 0 && fld w 0 10 == 0x19 then
    some (.movxf a { rd := fld w 21 5, ra := fld w 16 5, d := flag w 10 })
  else none

def decode24 (a : ThreadAt) (w : W32) : Option Instr :=
  if fld w 4 2 == 0 then
    some (.fmadd a { rd := fld w 21 5, ra := fld w 16 5, rb := fld w 11 5, rc := fld w 6 5, d := flag w 3, rm := fld w 0 3 })
  else if fld w 4 2 == 1 then
    some (.fmsub a { rd := fld w 21 5, ra := fld w 16 5, rb := fld w 11 5, rc := fld w 6 5, d := flag w 3, rm := fld w 0 3 })
  else if fld w 4 2 == 2 then
    some (.fnmadd a { rd := fld w 21 5, ra := fld w 16 5, rb := fld w 11 5, rc := fld w 6 5, d := flag w 3, rm := fld w 0 3 })
  else if fld w 4 2 == 3 then
    some (.fnmsub a { rd := fld w 21 5, ra := fld w 16 5, rb := fld w 11 5, rc := fld w 6 5, d := flag w 3, rm := fld w 0 3 })
  else none

def decode25 (a : ThreadAt) (w : W32) : Option Instr :=
  if fld w 21 5 == 0 then
    some (.loopI a { ra := fld w 16 5, n := fld w 0 16 })
  else none

def decode3F (a : ThreadAt) (w : W32) : Option Instr :=
  if fld w 0 21 == 0 then
    some (.rdtime a { rd := fld w 21 5 })
  else if fld w 21 5 == 0 && fld w 0 16 == 0x800 then
    some (.settc a { ra := fld w 16 5 })
  else if fld w 21 5 == 0 && fld w 0 16 == 0x1000 then
    some (.waitt a { ra := fld w 16 5 })
  else if fld w 11 10 == 3 then
    some (.rdcr a { rd := fld w 21 5, crn := fld w 0 11 })
  else if fld w 21 5 == 0 && fld w 11 5 == 4 then
    some (.wrcr a { ra := fld w 16 5, crn := fld w 0 11 })
  else if fld w 0 26 == 0x2800 then
    some (.fence a)
  else if fld w 0 26 == 0x3000 then
    some (.hbarm a)
  else if fld w 0 26 == 0x3800 then
    some (.fret a)
  else if fld w 0 26 == 0x4000 then
    some (.park a)
  else if fld w 0 26 == 0x4800 then
    some (.yieldI a)
  else if fld w 11 15 == 0xa then
    some (.trap a { code := fld w 0 11 })
  else none

def decode28 (a : ThreadAt) (w : W32) : Option Instr :=
  if fld w 11 5 == 0 && fld w 4 4 == 0 then
    some (.vld a { vd := fld w 21 5, ra := fld w 16 5, m := fld w 8 3, imm := fld w 0 4 })
  else if fld w 11 5 == 0 && fld w 4 4 == 1 then
    some (.vst a { vd := fld w 21 5, ra := fld w 16 5, m := fld w 8 3, imm := fld w 0 4 })
  else if fld w 11 5 == 0 && fld w 4 4 == 6 then
    some (.vbcW a { vd := fld w 21 5, ra := fld w 16 5, m := fld w 8 3, imm := fld w 0 4 })
  else if fld w 11 5 == 0 && fld w 4 4 == 7 then
    some (.vbcD a { vd := fld w 21 5, ra := fld w 16 5, m := fld w 8 3, imm := fld w 0 4 })
  else if fld w 4 4 == 2 then
    some (.vldsW a { vd := fld w 21 5, ra := fld w 16 5, rb := fld w 11 5, m := fld w 8 3, imm := fld w 0 4 })
  else if fld w 4 4 == 3 then
    some (.vstsW a { vd := fld w 21 5, ra := fld w 16 5, rb := fld w 11 5, m := fld w 8 3, imm := fld w 0 4 })
  else if fld w 4 4 == 4 then
    some (.vldsD a { vd := fld w 21 5, ra := fld w 16 5, rb := fld w 11 5, m := fld w 8 3, imm := fld w 0 4 })
  else if fld w 4 4 == 5 then
    some (.vstsD a { vd := fld w 21 5, ra := fld w 16 5, rb := fld w 11 5, m := fld w 8 3, imm := fld w 0 4 })
  else none

def decode29 (a : ThreadAt) (w : W32) : Option Instr :=
  if fld w 0 7 == 0 then
    some (.vadd a { vd := fld w 21 5, va := fld w 16 5, vb := fld w 11 5, m := fld w 8 3, d := flag w 7 })
  else if fld w 0 7 == 1 then
    some (.vsub a { vd := fld w 21 5, va := fld w 16 5, vb := fld w 11 5, m := fld w 8 3, d := flag w 7 })
  else if fld w 0 7 == 2 then
    some (.vand a { vd := fld w 21 5, va := fld w 16 5, vb := fld w 11 5, m := fld w 8 3, d := flag w 7 })
  else if fld w 0 7 == 3 then
    some (.vor a { vd := fld w 21 5, va := fld w 16 5, vb := fld w 11 5, m := fld w 8 3, d := flag w 7 })
  else if fld w 0 7 == 4 then
    some (.vxor a { vd := fld w 21 5, va := fld w 16 5, vb := fld w 11 5, m := fld w 8 3, d := flag w 7 })
  else if fld w 0 7 == 5 then
    some (.vsll a { vd := fld w 21 5, va := fld w 16 5, vb := fld w 11 5, m := fld w 8 3, d := flag w 7 })
  else if fld w 0 7 == 6 then
    some (.vsrl a { vd := fld w 21 5, va := fld w 16 5, vb := fld w 11 5, m := fld w 8 3, d := flag w 7 })
  else if fld w 0 7 == 7 then
    some (.vsra a { vd := fld w 21 5, va := fld w 16 5, vb := fld w 11 5, m := fld w 8 3, d := flag w 7 })
  else if fld w 0 7 == 8 then
    some (.vmin a { vd := fld w 21 5, va := fld w 16 5, vb := fld w 11 5, m := fld w 8 3, d := flag w 7 })
  else if fld w 0 7 == 9 then
    some (.vmax a { vd := fld w 21 5, va := fld w 16 5, vb := fld w 11 5, m := fld w 8 3, d := flag w 7 })
  else if fld w 0 7 == 0xa then
    some (.vminu a { vd := fld w 21 5, va := fld w 16 5, vb := fld w 11 5, m := fld w 8 3, d := flag w 7 })
  else if fld w 0 7 == 0xb then
    some (.vmaxu a { vd := fld w 21 5, va := fld w 16 5, vb := fld w 11 5, m := fld w 8 3, d := flag w 7 })
  else if fld w 0 7 == 0xc then
    some (.vmul a { vd := fld w 21 5, va := fld w 16 5, vb := fld w 11 5, m := fld w 8 3, d := flag w 7 })
  else if fld w 24 2 == 0 && fld w 0 7 == 0xd then
    some (.vcmpeq a { md := fld w 21 3, va := fld w 16 5, vb := fld w 11 5, m := fld w 8 3, d := flag w 7 })
  else if fld w 24 2 == 0 && fld w 0 7 == 0xe then
    some (.vcmplt a { md := fld w 21 3, va := fld w 16 5, vb := fld w 11 5, m := fld w 8 3, d := flag w 7 })
  else if fld w 24 2 == 0 && fld w 0 7 == 0xf then
    some (.vcmpltu a { md := fld w 21 3, va := fld w 16 5, vb := fld w 11 5, m := fld w 8 3, d := flag w 7 })
  else if fld w 11 5 == 0 && fld w 0 7 == 0x10 then
    some (.vsplat a { vd := fld w 21 5, xa := fld w 16 5, m := fld w 8 3, d := flag w 7 })
  else if fld w 8 3 == 0 && fld w 0 7 == 0x11 then
    some (.vext a { xd := fld w 21 5, va := fld w 16 5, xb := fld w 11 5, d := flag w 7 })
  else if fld w 8 3 == 0 && fld w 0 7 == 0x12 then
    some (.vins a { vd := fld w 21 5, xa := fld w 16 5, xb := fld w 11 5, d := flag w 7 })
  else if fld w 0 7 == 0x13 then
    some (.vperm a { vd := fld w 21 5, va := fld w 16 5, vb := fld w 11 5, m := fld w 8 3, d := flag w 7 })
  else if fld w 0 11 == 0x14 then
    some (.vpermb a { vd := fld w 21 5, va := fld w 16 5, vb := fld w 11 5 })
  else if fld w 0 7 == 0x15 then
    some (.vsel a { vd := fld w 21 5, va := fld w 16 5, vb := fld w 11 5, m := fld w 8 3, d := flag w 7 })
  else none

def decodeVF (a : ThreadAt) (w : W32) : Option Instr :=
  if fld w 0 5 == 0 then
    some (.vfadd a { vd := fld w 21 5, va := fld w 16 5, vb := fld w 11 5, m := fld w 8 3, rm := fld w 5 3, d := flag w 26 })
  else if fld w 0 5 == 1 then
    some (.vfsub a { vd := fld w 21 5, va := fld w 16 5, vb := fld w 11 5, m := fld w 8 3, rm := fld w 5 3, d := flag w 26 })
  else if fld w 0 5 == 2 then
    some (.vfmul a { vd := fld w 21 5, va := fld w 16 5, vb := fld w 11 5, m := fld w 8 3, rm := fld w 5 3, d := flag w 26 })
  else if fld w 0 5 == 3 then
    some (.vfdiv a { vd := fld w 21 5, va := fld w 16 5, vb := fld w 11 5, m := fld w 8 3, rm := fld w 5 3, d := flag w 26 })
  else if fld w 11 5 == 0 && fld w 0 5 == 4 then
    some (.vfsqrt a { vd := fld w 21 5, va := fld w 16 5, m := fld w 8 3, rm := fld w 5 3, d := flag w 26 })
  else if fld w 0 8 == 5 then
    some (.vfmin a { vd := fld w 21 5, va := fld w 16 5, vb := fld w 11 5, m := fld w 8 3, d := flag w 26 })
  else if fld w 0 8 == 6 then
    some (.vfmax a { vd := fld w 21 5, va := fld w 16 5, vb := fld w 11 5, m := fld w 8 3, d := flag w 26 })
  else if fld w 0 8 == 7 then
    some (.vfamax a { vd := fld w 21 5, va := fld w 16 5, vb := fld w 11 5, m := fld w 8 3, d := flag w 26 })
  else if fld w 0 8 == 8 then
    some (.vfsgnC a { vd := fld w 21 5, va := fld w 16 5, vb := fld w 11 5, m := fld w 8 3, d := flag w 26 })
  else if fld w 0 8 == 9 then
    some (.vfsgnN a { vd := fld w 21 5, va := fld w 16 5, vb := fld w 11 5, m := fld w 8 3, d := flag w 26 })
  else if fld w 0 8 == 0xa then
    some (.vfsgnX a { vd := fld w 21 5, va := fld w 16 5, vb := fld w 11 5, m := fld w 8 3, d := flag w 26 })
  else if fld w 24 2 == 0 && fld w 0 8 == 0xb then
    some (.vfcmpeq a { md := fld w 21 3, va := fld w 16 5, vb := fld w 11 5, m := fld w 8 3, d := flag w 26 })
  else if fld w 24 2 == 0 && fld w 0 8 == 0xc then
    some (.vfcmplt a { md := fld w 21 3, va := fld w 16 5, vb := fld w 11 5, m := fld w 8 3, d := flag w 26 })
  else if fld w 24 2 == 0 && fld w 0 8 == 0xd then
    some (.vfcmple a { md := fld w 21 3, va := fld w 16 5, vb := fld w 11 5, m := fld w 8 3, d := flag w 26 })
  else if fld w 11 5 == 0 && fld w 0 8 == 0xe then
    some (.vfclass a { vd := fld w 21 5, va := fld w 16 5, m := fld w 8 3, d := flag w 26 })
  else if fld w 11 5 == 0 && fld w 0 8 == 0xf then
    some (.vfrmax a { vd := fld w 21 5, va := fld w 16 5, m := fld w 8 3, d := flag w 26 })
  else if fld w 11 5 == 0 && fld w 0 8 == 0x10 then
    some (.vfrmin a { vd := fld w 21 5, va := fld w 16 5, m := fld w 8 3, d := flag w 26 })
  else if fld w 11 5 == 0 && fld w 0 8 == 0x11 then
    some (.vframax a { vd := fld w 21 5, va := fld w 16 5, m := fld w 8 3, d := flag w 26 })
  else if fld w 11 5 == 0 && fld w 0 5 == 0x12 then
    some (.vfrsum a { vd := fld w 21 5, va := fld w 16 5, m := fld w 8 3, rm := fld w 5 3, d := flag w 26 })
  else none

def decode2C (a : ThreadAt) (w : W32) : Option Instr :=
  if fld w 4 2 == 0 then
    some (.vfmadd a { vd := fld w 21 5, va := fld w 16 5, vb := fld w 11 5, vc := fld w 6 5, d := flag w 3, m := fld w 0 3 })
  else if fld w 4 2 == 1 then
    some (.vfmsub a { vd := fld w 21 5, va := fld w 16 5, vb := fld w 11 5, vc := fld w 6 5, d := flag w 3, m := fld w 0 3 })
  else if fld w 4 2 == 2 then
    some (.vfnmadd a { vd := fld w 21 5, va := fld w 16 5, vb := fld w 11 5, vc := fld w 6 5, d := flag w 3, m := fld w 0 3 })
  else if fld w 4 2 == 3 then
    some (.vfnmsub a { vd := fld w 21 5, va := fld w 16 5, vb := fld w 11 5, vc := fld w 6 5, d := flag w 3, m := fld w 0 3 })
  else none

def decode2D (a : ThreadAt) (w : W32) : Option Instr :=
  if fld w 0 1 == 0 then
    some (.vcvt a { vd := fld w 21 5, va := fld w 16 5, dst := fld w 12 4, src := fld w 8 4, rnd := fld w 5 3, sat := flag w 4, seg := fld w 1 3 })
  else none

def decode2E (a : ThreadAt) (w : W32) : Option Instr :=
  if fld w 0 1 == 0 then
    some (.vmxDown a { vd := fld w 21 5, va := fld w 16 5, rb := fld w 11 5, efmt := fld w 8 3, rnd := fld w 5 3, sat := flag w 4, mxs := fld w 2 2, mxen := flag w 1 })
  else if fld w 0 8 == 1 then
    some (.vmxUp a { vd := fld w 21 5, va := fld w 16 5, rb := fld w 11 5, efmt := fld w 8 3 })
  else none

def decode2F (a : ThreadAt) (w : W32) : Option Instr :=
  if fld w 24 2 == 0 && fld w 19 2 == 0 && fld w 14 2 == 0 && fld w 0 11 == 0 then
    some (.vmand a { md := fld w 21 3, ma := fld w 16 3, mb := fld w 11 3 })
  else if fld w 24 2 == 0 && fld w 19 2 == 0 && fld w 14 2 == 0 && fld w 0 11 == 0x20 then
    some (.vmor a { md := fld w 21 3, ma := fld w 16 3, mb := fld w 11 3 })
  else if fld w 24 2 == 0 && fld w 19 2 == 0 && fld w 14 2 == 0 && fld w 0 11 == 0x40 then
    some (.vmxor a { md := fld w 21 3, ma := fld w 16 3, mb := fld w 11 3 })
  else if fld w 24 2 == 0 && fld w 19 2 == 0 && fld w 14 2 == 0 && fld w 0 11 == 0x60 then
    some (.vmandn a { md := fld w 21 3, ma := fld w 16 3, mb := fld w 11 3 })
  else if fld w 19 2 == 0 && fld w 0 16 == 0x80 then
    some (.vmpopc a { xd := fld w 21 5, ma := fld w 16 3 })
  else if fld w 19 2 == 0 && fld w 0 16 == 0xa0 then
    some (.vmfirst a { xd := fld w 21 5, ma := fld w 16 3 })
  else if fld w 24 2 == 0 && fld w 0 16 == 0xc0 then
    some (.vmfx a { md := fld w 21 3, xa := fld w 16 5 })
  else if fld w 19 2 == 0 && fld w 0 16 == 0xe0 then
    some (.vmtx a { xd := fld w 21 5, ma := fld w 16 3 })
  else if fld w 2 19 == 0x40 then
    some (.vmxr a { vd := fld w 21 5, mx := fld w 0 2 })
  else if fld w 21 5 == 0 && fld w 2 14 == 0x48 then
    some (.vmxw a { va := fld w 16 5, mx := fld w 0 2 })
  else if fld w 16 5 == 0 && fld w 3 8 == 0x28 then
    some (.vmxs a { vd := fld w 21 5, h := fld w 14 2, efmt := fld w 11 3, reset := flag w 2, mx := fld w 0 2 })
  else if fld w 0 11 == 0x160 then
    some (.vcrc64 a { xd := fld w 21 5, va := fld w 16 5, xb := fld w 11 5 })
  else none

def decode30 (a : ThreadAt) (w : W32) : Option Instr :=
  some (.tld a { tgt := fld w 22 4, ra := fld w 17 5, rb := fld w 12 5, lay := fld w 10 2, fmt := fld w 6 4, nrow1 := fld w 1 5, resume := flag w 0 })

def decode31 (a : ThreadAt) (w : W32) : Option Instr :=
  if fld w 6 6 == 0 && fld w 0 1 == 0 then
    some (.tst a { src := fld w 22 4, ra := fld w 17 5, rb := fld w 12 5, nrow1 := fld w 1 5 })
  else none

def decode32 (a : ThreadAt) (w : W32) : Option Instr :=
  if fld w 24 2 == 0 && fld w 2 10 == 0 && fld w 0 1 == 0 then
    some (.tlds a { sc := fld w 22 2, ra := fld w 17 5, rb := fld w 12 5, resume := flag w 1 })
  else if fld w 24 2 == 0 && fld w 0 12 == 0x100 then
    some (.tsts a { sc := fld w 22 2, ra := fld w 17 5, rb := fld w 12 5 })
  else if fld w 24 2 == 0 && fld w 0 12 == 0x200 then
    some (.tscw a { sc := fld w 22 2, va := fld w 17 5, rb := fld w 12 5 })
  else if fld w 24 2 == 0 && fld w 0 17 == 0x300 then
    some (.tscf a { sc := fld w 22 2, ra := fld w 17 5 })
  else if fld w 25 1 == 0 && fld w 8 4 == 4 && fld w 0 2 == 0 then
    some (.twr a { td := fld w 22 3, va := fld w 17 5, rb := fld w 12 5, fmt := fld w 4 4, lay := fld w 2 2 })
  else if fld w 25 1 == 0 && fld w 0 12 == 0x500 then
    some (.trd a { ts := fld w 22 3, vd := fld w 17 5, rb := fld w 12 5 })
  else if fld w 25 1 == 0 && fld w 4 18 == 0x60 && fld w 0 2 == 0 then
    some (.trl a { td := fld w 22 3, lay := fld w 2 2 })
  else if fld w 25 1 == 0 && fld w 8 14 == 7 && fld w 0 2 == 0 then
    some (.tz a { td := fld w 22 3, fmt := fld w 4 4, lay := fld w 2 2 })
  else none

def decode33 (a : ThreadAt) (w : W32) : Option Instr :=
  if fld w 0 7 == 0 then
    some (.mma a { acd := fld w 24 2, ta := fld w 21 3, tb := fld w 18 3, sa := fld w 16 2, sb := fld w 14 2, fmt := fld w 10 4, mx := flag w 9, zero := flag w 8, chk := flag w 7 })
  else none

def decode34 (a : ThreadAt) (w : W32) : Option Instr :=
  if fld w 0 24 == 0 then
    some (.azero a { acd := fld w 24 2 })
  else if fld w 0 22 == 0x40 then
    some (.acopy a { acd := fld w 24 2, acs := fld w 22 2 })
  else if fld w 0 22 == 0x80 then
    some (.amax a { acd := fld w 24 2, acs := fld w 22 2 })
  else if fld w 0 22 == 0xc0 then
    some (.amin a { acd := fld w 24 2, acs := fld w 22 2 })
  else if fld w 24 2 == 0 && fld w 0 12 == 0x100 then
    some (.ard a { acs := fld w 22 2, vd := fld w 17 5, rb := fld w 12 5 })
  else if fld w 22 2 == 0 && fld w 0 12 == 0x140 then
    some (.awr a { acd := fld w 24 2, va := fld w 17 5, rb := fld w 12 5 })
  else if fld w 24 2 == 0 && fld w 0 17 == 0x180 then
    some (.armax a { acs := fld w 22 2, vd := fld w 17 5 })
  else if fld w 24 2 == 0 && fld w 0 17 == 0x1c0 then
    some (.armin a { acs := fld w 22 2, vd := fld w 17 5 })
  else if fld w 22 2 == 0 && fld w 0 17 == 0x200 then
    some (.ascr a { acd := fld w 24 2, va := fld w 17 5 })
  else if fld w 22 2 == 0 && fld w 0 17 == 0x240 then
    some (.asubr a { acd := fld w 24 2, va := fld w 17 5 })
  else none

def decode36 (a : ThreadAt) (w : W32) : Option Instr :=
  if fld w 12 4 == 0 then
    some (.lde a { r := fld w 21 5, ra := fld w 16 5, sz := fld w 10 2, off := fld w 0 10 })
  else if fld w 12 4 == 1 then
    some (.ldk a { r := fld w 21 5, ra := fld w 16 5, sz := fld w 10 2, off := fld w 0 10 })
  else if fld w 12 4 == 2 then
    some (.stf a { r := fld w 21 5, ra := fld w 16 5, sz := fld w 10 2, off := fld w 0 10 })
  else if fld w 12 4 == 3 then
    some (.stp a { r := fld w 21 5, ra := fld w 16 5, sz := fld w 10 2, off := fld w 0 10 })
  else none

def decode37 (a : ThreadAt) (w : W32) : Option Instr :=
  if fld w 0 16 == 0 then
    some (.tprobe a { rd := fld w 21 5, ra := fld w 16 5 })
  else if fld w 21 5 == 0 && fld w 0 11 == 0x40 then
    some (.tsete a { ra := fld w 16 5, rb := fld w 11 5 })
  else if fld w 21 5 == 0 && fld w 0 11 == 0x80 then
    some (.tsetf a { ra := fld w 16 5, rb := fld w 11 5 })
  else if fld w 21 5 == 0 && fld w 0 11 == 0xc0 then
    some (.szero a { ra := fld w 16 5, rb := fld w 11 5 })
  else none

def decode38 (a : ThreadAt) (w : W32) : Option Instr :=
  if fld w 0 16 == 0 then
    some (.ldvD a { rd := fld w 21 5, ra := fld w 16 5 })
  else if fld w 0 16 == 0x40 then
    some (.ldvW a { rd := fld w 21 5, ra := fld w 16 5 })
  else if fld w 0 16 == 0x80 then
    some (.ldvL a { rd := fld w 21 5, ra := fld w 16 5 })
  else if fld w 21 5 == 0 && fld w 0 11 == 0x200 then
    some (.winv a { ra := fld w 16 5, rb := fld w 11 5 })
  else if fld w 0 11 == 0x400 then
    some (.amoAdd a { rd := fld w 21 5, ra := fld w 16 5, rb := fld w 11 5 })
  else if fld w 0 11 == 0x440 then
    some (.amoAnd a { rd := fld w 21 5, ra := fld w 16 5, rb := fld w 11 5 })
  else if fld w 0 11 == 0x480 then
    some (.amoOr a { rd := fld w 21 5, ra := fld w 16 5, rb := fld w 11 5 })
  else if fld w 0 11 == 0x4c0 then
    some (.amoXor a { rd := fld w 21 5, ra := fld w 16 5, rb := fld w 11 5 })
  else if fld w 0 11 == 0x500 then
    some (.amoMin a { rd := fld w 21 5, ra := fld w 16 5, rb := fld w 11 5 })
  else if fld w 0 11 == 0x540 then
    some (.amoMax a { rd := fld w 21 5, ra := fld w 16 5, rb := fld w 11 5 })
  else if fld w 0 11 == 0x580 then
    some (.amoMinu a { rd := fld w 21 5, ra := fld w 16 5, rb := fld w 11 5 })
  else if fld w 0 11 == 0x5c0 then
    some (.amoMaxu a { rd := fld w 21 5, ra := fld w 16 5, rb := fld w 11 5 })
  else if fld w 0 11 == 0x600 then
    some (.amoSwap a { rd := fld w 21 5, ra := fld w 16 5, rb := fld w 11 5 })
  else if fld w 0 11 == 0x640 then
    some (.amoCas a { rd := fld w 21 5, ra := fld w 16 5, rb := fld w 11 5 })
  else none

def decode39 (a : ThreadAt) (w : W32) : Option Instr :=
  if fld w 0 4 == 0 then
    some (.send a { rd := fld w 21 5, ra := fld w 16 5, rb := fld w 11 5, rc := fld w 6 5, cls := fld w 4 2 })
  else none

def decode3A (a : ThreadAt) (w : W32) : Option Instr :=
  if fld w 6 15 == 0 && fld w 0 3 == 0 then
    some (.dispatch a { rd := fld w 21 5, cmask := fld w 3 3 })
  else if fld w 21 5 == 0 && fld w 0 16 == 0x40 then
    some (.qdone a { ra := fld w 16 5 })
  else if fld w 0 21 == 0x80 then
    some (.qstat a { rd := fld w 21 5 })
  else if fld w 0 16 == 0xc0 then
    some (.hent a { rd := fld w 21 5, ra := fld w 16 5 })
  else if fld w 0 21 == 0x100 then
    some (.sndstat a { rd := fld w 21 5 })
  else none

/-- The instruction that a word spells, before the checks of R66 on its enumerated fields. -/
def decodeRaw (a : ThreadAt) (w : W32) : Option Instr :=
  match (fld w 26 6).toNat with
  | 0x01 => decode01 a w
  | 0x02 => decode02 a w
  | 0x03 => decode03 a w
  | 0x04 => decode04 a w
  | 0x05 => decode05 a w
  | 0x06 => decode06 a w
  | 0x07 => decode07 a w
  | 0x08 => decode08 a w
  | 0x09 => decode09 a w
  | 0x0B => decode0B a w
  | 0x0C => decode0C a w
  | 0x0D => decode0D a w
  | 0x0E => decode0E a w
  | 0x0F => decode0F a w
  | 0x10 => decode10 a w
  | 0x11 => decode11 a w
  | 0x12 => decode12 a w
  | 0x13 => decode13 a w
  | 0x14 => decode14 a w
  | 0x15 => decode15 a w
  | 0x16 => decode16 a w
  | 0x17 => decode17 a w
  | 0x18 => decode18 a w
  | 0x19 => decode19 a w
  | 0x1A => decode1A a w
  | 0x1B => decode1B a w
  | 0x1C => decode1C a w
  | 0x1D => decode1D a w
  | 0x1E => decode1E a w
  | 0x1F => decode1F a w
  | 0x20 => decode20 a w
  | 0x21 => decode21 a w
  | 0x22 => decode22 a w
  | 0x23 => decode23 a w
  | 0x24 => decode24 a w
  | 0x25 => decode25 a w
  | 0x3F => decode3F a w
  | 0x28 => decode28 a w
  | 0x29 => decode29 a w
  | 0x2A | 0x2B => decodeVF a w
  | 0x2C => decode2C a w
  | 0x2D => decode2D a w
  | 0x2E => decode2E a w
  | 0x2F => decode2F a w
  | 0x30 => decode30 a w
  | 0x31 => decode31 a w
  | 0x32 => decode32 a w
  | 0x33 => decode33 a w
  | 0x34 => decode34 a w
  | 0x36 => decode36 a w
  | 0x37 => decode37 a w
  | 0x38 => decode38 a w
  | 0x39 => decode39 a w
  | 0x3A => decode3A a w
  | _ => none

/-- The instruction that a word spells; none where the word is malformed (R66). -/
def decodeWord (a : ThreadAt) (w : W32) : Option Instr := (decodeRaw a w).filter Instr.wf

/-- The command that a word of the opcode table spells.  The table gives its rows no bits, so no word
spells one. Log entry 4 (DESIGN CHOICE). -/
def decodeTableWord (_nbits _w : Nat) : Option Instr := none

end Sys2Proof
end

