-- ==== Sys2Proof/Machine/Bits.lean ====
section
/-! DEFINITION. Bytes, fields and sparse tables: byte order (R7), bit fields (R4), sign extension,
and the two list forms that stand for tables and for memory. -/

namespace Sys2Proof

/-! ## Numbers and bytes -/

/-- Bits [hi:lo] of a number (R4). -/
def bits (v lo w : Nat) : Nat := (v >>> lo) % 2 ^ w

/-- Bit n of a number (R4). -/
def bitAt (v n : Nat) : Bool := v.testBit n

/-- The number that bytes spell, least significant byte first (R7). -/
def leNat : List Byte → Nat
  | [] => 0
  | b :: r => b.toNat + 256 * leNat r

/-- The n bytes of a number, least significant byte first (R7). -/
def leBytes : Nat → Nat → List Byte
  | 0, _ => []
  | n + 1, v => BitVec.ofNat 8 v :: leBytes n (v / 256)

/-- n bytes of a list from offset o; bytes past the end read zero. -/
def slice (l : List Byte) (o n : Nat) : List Byte :=
  let t := (l.drop o).take n
  t ++ List.replicate (n - t.length) 0

/-- The number in n bytes at offset o. -/
def field (l : List Byte) (o n : Nat) : Nat := leNat (slice l o n)

/-- Every byte of a range is zero (R8). -/
def zeroBytes (l : List Byte) (o n : Nat) : Bool := (slice l o n).all (· == 0)

/-- Put bytes into a list at offset o, padding with zero bytes up to it. -/
def putBytes (l : List Byte) (o : Nat) (b : List Byte) : List Byte :=
  l.take o ++ List.replicate (o - l.length) 0 ++ b ++ l.drop (o + b.length)

/-- Signed value of the low w bits of a number. -/
def toSigned (w v : Nat) : Int :=
  let u := v % 2 ^ w
  if u < 2 ^ (w - 1) then (u : Int) else (u : Int) - 2 ^ w

/-- The low w bits of an integer, as a number. -/
def ofSigned (w : Nat) (i : Int) : Nat := (i % (2 ^ w : Int)).toNat

def lineBytes (l : Line) : List Byte := leBytes 64 l.toNat
def bytesLine (b : List Byte) : Line := BitVec.ofNat 512 (leNat b)

/-- Number of ones. -/
def popCount (w v : Nat) : Nat := ((List.range w).filter v.testBit).length

/-- Index of the lowest set bit below w, or w. -/
def lowestSet (w v : Nat) : Nat := ((List.range w).find? v.testBit).getD w

/-- Leading zeros of a w bit value. -/
def leadZeros (w v : Nat) : Nat := ((List.range w).find? fun i => v.testBit (w - 1 - i)).getD w

/-! ## Sparse tables -/

/-- The entry of key k, if it is listed. -/
def Tab.find {α : Type} : Tab α → Nat → Option α
  | [], _ => none
  | (j, v) :: r, k => if j = k then some v else Tab.find r k

/-- The entry of key k, or a default. -/
def Tab.at {α : Type} (t : Tab α) (k : Nat) (d : α) : α := (Tab.find t k).getD d

/-- Set the entry of key k; a table with rising keys keeps them rising. -/
def Tab.put {α : Type} : Tab α → Nat → α → Tab α
  | [], k, v => [(k, v)]
  | (j, u) :: r, k, v =>
    if k < j then (k, v) :: (j, u) :: r else if j = k then (k, v) :: r else (j, u) :: Tab.put r k v

/-- Drop every entry of key k. -/
def Tab.del {α : Type} (t : Tab α) (k : Nat) : Tab α := List.filter (fun e => e.1 != k) t

/-! ## Byte memories

A memory is a list of cells with addresses strictly rising and no zero byte; an address that is not
listed reads as zero. -/

/-- The canonical form of a memory. Log entry 2 (DESIGN CHOICE). -/
def Mem.wf : List (Nat × Byte) → Bool
  | [] => true
  | [(_, v)] => v != 0
  | (a, v) :: (b, w) :: r => v != 0 && decide (a < b) && Mem.wf ((b, w) :: r)

/-- The byte at an address. Log entry 2 (DESIGN CHOICE). -/
def Mem.read : List (Nat × Byte) → Nat → Byte
  | [], _ => 0
  | (a, v) :: r, k => if k = a then v else Mem.read r k

/-- Write one byte, keeping the canonical form: a zero byte is not listed. Log entry 2 (DESIGN CHOICE). -/
def Mem.write (m : List (Nat × Byte)) (k : Nat) (b : Byte) : List (Nat × Byte) :=
  if b = 0 then Tab.del m k else Tab.put m k b

/-- n bytes from an address up. -/
def Mem.readN (m : List (Nat × Byte)) (k : Nat) : Nat → List Byte
  | 0 => []
  | n + 1 => Mem.read m k :: Mem.readN m (k + 1) n

/-- Write bytes from an address up. -/
def Mem.writeN (m : List (Nat × Byte)) : Nat → List Byte → List (Nat × Byte)
  | _, [] => m
  | k, b :: r => Mem.writeN (Mem.write m k b) (k + 1) r

/-- Drop every cell of a range: the range reads zero. -/
def Mem.clear (m : List (Nat × Byte)) (lo n : Nat) : List (Nat × Byte) :=
  m.filter fun c => c.1 < lo || lo + n ≤ c.1

/-- The 64 B line that holds an address. -/
def Mem.line (m : List (Nat × Byte)) (k : Nat) : Line := bytesLine (Mem.readN m (k / 64 * 64) 64)

end Sys2Proof
end

