-- ==== Sys2Proof/Machine/Crypto.lean ====
section
/-! DEFINITION. The standard functions that links and admission name: SHA-384 (FIPS 180-4), HMAC and
HKDF (RFC 5869), AES-256-GCM, ECDSA and ECDH on P-384, and the CRC-32C of R256 and R331. -/

namespace Sys2Proof.Machine

/-! ## CRC-32C (R256) -/

def crcBits (poly : Nat) : Nat → Nat → Nat
  | 0, c => c
  | n + 1, c => crcBits poly n (if c % 2 = 1 then (c / 2) ^^^ poly else c / 2)

/-- CRC-32C in reflected form: initial value all ones, final inversion. -/
def crc32c (b : List Byte) : Nat :=
  (b.foldl (fun c x => crcBits 0x82F63B78 8 (c ^^^ x.toNat)) 0xFFFFFFFF) ^^^ 0xFFFFFFFF

/-! ## Most significant byte first -/

def beNat (b : List Byte) : Nat := b.foldl (fun n x => 256 * n + x.toNat) 0
def beBytes (n v : Nat) : List Byte := (leBytes n v).reverse

/-! ## SHA-384 -/

/-- The greatest r of n bits above r0 whose k-th power is at most x. -/
def rootBits (k x : Nat) : Nat → Nat → Nat
  | 0, r => r
  | n + 1, r => rootBits k x n (if (r + 2 ^ n) ^ k ≤ x then r + 2 ^ n else r)

/-- The first 64 bits of the fractional part of the k-th root of p, where FIPS 180-4 takes its constants. -/
def rootFrac (k p : Nat) : W64 := BitVec.ofNat 64 (rootBits k (p * 2 ^ (64 * k)) 72 0)

/-- The first 80 primes. -/
def shaPrimes : List Nat := (List.range 410).filter fun n => 2 ≤ n && (List.range 21).all fun d => d < 2 || n ≤ d || n % d ≠ 0

/-- One constant for each round: cube roots. -/
def shaK : List W64 := shaPrimes.map (rootFrac 3)

/-- The initial hash of SHA-384: square roots of the ninth to the sixteenth prime. -/
def sha384Init : List W64 := ((shaPrimes.drop 8).take 8).map (rootFrac 2)

/-- The exclusive or of a word turned right by each of the counts. -/
def turned (x : W64) (l : List Nat) : W64 := l.foldl (fun y n => y ^^^ x.rotateRight n) 0

/-- The message schedule, newest word first. -/
def shaExpand : Nat → List W64 → List W64
  | 0, r => r
  | n + 1, r =>
    let back (i : Nat) : W64 := r.getD (i - 1) 0
    let near := turned (back 2) [19, 61] ^^^ (back 2 >>> 6)
    let far := turned (back 15) [1, 8] ^^^ (back 15 >>> 7)
    shaExpand n ((back 16 + far + back 7 + near) :: r)

/-- The eight working words of a hash. -/
structure ShaWords where
  a : W64
  b : W64
  c : W64
  d : W64
  e : W64
  f : W64
  g : W64
  h : W64

def ShaWords.ofList (l : List W64) : ShaWords :=
  { a := l.getD 0 0, b := l.getD 1 0, c := l.getD 2 0, d := l.getD 3 0
    e := l.getD 4 0, f := l.getD 5 0, g := l.getD 6 0, h := l.getD 7 0 }

def ShaWords.toList (v : ShaWords) : List W64 := [v.a, v.b, v.c, v.d, v.e, v.f, v.g, v.h]

/-- One round: the words move one place on, under a round constant and a word of the schedule. -/
def ShaWords.round (v : ShaWords) (kw : W64 × W64) : ShaWords :=
  let choose := v.g ^^^ (v.e &&& (v.f ^^^ v.g))
  let most := (v.a &&& (v.b ||| v.c)) ||| (v.b &&& v.c)
  let t := kw.1 + kw.2 + v.h + choose + turned v.e [14, 18, 41]
  { a := t + most + turned v.a [28, 34, 39], b := v.a, c := v.b, d := v.c, e := v.d + t, f := v.e, g := v.f, h := v.g }

def shaBlock (h : List W64) (blk : List Byte) : List W64 :=
  let w := (List.range 16).map fun i => BitVec.ofNat 64 (beNat (slice blk (8 * i) 8))
  let sched := (shaExpand 64 w.reverse).reverse
  List.zipWith (· + ·) h ((List.zip shaK sched).foldl ShaWords.round (ShaWords.ofList h)).toList

/-- Blocks of 128 B from a padded message. -/
def shaBlocks : Nat → List W64 → List Byte → List W64
  | 0, h, _ => h
  | n + 1, h, b => shaBlocks n (shaBlock h (b.take 128)) (b.drop 128)

/-- Log entry 74 (DEDUCED). -/
def sha384 (m : List Byte) : List Byte :=
  let z := (239 - m.length % 128) % 128
  let p := m ++ [(0x80 : Byte)] ++ List.replicate z 0 ++ beBytes 16 (8 * m.length)
  ((shaBlocks (p.length / 128) sha384Init p).take 6).flatMap fun w => beBytes 8 w.toNat

/-- HMAC-SHA-384. -/
def hmac (key msg : List Byte) : List Byte :=
  let k := slice (if 128 < key.length then sha384 key else key) 0 128
  sha384 (k.map (· ^^^ 0x5C) ++ sha384 (k.map (· ^^^ 0x36) ++ msg))

/-- HKDF-SHA-384 of one output block: n at most 48 bytes. Log entry 74 (DEDUCED). -/
def hkdf (salt ikm info : List Byte) (n : Nat) : List Byte := (hmac (hmac salt ikm) (info ++ [1])).take n

/-- The bytes of a string's characters. -/
def asciiBytes (t : String) : List Byte := t.toList.map fun c => BitVec.ofNat 8 c.toNat

/-! ## AES-256 and GCM -/

/-- Multiplication by x in the field of AES. -/
def xtime (a : Byte) : Byte := if a.msb then (a <<< 1) ^^^ 0x1B else a <<< 1
def gfMul8 : Nat → Byte → Byte → Byte
  | 0, _, _ => 0
  | n + 1, a, b => (if b.getLsbD 0 then a else 0) ^^^ gfMul8 n (xtime a) (b >>> 1)
def gmul (a b : Byte) : Byte := gfMul8 8 a b
def gpow : Nat → Byte → Byte
  | 0, _ => 1
  | n + 1, a => gmul a (gpow n a)
/-- The S-box: the inverse, then the affine map. -/
def sbox (a : Byte) : Byte :=
  let i := gpow 254 a
  i ^^^ i.rotateLeft 1 ^^^ i.rotateLeft 2 ^^^ i.rotateLeft 3 ^^^ i.rotateLeft 4 ^^^ 0x63
def sboxTable : List Byte := (List.range 256).map fun n => sbox (BitVec.ofNat 8 n)

def xorB (a b : List Byte) : List Byte := List.zipWith (· ^^^ ·) a b

/-- Round keys as words, newest first. -/
def aesExpand (sb : List Byte) : Nat → Nat → Byte → List (List Byte) → List (List Byte)
  | 0, _, _, r => r
  | n + 1, i, rc, r =>
    let t := r.getD 0 []
    let u := if i % 8 = 0 then
        xorB (((t.drop 1) ++ t.take 1).map fun b => sb.getD b.toNat 0) [rc, 0, 0, 0]
      else if i % 8 = 4 then t.map fun b => sb.getD b.toNat 0 else t
    aesExpand sb n (i + 1) (if i % 8 = 0 then xtime rc else rc) (xorB (r.getD 7 []) u :: r)

def aesKeys (sb key : List Byte) : List (List Byte) :=
  let w := (List.range 8).map fun i => slice key (4 * i) 4
  let all := (aesExpand sb 52 8 1 w.reverse).reverse
  (List.range 15).map fun r => ((all.drop (4 * r)).take 4).flatten

def shiftRows (b : List Byte) : List Byte :=
  (List.range 16).map fun i => b.getD ((i % 4) + 4 * ((i / 4 + i % 4) % 4)) 0
def mixColumns (b : List Byte) : List Byte :=
  (List.range 16).map fun i =>
    let c := 4 * (i / 4)
    let x (j : Nat) : Byte := b.getD (c + (i + j) % 4) 0
    gmul 2 (x 0) ^^^ gmul 3 (x 1) ^^^ x 2 ^^^ x 3

/-- One block under AES-256. -/
def aesBlock (sb : List Byte) (keys : List (List Byte)) (b : List Byte) : List Byte :=
  let s0 := xorB b (keys.getD 0 [])
  let mid := ((keys.drop 1).take 13).foldl (fun s k =>
    xorB (mixColumns (shiftRows (s.map fun x => sb.getD x.toNat 0))) k) s0
  xorB (shiftRows (mid.map fun x => sb.getD x.toNat 0)) (keys.getD 14 [])

/-- Multiplication in the field of GHASH, blocks as numbers with the first bit most significant. -/
def ghashMul : Nat → Nat → Nat → Nat → Nat
  | 0, _, _, z => z
  | n + 1, x, v, z =>
    ghashMul n x (if v % 2 = 1 then (v / 2) ^^^ (0xE1 <<< 120) else v / 2) (if x.testBit n then z ^^^ v else z)

def ghash (h : Nat) : Nat → Nat → List Byte → Nat
  | 0, y, _ => y
  | n + 1, y, b => ghash h n (ghashMul 128 (y ^^^ beNat (slice b 0 16)) h 0) (b.drop 16)

def padTo16 (b : List Byte) : List Byte := b ++ List.replicate ((16 - b.length % 16) % 16) 0

/-- The key stream of counter mode from counter 2 on, over data. -/
def gcmStream (sb : List Byte) (keys : List (List Byte)) (nonce : List Byte) (data : List Byte) : List Byte :=
  let ks := (List.range ((data.length + 15) / 16)).flatMap fun i => aesBlock sb keys (nonce ++ beBytes 4 (i + 2))
  xorB data ks

def gcmTag (sb : List Byte) (keys : List (List Byte)) (nonce aad ct : List Byte) : List Byte :=
  let h := beNat (aesBlock sb keys (List.replicate 16 0))
  let d := padTo16 aad ++ padTo16 ct ++ beBytes 8 (8 * aad.length) ++ beBytes 8 (8 * ct.length)
  xorB (beBytes 16 (ghash h (d.length / 16) 0 d)) (aesBlock sb keys (nonce ++ [0, 0, 0, 1]))

/-- AES-256-GCM: ciphertext and tag. Log entry 74 (DEDUCED). -/
def gcmSeal (key nonce aad pt : List Byte) : List Byte × List Byte :=
  let sb := sboxTable
  let keys := aesKeys sb key
  let ct := gcmStream sb keys nonce pt
  (ct, gcmTag sb keys nonce aad ct)

/-- The plaintext, if the tag verifies. Log entry 74 (DEDUCED). -/
def gcmOpen (key nonce aad ct tag : List Byte) : Option (List Byte) :=
  let sb := sboxTable
  let keys := aesKeys sb key
  if gcmTag sb keys nonce aad ct = tag then some (gcmStream sb keys nonce ct) else none

/-! ## P-384 -/

def p384 : Nat := 2 ^ 384 - 2 ^ 128 - 2 ^ 96 + 2 ^ 32 - 1
def p384Order : Nat := 0xffffffffffffffffffffffffffffffffffffffffffffffffc7634d81f4372ddf581a0db248b0a77aecec196accc52973
def p384B : Nat := 0xb3312fa7e23ee7e4988e056be3f82d19181d9c6efe8141120314088f5013875ac656398d8a2ed19d2a85c8edd3ec2aef
def p384G : Nat × Nat :=
  (0xaa87ca22be8b05378eb1c71ef320ad746e1d3b628ba79b9859f741e082542a385502f25dbf55296c3a545e3872760ab7,
   0x3617de4a96262c6f5d9e98bf9292dc29f8f41dbd289a147ce9da3113b5f0b8c00a60b1ce1d7e819d7a431d7c90ea0e5f)

def powMod (m : Nat) : Nat → Nat → Nat → Nat
  | 0, _, _ => 1
  | n + 1, a, e => (if e % 2 = 1 then a else 1) * powMod m n (a * a % m) (e / 2) % m
def invMod (m a : Nat) : Nat := powMod m 400 (a % m) (m - 2)
def subMod (m a b : Nat) : Nat := (a + m - b % m) % m

/-- Addition on the curve; none is the point at infinity. -/
def ecAdd : Option (Nat × Nat) → Option (Nat × Nat) → Option (Nat × Nat)
  | none, q => q
  | p, none => p
  | some (x1, y1), some (x2, y2) =>
    if x1 = x2 && (y1 + y2) % p384 = 0 then none
    else
      let l := if x1 = x2 then (3 * x1 * x1 + p384 - 3) * invMod p384 (2 * y1) % p384
        else subMod p384 y2 y1 * invMod p384 (subMod p384 x2 x1) % p384
      let x3 := subMod p384 (l * l) (x1 + x2)
      some (x3, subMod p384 (l * subMod p384 x1 x3) y1)

def ecMulAux : Nat → Nat → Option (Nat × Nat) → Option (Nat × Nat) → Option (Nat × Nat)
  | 0, _, _, acc => acc
  | n + 1, k, p, acc => ecMulAux n (k / 2) (ecAdd p p) (if k % 2 = 1 then ecAdd acc p else acc)
def ecMul (k : Nat) (p : Nat × Nat) : Option (Nat × Nat) := ecMulAux 384 k (some p) none

/-- The point that 97 B spell in SEC 1 uncompressed form, if it lies on the curve (R287). -/
def pointOf (b : List Byte) : Option (Nat × Nat) :=
  let x := beNat (slice b 1 48)
  let y := beNat (slice b 49 48)
  if b.headD 0 = 4 && decide (x < p384) && decide (y < p384) &&
      decide (y * y % p384 = (x * x % p384 * x + subMod p384 p384B (3 * x)) % p384) then some (x, y) else none
def pointBytes (p : Nat × Nat) : List Byte := [4] ++ beBytes 48 p.1 ++ beBytes 48 p.2

/-- ECDSA P-384 over SHA-384: the signature verifies under the public key. Log entry 74 (DEDUCED). -/
def ecdsaVerify (pub msg sig : List Byte) : Bool :=
  let r := beNat (slice sig 0 48)
  let t := beNat (slice sig 48 48)
  match pointOf pub with
  | none => false
  | some q =>
    if r = 0 || t = 0 || p384Order ≤ r || p384Order ≤ t then false
    else
      let w := invMod p384Order t
      let e := beNat (sha384 msg)
      match ecAdd (ecMul (e * w % p384Order) p384G) (ecMul (r * w % p384Order) q) with
      | none => false
      | some (x, _) => x % p384Order == r

/-- ECDSA P-384 with private key d and per-signature number k. Log entry 74 (DEDUCED). -/
def ecdsaSign (d k : Nat) (msg : List Byte) : List Byte :=
  let e := beNat (sha384 msg)
  let r := ((ecMul k p384G).map (·.1)).getD 0 % p384Order
  beBytes 48 r ++ beBytes 48 (invMod p384Order k * (e + r * d) % p384Order)

/-- The public key of a private key. -/
def publicKey (d : Nat) : List Byte := pointBytes ((ecMul d p384G).getD (0, 0))

/-- The x-coordinate of the ECDH product (R289). Log entry 74 (DEDUCED). -/
def ecdh (d : Nat) (pub : List Byte) : List Byte :=
  beBytes 48 ((((pointOf pub).bind fun q => ecMul d q).map (·.1)).getD 0)

end Sys2Proof.Machine
end

