-- ==== Sys2Proof/Config.lean ====
section
/-! DEFINITION. What an implementation fixes and the values that the spec leaves open: constants
without a body, so that no proof can lean on a value of them. -/

namespace Sys2Proof.Config

/-- Flits that one ring lane buffer holds for one class and channel: at least 2 (R189). Log entry 10 (DESIGN CHOICE). -/
def ringBufDepth : Nat := 2

/-- A scale code that the spec does not state: VMXS of a lane that holds a NaN, -0 or a negative normal
value (R103 gives none).  The argument is the model's counter of free values. Log entry 9 (DESIGN CHOICE). -/
opaque freeScale : Nat → Byte

/-- The private identity key that the key store holds, sealed at manufacture (R284). Log entry 9 (DESIGN CHOICE). -/
opaque identityKey : Nat

/-- The subject_id, 16 B, and the serial and build date that the module's identity memory holds (R284, Table 18-3).
Log entry 9 (DESIGN CHOICE). -/
opaque subjectId : List (BitVec 8)
opaque moduleRecord : List (BitVec 8)

/-- The release key that every key store holds (Table 15-1): a point of the curve, SEC 1 uncompressed.
Log entry 9 (DESIGN CHOICE). -/
opaque releaseKey : List Byte

/-- What the key store's random bit generator draws (R284): no output is foretold.  The argument is the model's
counter of free values. Log entry 9 (DESIGN CHOICE). -/
opaque random : Nat → Nat

/-- What the servo makes of an accepted exchange (R47 bounds it and gives no law): the frequency estimate and the
size of the offset slew.  The argument is the model's counter of free values. Log entry 9 (DESIGN CHOICE). -/
opaque servoFreq : Nat → Int
/-- Log entry 9 (DESIGN CHOICE). -/
opaque servoSlew : Nat → Nat

/-- send_seq of a notice: no thread sends it (R378 gives none).  The argument is the model's counter of free values.
Log entry 9 (DESIGN CHOICE). -/
opaque noticeSeq : Nat → BitVec 32

/-- A warden's milliseconds since the latest STATE_SUMMARY (R418). Log entry 9 (DESIGN CHOICE). -/
opaque wardenMs : Nat → Nat

/-- Log codes of a reclose (R402) and of a failed activation (Corner 18.8): Table 18-14 numbers neither.
Log entry 9 (DESIGN CHOICE). -/
opaque recloseCode : Nat
/-- Log entry 9 (DESIGN CHOICE). -/
opaque activationCode : Nat

/-- A bay channel's current in 0.01 A (Table 18-15: measured).  The argument is the model's counter of free values.
Log entry 9 (DESIGN CHOICE). -/
opaque bayCurrent : Nat → BitVec 16

/-- The rootstock's medium bit of a link of a bay's module (R409): another module's rootstock.
Log entry 9 (DESIGN CHOICE). -/
opaque bayMedium : Nat → Nat → Bool

/-- What the debug window shows of a register that each thread has its own of, where no thread reads: STRM_ARG0,
STRM_ARG1, STRM_RESP, STRM_STAT, EV_SEL and LNK_SEL (R179 names no thread).  The argument counts free values and names
the register. Log entry 9 (DESIGN CHOICE). -/
opaque windowReg : Nat → Nat

/-- The bay in which the modelled module sits. Log entry 10 (DESIGN CHOICE). -/
def ownBay : Nat := 0

/-- Where in the relocation area of a stack a line of a channel is copied to: of stack, channel and line index (R225).
Log entry 52 (DESIGN CHOICE). -/
opaque relocPlace : Nat → Nat → Nat → Nat

end Sys2Proof.Config
end

