-- ==== Sys2Proof/Machine/State.lean ====
section
/-! DEFINITION. The state of the block as plain data, the reasons a step can stop, and State.reset. -/

namespace Sys2Proof.Machine

/-- Reasons a step stops with a fault.  The spec gives every command of the table an effect, so no
meaning raises one today; the constructor names the only stop the spec could force: an access to an
element that does not exist.  Safe: a stop proves nothing about the machine. -/
inductive Fault where
  /-- Raised by no meaning; kept so that the type names what such a stop would say.  Safe. -/
  | noSuchElement (what : String)
  deriving DecidableEq, Repr

/-- Reasons a command is refused. -/
inductive Refusal where
  /-- Raised by the arms of exec whose command has no meaning yet, naming its mnemonic.  Safe. -/
  | notModelled (mnemonic : String)
  deriving DecidableEq, Repr

/-! ## Event registers (Table 14-4) -/

/-- An event register: count, pending flag, clear misses (R322). -/
structure EvReg where
  count : BitVec 31 := 0
  pending : Bool := false
  miss : BitVec 16 := 0
  deriving DecidableEq, Repr

/-! ## Pace and chip time (chapter 2) -/

/-- The latest LINK_ANNOUNCE of a partner (R46). -/
structure Announce where
  rootIndex : Nat
  rootNode : Nat
  syncState : Nat
  stratum : Nat
  deriving DecidableEq, Repr

/-- The exchange that waits for its SYNC_RESP (R44): sequence number and t1 in 0.25 ns units. -/
structure Exchange where
  seq : BitVec 16
  t1 : W64
  deriving DecidableEq, Repr

/-- A measurement of a root that is not followed yet (R51): its index, the link whose partner carries it, and the
exchange with that partner. -/
structure Probe where
  root : Nat
  link : Nat
  exch : Exchange
  deriving DecidableEq, Repr

/-- The timekeeper (R41 to R53). -/
structure TimeState where
  /-- chip time: 64 bits of nanoseconds above 40 fraction bits (R41) -/
  clock : BitVec 104 := 0
  /-- frequency estimate and offset slew, parts per 10^9; their sum is TIME_SERVO.freq_corr -/
  freqEst : Int := 0
  slew : Int := 0
  /-- last accepted offset in 0.25 ns units (TIME_SERVO.last_offset) -/
  lastOffset : BitVec 32 := 0
  /-- 0 UNSYNC, 1 ACQUIRING, 2 LOCKED, 3 HOLDOVER (Table 2-8) -/
  syncState : Nat := 0
  rootIndex : Nat := 0
  rootNode : Nat := 0
  stratum : Nat := 0
  /-- 0 to 23, or 31 for none -/
  upstream : Nat := 31
  seq : BitVec 16 := 0
  exch : Option Exchange := none
  /-- chip time of the latest SYNC_REQ moment (R44) -/
  reqAt : Nat := 0
  /-- a better root under measurement through the partner that carries it (R51) -/
  probe : Option Probe := none
  /-- previous accepted offset, 0.25 ns units (R45) -/
  prevOffset : Option Int := none
  discards : Nat := 0
  /-- dropped upstreams and the epoch at which each becomes eligible again (R45) -/
  excluded : Tab Nat := []
  announces : Tab Announce := []
  /-- per root index: the newest root_last_epoch held (R49) -/
  rootHeld : Tab Nat := []
  /-- indexes of the roots found farther than 2^20 ns away (R51) -/
  farRoots : List Nat := []
  /-- indexes of the roots measured within 2^20 ns while another is followed (R51) -/
  nearRoots : List Nat := []
  /-- chip time at which LOCKED was entered, and holdover (R52, R53) -/
  lockedAt : Nat := 0
  holdAt : Nat := 0
  /-- a listed root may originate ROOT_ANNOUNCE (R52) -/
  mayAnnounce : Bool := false
  /-- epoch of the last boundary signalled (R54) -/
  epochSeen : Nat := 0
  deriving DecidableEq, Repr

/-- Pace monitors, sensors, the pace alarm and the trip (R36 to R40, Table 2-11). -/
structure PaceState where
  minCount : BitVec 12 := 0
  minMonitor : BitVec 4 := 0
  maxTemp : BitVec 12 := 0
  maxSensor : BitVec 5 := 0
  /-- previous reading of each sensor that has made one (R38) -/
  prevTemp : Tab (BitVec 12) := []
  /-- every reading of this epoch so far met R39, and the epoch was seen from its start -/
  clean : Bool := false
  whole : Bool := false
  /-- the window in progress counts toward no condition (R428) -/
  windowVoid : Bool := false
  /-- chip time of the latest window end, conversion and sample (R428, R429) -/
  windowAt : Nat := 0
  convAt : Nat := 0
  sampleAt : Nat := 0
  alarm : Bool := false
  waived : Bool := false
  tripped : Bool := false
  deriving DecidableEq, Repr

/-- The heartbeat duty (R80, Table 3-18), one per die. MOD_HB is low until its first toggle. Log entry 3 (DESIGN CHOICE). -/
structure HbState where
  expiry : W64 := 0
  toggling : Bool := false
  lapsed : Bool := false
  bootRate : Bool := true
  level : Bool := false
  deriving DecidableEq, Repr

/-! ## Threads and cores (chapters 3 to 7) -/

/-- The states of Table 3-2. -/
inductive ThrSt where
  | run
  | sleep
  | block
  | park
  | stop
  deriving DecidableEq, Repr

/-- A register of one thread, as parity, poison and load results name it (R72, R91). -/
inductive RegRef where
  | x (n : BitVec 5)
  | f (n : BitVec 5)
  | v (n : BitVec 5)
  | m (n : BitVec 3)
  | mx (n : BitVec 2)
  deriving DecidableEq, Repr

/-- How a load's bytes reach its destination register (R71, R93, R137, R152). -/
inductive LoadShape where
  | int (size : Nat) (signed : Bool) (rd : BitVec 5)
  | fp32 (fd : BitVec 5)
  | fp64 (fd : BitVec 5)
  | vec (vd : BitVec 5) (mask : W32)
  | strided (vd : BitVec 5) (mask : W32) (width : Nat) (stride : W64)
  | bcast (vd : BitVec 5) (mask : W32) (width : Nat)
  | line (vd : BitVec 5)
  deriving DecidableEq, Repr

/-- A load of a thread that waits for lines of stack memory (R72, R75). -/
structure LoadOp where
  id : Nat
  thread : BitVec 2
  shape : LoadShape
  addr : W64
  /-- lines that have arrived, by line address -/
  got : Tab Line
  /-- lines still awaited -/
  want : List Nat
  poisoned : Bool
  deriving DecidableEq, Repr

/-- What a blocked tagged access does when it is granted (R136, R137). -/
inductive TagAct where
  | load (shape : LoadShape) (addr : W64)
  | store (addr : W64) (bytes : List Byte)
  deriving DecidableEq, Repr

/-- A blocked tagged access: kind 0 consuming, 1 waiting read, 2 filling store, 3 partial store. -/
structure TagWait where
  kind : Nat
  slots : List Nat
  act : TagAct
  /-- order of arrival at the arbiter (R138) -/
  order : Nat
  deriving DecidableEq, Repr

/-- A stream command that a thread has sent to its engine (R231). -/
structure StrmCmd where
  id : Nat
  code : Nat
  arg : W64
  deadline : Nat
  order : Nat
  /-- its descriptor was not in the cache (R231) -/
  missed : Bool := false
  deriving DecidableEq, Repr

/-- What a thread in BLOCK waits for (Table 3-2). -/
inductive Block where
  | none
  | fence
  | tagged (w : TagWait)
  | send (o : SendOp)
  | stream (c : StrmCmd)
  /-- a tagged access that the arbiter has served; its thread is not woken yet (Table 6-7) -/
  | served
  deriving DecidableEq, Repr

/-- TILE_FAULT of one thread (Table 5-14). -/
structure TileFault where
  reg : BitVec 4 := 0
  row : BitVec 5 := 0
  reason : BitVec 3 := 0
  deriving DecidableEq, Repr

/-- One thread (R59, Table 3-19, R89). -/
structure Thread where
  pc : BitVec 15 := 0
  x : Vector W64 32 := Vector.replicate 32 0
  f : Vector W64 32 := Vector.replicate 32 0
  v : Vector V1024 32 := Vector.replicate 32 0
  m : Vector W32 8 := Vector.replicate 8 0
  mx : Vector V1024 4 := Vector.replicate 4 0
  /-- registers whose stored parity fails (R59, R91) -/
  badParity : List RegRef := []
  /-- poisoned registers with the load address, and whether a fault has told of it (R72) -/
  poison : List (RegRef × W64 × Bool) := []
  /-- registers that await an outstanding load, by load id (R61) -/
  waiting : List (RegRef × Nat) := []
  /-- registers whose result is not ready yet: the step of the core from which a dependent may issue, and whether it is
  a VMX's update of an mx register, which a later VMX need not await (R67, R102) -/
  late : List (RegRef × Nat × Bool) := []
  /-- step of the core up to which a tag control word or WINV holds its thread in BLOCK (Tables 6-4, 6-6) -/
  busyUntil : Nat := 0
  st : ThrSt := .park
  block : Block := .none
  inFault : Bool := false
  cause : BitVec 8 := 0
  deferred : Bool := false
  fpc : BitVec 13 := 0
  faddr : W64 := 0
  fvecEntry : BitVec 13 := 0
  fvecEnable : Bool := false
  /-- nx, uf, of, dz, nv in bits 0 to 4 -/
  flags : BitVec 5 := 0
  rm : BitVec 3 := 1
  lbeg : BitVec 15 := 0
  lend : BitVec 15 := 0
  loopActive : Bool := false
  /-- the active loop was entered before the fault in progress (R74) -/
  loopFrozen : Bool := false
  lcnt : W64 := 0
  tcmp : W64 := BitVec.allOnes 64
  /-- YIELD issued in the current frame (R61) -/
  yielded : Bool := false
  /-- 1 A, 2 B, 3 C (Table 3-16) -/
  cls : BitVec 2 := 0
  srState : W64 := 0x9E3779B97F4A7C15#64
  satLanes : W32 := 0
  nanLost : Bool := false
  scaleClamped : Bool := false
  tileFault : TileFault := {}
  sendSeq : W32 := 0
  evSel : BitVec 3 := 0
  lnkSel : BitVec 8 := 0
  strmArg0 : BitVec 21 := 0
  strmArg1 : W64 := 0
  strmResp : W64 := 0
  strmStat : BitVec 3 := 0
  /-- first and last word of its image in the plan in force; none where first is above last (R79) -/
  imgFirst : Nat := 1
  imgLast : Nat := 0
  /-- an error acknowledgement not yet raised: the store's address (R211) -/
  storeErr : Option W64 := none
  deriving DecidableEq, Repr

/-- A matrix register (R107, R108): sparse bytes by tile offset, zero where not listed. -/
structure MReg where
  bytes : List Host.Cell := []
  valid : W32 := 0
  fmt : BitVec 4 := 0
  lay : BitVec 2 := 0
  loading : Bool := false
  /-- address of row f of a pending row fault (R118) -/
  rowFault : Option W64 := none
  poisoned : Bool := false
  /-- a FENCE has raised TCHECK for the poison that stands (R128) -/
  told : Bool := false
  /-- 32-bit words whose parity fails, by word offset in the register (R109) -/
  badWords : List Nat := []
  deriving DecidableEq, Repr

/-- Progress of one row of a tile instruction. -/
inductive RowSt where
  | pending
  | lines (want : List Nat) (got : Tab Line)
  | slots (order : Nat)
  | arrived (bytes : List Byte)
  | written
  | faulted (reason : Nat)
  deriving DecidableEq, Repr

/-- A tile load or store in the tile port (R115 to R119, R121). -/
structure TileOp where
  id : Nat
  thread : BitVec 2
  /-- register code 0 to 15 (Table 5-10) -/
  reg : BitVec 4
  store : Bool
  base : W64
  stride : W64
  /-- first row and number of rows -/
  first : Nat
  nrow : Nat
  rows : Tab RowSt := []
  /-- bursts of a TST begun so far: txn, by 4 KiB block (R219) -/
  bursts : Tab Nat := []
  deriving DecidableEq, Repr

/-- An MMA in the matrix engine (R122). -/
structure MmaRun where
  thread : BitVec 2
  op : MmaOp
  deriving DecidableEq, Repr

/-- One way of the window cache (R147). -/
structure WcLine where
  line : Nat
  data : Line
  /-- 32-bit words whose parity fails (R150) -/
  bad : List Nat := []
  deriving DecidableEq, Repr

/-- A fill in flight (R148, R153): stores applied to it before it is installed. -/
structure Fill where
  txn : Nat
  line : Nat
  cls : Cls
  noInstall : Bool := false
  /-- stores of the core to the line that had left it before this fill and had not been acknowledged (R147) -/
  early : List Host.Cell := []
  stores : List Host.Cell := []
  deriving DecidableEq, Repr

/-- What a request of a core is for (R211). -/
inductive ReqKind where
  | fill (load : Nat)
  | tileFill (op row : Nat)
  | ldv (load : Nat)
  | amo (load : Nat)
  | store (addr : W64)
  | tstBurst (base : W64)
  deriving DecidableEq, Repr

/-- A request that a core has put on the rings and that has not been answered. -/
structure Req where
  txn : Nat
  kind : ReqKind
  thread : BitVec 2
  line : Nat
  dst : Nat
  epoch : Nat
  deadline : Nat
  /-- what a store or a burst writes (R147) -/
  cells : List Host.Cell := []
  deriving DecidableEq, Repr

/-- State of a queue entry (R161). -/
inductive EntrySt where
  | filling
  | ready
  | claimed (t : BitVec 2)
  | released
  deriving DecidableEq, Repr

/-- An entry of an inbound queue that is not FREE. -/
structure QEntry where
  idx : Nat
  st : EntrySt
  handler : BitVec 8
  deriving DecidableEq, Repr

/-- An entry of a spill partition: still arriving or uncommitted, held in stack memory, or void. -/
inductive SpillSt where
  | coming
  | held
  | void
  deriving DecidableEq, Repr

/-- A place of a spill partition, by its index (R165). -/
structure SpillRec where
  idx : Nat
  st : SpillSt
  deriving DecidableEq, Repr

/-- One inbound queue: entries oldest first, and the index the next entry takes (R161); its spill partition,
oldest place first (R165). -/
structure Queue where
  live : List QEntry := []
  next : Nat := 0
  spilling : Bool := false
  /-- index of the oldest place and of the next one (SCN_SPILL) -/
  head : Nat := 0
  tail : Nat := 0
  spill : List SpillRec := []
  deriving DecidableEq, Repr

/-- Progress of one entry of a send buffer (R168 to R170). -/
inductive SendSt where
  | waiting
  | offered (txn : Nat) (deadline : Nat)
  | delay (n : Nat)
  deriving DecidableEq, Repr

/-- An entry of a send buffer: the scion's slots, its destination and its retries. -/
structure SendEntry where
  slot : Nat
  cls : Cls
  image : List Byte
  /-- uncorrectable words of the image, by index -/
  bad : List Nat := []
  dest : W64
  span : Option W64
  thread : BitVec 2
  seq : W32
  retries : Nat := 0
  skip : BitVec 4 := 0
  st : SendSt := .waiting
  /-- responses still awaited (R172) -/
  await : Nat := 1
  /-- ring stop that the latest offer names, and the epoch of that offer (R193) -/
  toStop : Nat := 0
  epoch : Nat := 0
  deriving DecidableEq, Repr

/-- The entry's offer has no final response yet. -/
def SendEntry.offered (e : SendEntry) : Bool :=
  match e.st with
  | .offered _ _ => true
  | .waiting => false
  | .delay _ => false

/-- The bounce record (R170, Table 7-13) with the header as it was sent. -/
structure Bounce where
  handler : BitVec 8
  code : BitVec 4
  cls : BitVec 2
  thread : BitVec 2
  seq : W32
  dest : W64
  header : List Byte
  deriving DecidableEq, Repr

/-- A ring flit (Table 8-4): header fields, payload, and the error state of its check bits. -/
structure Flit where
  kind : BitVec 4
  cls : BitVec 2
  resp : Bool
  ep : BitVec 3
  index : BitVec 6
  last : Bool
  dst : BitVec 12
  src : BitVec 12
  mkind : BitVec 2 := 0
  rowLo : BitVec 5 := 0
  rowHi : BitVec 5 := 0
  colLo : BitVec 5 := 0
  colHi : BitVec 5 := 0
  /-- the reserved header fields: word 0 bit 63, then word 1 bits 52 to 63 -/
  rsv : BitVec 13 := 0
  txn : BitVec 12
  addr : BitVec 40 := 0
  payload : Line := 0
  /-- header words that are uncorrectable, and those with a single-bit error (R186) -/
  hbad : BitVec 2 := 0
  hflip : BitVec 2 := 0
  /-- payload words that are uncorrectable, and those with a single-bit error (R143, R318) -/
  bad : BitVec 8 := 0
  flip : BitVec 8 := 0
  /-- hops of a message that came over a link or leaves on one (R269) -/
  hops : BitVec 6 := 0
  deriving DecidableEq, Repr

/-- What becomes of a scion whose flits are arriving (R163, R431); a queue entry and a spill burst are written with the
last flit (R161, R165). -/
inductive ArrKind where
  | queue (entry : Nat) (got : List Flit)
  | direct (offset : Nat) (skip : BitVec 4) (refused : BitVec 4)
  | spill (idx : Nat) (got : List Flit)
  | discard
  deriving DecidableEq, Repr

/-- A scion that is arriving: source stop, tag, class of its header, next flit index and flit count. -/
structure Arrival where
  src : BitVec 12
  cls : BitVec 2
  txn : BitVec 12
  next : Nat
  total : Nat
  seq : W32
  kind : ArrKind
  deriving DecidableEq, Repr

/-- A scion whose spill burst has left and has not been acknowledged (R165): its place, the txn of the burst (R222),
the epoch and the deadline of the burst (R193, R211), and what the scion's answer needs. -/
structure SpillWait where
  cls : Cls
  idx : Nat
  src : BitVec 12
  txn : BitVec 12
  seq : W32
  burst : Nat
  dst : Nat
  epoch : Nat
  deadline : Nat
  /-- its deadline has passed -/
  lost : Bool := false
  deriving DecidableEq, Repr

/-- One line read of a spilled entry (R166): its tag, the epoch and deadline of the request, and the line with its
single-bit errors, or none for one that came back with an error. -/
structure RefillRead where
  txn : Nat
  epoch : Nat
  deadline : Nat
  got : Option (Option (Line × BitVec 8)) := none
  deriving DecidableEq, Repr

/-- A spilled entry that the refill engine is reading (R166). -/
structure Refill where
  cls : Cls
  idx : Nat
  dst : Nat
  reads : List RefillRead
  deriving DecidableEq, Repr

/-- A request held back by R193. -/
structure Held where
  dst : Nat
  /-- cores that a multicast is for -/
  span : Option W64 := none
  flits : List Flit
  deriving DecidableEq, Repr

/-- A core with its site (R58, R107, R132, R147, R158, R160, R168). Keyed by site, 32 x prow + pcol. -/
structure Core where
  istore : Tab W32 := []
  /-- words of the instruction store that are uncorrectable (R318) -/
  istoreBad : List Nat := []
  /-- words of the instruction store with a single-bit error (R58) -/
  istoreFlip : List Nat := []
  readyMode : Bool := false
  slotOwner : BitVec 16 := 0
  slot : BitVec 3 := 0
  /-- steps of the issue frame so far (R63) -/
  steps : Nat := 0
  /-- step from which an accumulator instruction leaves the matrix engine free (Table 5-7) -/
  engineAt : Nat := 0
  /-- matrix registers whose result is not ready yet: code, step, and whether an MMA wrote it, which the next MMA need
  not await (R67, Table 5-6) -/
  lateMat : List (BitVec 4 × Nat × Bool) := []
  emptySlots : W32 := 0
  lentSlots : W32 := 0
  threads : Vector Thread 4 := Vector.replicate 4 {}
  /-- loads in flight -/
  loads : List LoadOp := []
  reqs : List Req := []
  nextId : Nat := 0
  nextTxn : Nat := 0
  burstTxn : BitVec 12 := 0
  held : List Held := []
  -- matrix state
  mregs : Tab MReg := []
  tileOwn : BitVec 48 := 0
  tileOps : List TileOp := []
  /-- thread after which rotation goes on, per rank (R117) -/
  tileLastA : BitVec 2 := 3
  tileLastBC : BitVec 2 := 3
  mma : Option MmaRun := none
  -- scratchpad
  pad : List Host.Cell := []
  full : List Nat := []
  padBad : List Nat := []
  padFlip : List Nat := []
  kinds : Tab (BitVec 2) := []
  initFull : W64 := 0
  waitOrder : Nat := 0
  -- window cache
  aWays : BitVec 3 := 0
  wc : Tab WcLine := []
  victim : Tab Nat := []
  fills : List Fill := []
  wcHits : W32 := 0
  wcMisses : W32 := 0
  -- scrubber
  scrubRun : Bool := false
  /-- epoch at which the latest period began (R144) -/
  scrubAt : Option Nat := none
  scrubPending : Bool := false
  nextSlot : Nat := 0
  passes : BitVec 35 := 0
  -- scions
  handlers : Tab W32 := []
  queues : Vector Queue 3 := Vector.replicate 3 {}
  qcfg : Vector W32 3 := Vector.replicate 3 0
  spillB : Nat := 0
  retryLimit : Vector (BitVec 8) 3 := Vector.replicate 3 0
  dmask : BitVec 12 := 0
  staleEntry : BitVec 13 := 0
  sends : List SendEntry := []
  /-- class, B or C, that the send unit injected last (R171) -/
  sendLastBC : Cls := .c
  bounce : Option Bounce := none
  arrivals : List Arrival := []
  spillWaits : List SpillWait := []
  /-- spilled entries that are being read, oldest first -/
  refills : List Refill := []
  -- flits delivered to the core's ring interface
  scionIn : List Flit := []
  respIn : List Flit := []
  memIn : List Flit := []
  -- ring statistics of the site's router (Table 8-7)
  injected : W32 := 0
  delivered : W32 := 0
  transitRow : W32 := 0
  transitCol : W32 := 0
  aWaitMax : BitVec 16 := 0
  aAheadMax : BitVec 16 := 0
  deriving DecidableEq, Repr

/-! ## Rootstock, plans and start (chapter 15) -/

/-- A span record of a plan: the decoded span (R200) and the bytes after it (Table 15-7). -/
structure SpanRec where
  kind : Nat
  rowLo : Nat
  rowHi : Nat
  colLo : Nat
  colHi : Nat
  body : List Byte
  deriving DecidableEq, Repr

/-- A standby variant: unit kind, unit, and its route block (Table 15-7). -/
structure Variant where
  kind : Nat
  unit : Nat
  block : List Byte
  deriving DecidableEq, Repr

/-- A heartbeat thread named by the plan. -/
structure HbThread where
  row : Nat
  col : Nat
  thread : Nat
  deriving DecidableEq, Repr

/-- A plan as the die holds it (R335). -/
structure Plan where
  id : W64 := 0
  nodeLo : Nat := 0
  nodeHi : Nat := 0
  reduced : Bool := false
  givenCol : Nat := 0
  threads : List SpanRec := []
  images : List SpanRec := []
  scratch : List SpanRec := []
  queues : List SpanRec := []
  handlers : List SpanRec := []
  routes : List Byte := []
  capA : Nat := 0
  capB : Nat := 0
  capC : Nat := 0
  aMinPeriod : Nat := 0
  heartbeat : List HbThread := []
  variants : List Variant := []
  deriving DecidableEq, Repr

/-- The rootstock in force, defaults applied (R333, Tables 15-5 and 15-6). -/
structure Rootstock where
  seq : W64 := 0
  node : Nat := 0
  set : Nat := 0
  compatLo : Nat := 0
  compatHi : Nat := 0
  chain : List Byte := []
  authority : List Byte := []
  revoked : List W64 := []
  setpoint : Nat := 800
  paceThreshold : Nat := 940
  scrubEpochs : Nat := 1024
  retireThreshold : Nat := 4096
  retired : List W32 := []
  harvestRetention : Nat := 65536
  issueMode : List Byte := []
  linkEnable : BitVec 24 := 0
  medium : BitVec 24 := 0
  encrypt : BitVec 24 := 0
  timeUpstreamMask : BitVec 24 := 0
  ceilings : BitVec 48 := 0
  laneDegrade : Nat := 65536
  timeoutA : Nat := 20
  timeoutB : Nat := 1000
  timeoutC : Nat := 10000
  stallLimit : Nat := 50
  maxHops : Nat := 12
  admitTimeout : Nat := 200
  misbehaveLimit : Nat := 256
  roots : List Nat := []
  rootLossEpochs : Nat := 16
  holdoverLimit : Nat := 1024
  /-- the SITEMAP section, if any -/
  siteMap : Option (List Byte) := none
  bootPlans : List (List Byte) := []
  deriving DecidableEq, Repr

/-- An install session (R342): image bytes by chunk of 2,048 B. -/
structure Session where
  id : Nat
  link : Nat
  pages : Nat
  chunks : Tab (List Byte) := []
  last : Nat
  deriving DecidableEq, Repr

/-- An accepted switch of route banks (R344): a plan install, or a prune or graft block. -/
structure NextBank where
  epoch : Nat
  /-- the next plan, when the switch installs one -/
  plan : Option Plan
  deriving DecidableEq, Repr

/-- Start, rootstock, plans and the BOOT_ registers. -/
structure Boot where
  powered : Bool := true
  /-- MOD_RESET_N asserted -/
  inReset : Bool := true
  step : BitVec 4 := 0
  straps : BitVec 2 := 0
  image : Bool := false
  reason : BitVec 4 := 0
  planReason : BitVec 5 := 0
  /-- step 8 has ended, in this epoch: the threads start at the next boundary (R338) -/
  ready : Bool := false
  readyEpoch : Nat := 0
  /-- the boot plan's threads have started -/
  running : Bool := false
  flashA : List Byte := []
  flashB : List Byte := []
  /-- a rootstock has been applied since power came: it is locked, and the flash chooses none, until power goes (R24) -/
  locked : Bool := false
  rs : Rootstock := {}
  /-- SHA-384 of each boot plan of the image, recorded at step 2 (R338) -/
  planHashes : List (List Byte) := []
  /-- the chain in force names this module's key and verifies, as judged at step 3 (R285) -/
  ownOk : Bool := false
  plan : Option Plan := none
  next : Option NextBank := none
  lastSwitch : Option Nat := none
  lastRefusal : BitVec 5 := 0
  refusals : BitVec 15 := 0
  session : Option Session := none
  nextSession : Nat := 1
  /-- failed sites of self-test, and the start site map (R196 to R198) -/
  startMap : List Byte := []
  /-- the shape is fixed until power goes (R199) -/
  shaped : Bool := false
  reduced : Bool := false
  givenCol : Nat := 0
  recomputed : Bool := false
  failedSites : List Nat := []
  deriving DecidableEq, Repr

/-! ## Rings (chapter 8) -/

/-- Where a flit that waits for a ring output came from (R188). -/
inductive Origin where
  | transit
  | turn
  | inject
  deriving DecidableEq, Repr

/-- A flit that waits for one ring output. -/
structure WaitFlit where
  flit : Flit
  origin : Origin
  /-- the input buffer whose place the flit still holds, and the place's serial number (R189) -/
  place : Option (Nat × Nat) := none
  /-- ring steps of the output that it has waited (R188, Table 8-7) -/
  waited : Nat := 0
  deriving DecidableEq, Repr

/-- The ring transport.  Input keys: ((stop * 16 + lane) * 3 + class) * 2 + chan; output keys: stop * 16 + lane.
Stops: a site is 32 * prow + pcol, an edge stop n is 1000 + n. -/
structure RingState where
  /-- flits that have arrived and that the router has not examined -/
  inBuf : Tab (List Flit) := []
  outWait : Tab (List WaitFlit) := []
  /-- places in use of each input buffer, as its upstream output counts them (R189) -/
  used : Tab Nat := []
  /-- places that each input owes back to its upstream output (R189) -/
  owed : Tab Nat := []
  /-- ring step of each output, modulo 8 (R187) -/
  slot : Tab Nat := []
  /-- class, B or C, that each output sent last (R188) -/
  lastBC : Tab Cls := []
  /-- per site: the current epoch's longest class A wait and most class A flits ahead (Table 8-7) -/
  aWait : Tab Nat := []
  aAhead : Tab Nat := []
  /-- next serial number of a buffer place -/
  serial : Nat := 0
  /-- flits that edge stops have handed to the unit attached: key (edge stop * 3 + class) * 2 + chan -/
  ports : Tab (List Flit) := []
  deriving DecidableEq, Repr

/-- A route bank (R190): a route block of Table 15-9, or nothing loaded. -/
structure Bank where
  loaded : Bool := false
  block : List Byte := []
  deriving DecidableEq, Repr

/-! ## Stacks and streams (chapter 9) -/

/-- Channel states (Table 9-6). -/
inductive ChanSt where
  | inService
  | isolated
  | retired
  | failed
  | spare
  deriving DecidableEq, Repr

/-- A transaction of a channel: a request's flits, or a line of a committed burst (R214, R220). -/
structure Trans where
  cls : Cls
  line : Nat
  flits : List Flit := []
  /-- serial number of the burst whose line is written -/
  burst : Option Nat := none
  /-- index and payload of its answer, where it has taken effect before a burst that came later (R214, R220) -/
  done : Option (BitVec 6 × List Byte) := none
  deriving DecidableEq, Repr

/-- One channel of a stack (R215, R224). -/
structure Chan where
  st : ChanSt := .inService
  queue : List Trans := []
  running : Option Trans := none
  /-- repeats of the running transfer (R212) -/
  repeats : Nat := 0
  /-- slot of the service cycle, and the class, B or C, that took the last such slot -/
  slot : BitVec 2 := 0
  lastBC : Cls := .c
  /-- errors corrected in this epoch -/
  corrected : Nat := 0
  /-- lines of the transfers that failed in a row -/
  failRun : List Nat := []
  /-- a cause of isolation stands (R224) -/
  due : Bool := false
  deriving DecidableEq, Repr

/-- A relocation under way: its channel, lines copied, and lines to copy (R225). -/
structure Reloc where
  chan : Nat
  copied : Nat := 0
  total : Nat
  deriving DecidableEq, Repr

/-- An entry of the relocation map (R208, R225): the lines of a channel have gone to a SPARE channel, or to the
relocation area. -/
structure ChanMove where
  chan : Nat
  spare : Option Nat
  deriving DecidableEq, Repr

/-- A fill of the stream cache that waits for a way, or has been given one (R232). -/
structure FillWait where
  id : Nat
  way : Option Nat := none
  deriving DecidableEq, Repr

/-- A burst at a controller (R218, R220). -/
structure Burst where
  serial : Nat
  src : BitVec 12
  txn : BitVec 12
  cls : BitVec 2
  ep : BitVec 3
  /-- epoch that ep names (R221) -/
  epoch : Nat
  base : Nat
  lines : List Line := []
  /-- a rule of R218 is broken; a payload word is uncorrectable -/
  broken : Bool := false
  bad : Bool := false
  /-- the last flit is in -/
  whole : Bool := false
  /-- committed, with lines still to be written to the stack -/
  committed : Bool := false
  left : Nat := 0
  deriving DecidableEq, Repr

/-- A descriptor in the stream cache (R232). -/
structure CacheWay where
  id : Nat
  desc : List Byte
  dirty : Bool := false
  deriving DecidableEq, Repr

/-- A memory stack with its controller. -/
structure Stack where
  chans : Tab Chan := []
  reloc : Option Reloc := none
  /-- the relocation map, oldest entry first; the last is under way while reloc names its channel -/
  moves : List ChanMove := []
  /-- the relocation area holds a channel's lines since start (R225) -/
  areaUsed : Bool := false
  /-- first flits of writes of two flits (Table 9-4) -/
  parts : List Flit := []
  bursts : List Burst := []
  nextBurst : Nat := 0
  /-- the commit table: txn of the last committed burst, by initiator stop (R222) -/
  commits : Tab (BitVec 12) := []
  /-- the stream cache, keyed 8 * set + way, and the victim pointer of each set -/
  cache : Tab CacheWay := []
  victim : Tab Nat := []
  /-- fills that wait for a way, oldest first -/
  fillWaits : List FillWait := []
  deriving DecidableEq, Repr

/-- The stream shadow of one ID (R233). -/
structure Shadow where
  free : Bool := true
  cls : BitVec 2 := 0
  gen : BitVec 12 := 0
  node : BitVec 18 := 0
  link : BitVec 5 := 0
  deriving DecidableEq, Repr

/-- A freed stream ID: the epoch in which it was freed, and whether it is available again (R230). -/
structure FreedId where
  id : Nat
  epoch : Nat
  avail : Bool := false
  deriving DecidableEq, Repr

/-- What the stream-table engines keep of the whole module (R230, R231). -/
structure Streams where
  shadow : Tab Shadow := []
  /-- open streams of classes A, B and C (R230) -/
  openA : Nat := 0
  openB : Nat := 0
  openC : Nat := 0
  /-- lowest ID never handed out, and the IDs freed since, in that order -/
  fresh : Nat := 0
  freed : List FreedId := []
  hits : W32 := 0
  misses : W32 := 0
  /-- order of the next stream command -/
  order : Nat := 0
  /-- IDs whose descriptors were filled for a host or MIGRATE message that has not been served yet -/
  filled : List Nat := []
  /-- the state that MIGRATE_OUT left, of each stream in MIGRATING (R366) -/
  earlier : Tab Nat := []
  deriving DecidableEq, Repr

/-! ## Links and admission (chapters 11 and 12) -/

/-- A link flit (Table 11-6) with its payload. -/
structure LFlit where
  kind : BitVec 4
  cls : BitVec 2
  resp : Bool
  index : BitVec 6
  last : Bool
  dst : BitVec 18
  src : BitVec 18
  hops : BitVec 6 := 0
  txn : BitVec 12
  addr : BitVec 40 := 0
  payload : Line
  deriving DecidableEq, Repr

/-- One virtual channel: flits sent and the limit received, the partner's buffer, flits that have left our own
buffer (R263), the flits in it, and the flits that wait to be sent. -/
structure Vc where
  sent : BitVec 12 := 0
  limit : BitVec 12 := 0
  init : BitVec 12 := 0
  freed : BitVec 12 := 0
  rx : List LFlit := []
  tx : List LFlit := []
  deriving DecidableEq, Repr

/-- A DATA frame in the retry buffer: its fseq and its flits with their VCs (R262). -/
structure RetryFrame where
  fseq : BitVec 12
  slots : List (Nat × LFlit)
  deriving DecidableEq, Repr

/-- A request record: a request that the port has sent (R265). -/
structure LinkRec where
  txn : Nat
  cls : Cls
  /-- ring stop that the response goes to, and the request's tag there -/
  src : BitVec 12
  otxn : BitVec 12
  kind : BitVec 4
  deadline : Nat
  deriving DecidableEq, Repr

/-- A request of the partner that holds response room (R265): its tag on the rings and on the link. -/
structure InRec where
  txn : Nat
  ptxn : BitVec 12
  cls : Cls
  kind : BitVec 4
  /-- node to which the response goes -/
  node : BitVec 18
  deriving DecidableEq, Repr

/-- What a link holds from UP to its drop (R257, R262 to R265). -/
structure Sess where
  enc : Bool := false
  kTx : List Byte := []
  kRx : List Byte := []
  sTx : List Byte := []
  sRx : List Byte := []
  /-- txc of the next frame, and the least txc that a received frame may carry -/
  txcTx : W64 := 0
  txcRx : W64 := 0
  vcs : Vector Vc 8 := Vector.replicate 8 {}
  nextFseq : BitVec 12 := 0
  expFseq : BitVec 12 := 0
  held : List RetryFrame := []
  /-- held frames still to be sent again -/
  resend : List RetryFrame := []
  replays : Nat := 0
  nak : Bool := false
  /-- chip time at which NAK was last sent, and at which the oldest held frame was sent -/
  nakAt : Nat := 0
  heldAt : Nat := 0
  /-- control frames that wait to be sent: ftype and body -/
  ctrl : List (Nat × List Byte) := []
  sinceIdle : Nat := 0
  /-- txc of the next frame when each MGMT flit that waits was queued (R266) -/
  mgmtAt : List W64 := []
  /-- VCs whose returned credit has changed since a DATA frame returned it, longest ago first -/
  credits : List Nat := []
  recs : List LinkRec := []
  inRecs : List InRec := []
  nextTag : Nat := 0
  nextIn : Nat := 0
  /-- the class A message whose header flit arrived last: that window's number, and the flits it had counted (R296) -/
  aHead : Nat × Nat := (0, 0)
  /-- whether each whole message in the buffer of VC 0 passed the share cap as its header arrived, oldest first -/
  aMarks : List Bool := []
  deriving DecidableEq, Repr

/-- A burst of the partner to the scratchpad aperture, staged at the port (R278). -/
structure ApBurst where
  bseq : BitVec 12
  cls : Cls
  node : BitVec 18
  deriving DecidableEq, Repr

/-- The burst record of a link (R277, R279). -/
structure BurstRec where
  committed : BitVec 12 := 0
  bitmap : W64 := 0
  valid : Bool := false
  /-- serial and key of the partner that it belongs to -/
  serial : W64 := 0
  key : List Byte := []
  /-- bursts injected and not acknowledged, and those acknowledged with an error -/
  out : List (BitVec 12) := []
  refused : List (BitVec 12) := []
  deriving DecidableEq, Repr

/-- The last valid TRAIN of the partner (Table 11-9). -/
structure TrainInfo where
  node : BitVec 18
  port : BitVec 5
  set : BitVec 16
  enc : Bool
  init : List (BitVec 12)
  deriving DecidableEq, Repr

/-- Fragments of one admission message (Table 12-5). -/
structure FragSet where
  nfrag : Nat
  parts : Tab (List Byte) := []
  deriving DecidableEq, Repr

/-- The admission exchange of a link (R288 to R292). -/
structure Admit where
  /-- 0 waiting for the engine, 1 HELLO sent, 2 PROVE sent, 3 RESULT sent -/
  stage : Nat := 0
  nonce : List Byte := []
  /-- number of the ephemeral key in the key store, until it is erased (R289) -/
  eph : Option Nat := none
  hello : List Byte := []
  /-- the latest message and its number, and when it was last sent -/
  sent : List Byte := []
  sentMsg : Nat := 0
  sentAt : Nat := 0
  /-- a RESULT frame has gone out (R290) -/
  resultOut : Bool := false
  /-- the partner's messages, by number -/
  frags : Tab FragSet := []
  low : Bool := false
  h : List Byte := []
  cOwn : List Byte := []
  cPeer : List Byte := []
  kTx : List Byte := []
  kRx : List Byte := []
  sTx : List Byte := []
  sRx : List Byte := []
  serial : W64 := 0
  key : List Byte := []
  grant : BitVec 2 := 0
  deriving DecidableEq, Repr

/-- A link port. -/
structure Link where
  /-- state code (Table 11-8) -/
  st : Nat := 1
  reason : BitVec 4 := 0
  /-- chip time at which the state was entered, and at which frame lock was taken -/
  since : Nat := 0
  locked : Bool := false
  lockAt : Nat := 0
  goodRun : Nat := 0
  badRun : Nat := 0
  /-- the PHY has finished training -/
  phyUp : Bool := false
  apart : Bool := false
  apartSeen : Bool := false
  apartCounted : Bool := false
  stallA : Bool := false
  stallB : Bool := false
  stallC : Bool := false
  /-- chip time from which the oldest request of a class waits on the ring, and from which a reserved one waits for
  credit, by class number (R275) -/
  waitFrom : Tab Nat := []
  creditFrom : Tab Nat := []
  rxMap : BitVec 12 := 0x688#12
  txMap : BitVec 12 := 0x688#12
  rxOut : BitVec 5 := 0
  txOut : BitVec 5 := 0
  laneCe : Tab Nat := []
  worstCe : W32 := 0
  /-- receive lane whose swap is in progress, and transmit lane copied onto lane 4 -/
  swap : Option Nat := none
  mirror : Option Nat := none
  /-- lane under test at the partner's request, and at ours; errors of the last tests reported to us -/
  txTest : Option Nat := none
  rxTest : Option Nat := none
  testErrors : Tab W32 := []
  txData : W32 := 0
  rxData : W32 := 0
  train : Option TrainInfo := none
  /-- a TRAIN with seen = 1 was received; one was sent -/
  gotSeen : Bool := false
  sentSeen : Bool := false
  /-- TRAIN, LANE and DOWN frames received and not acted on -/
  inbox : List (List Byte) := []
  sess : Sess := {}
  adm : Admit := {}
  tagFails : Nat := 0
  brec : BurstRec := {}
  aps : List ApBurst := []
  grant : BitVec 2 := 0
  partnerNode : BitVec 18 := 0
  leafSerial : W64 := 0
  lastCode : BitVec 4 := 0
  n : Nat := 0
  backoffEnd : Nat := 0
  pruned : Bool := false
  score : Nat := 0
  lastScore : Nat := 0
  /-- class A flits accepted in the window, and that window's number (R296) -/
  aWindow : Nat := 0
  aWindowNo : Nat := 0
  /-- the frame that the port sent last -/
  wire : List Byte := []
  deriving DecidableEq, Repr

/-! ## Units (chapter 16) -/

/-- A unit that is not simply in or out of service: its state of Table 16-4, the boundary S of its pending
operation, and what the last operation and test left. -/
structure UnitRec where
  unit : UnitId
  /-- code of Table 16-4 -/
  st : Nat
  /-- S of the pending operation, and whether it is a graft -/
  due : Option Nat := none
  graft : Bool := false
  variant : Nat := 0xFFFF
  /-- bit errors of the last lane or link test -/
  errors : W32 := 0
  /-- logical rows that the operation moves (Table 16-5) -/
  moved : W32 := 0
  /-- the former logical core of a pruned site, and the boundary S + 2 at which a prune ends -/
  core : Option (Nat × Nat) := none
  final : Option Nat := none
  deriving DecidableEq, Repr

/-! ## Hosts (chapter 17) -/

/-- A notice under way, and the host message that it answers (R377, R378). -/
structure Notice where
  link : Nat
  op : Nat
  id : Nat
  gen : Nat
  txn : Nat
  /-- home cores that have to answer -/
  await : Nat
  deadline : Nat
  /-- tag of the request and its partner's node -/
  ptxn : BitVec 12
  node : BitVec 18
  deriving DecidableEq, Repr

/-! ## The warden channel (R410) -/

/-- One end of a warden channel. -/
structure WdnEnd where
  nextSeq : BitVec 8 := 0
  /-- seq of the last frame received in order -/
  lastRx : BitVec 8 := 255
  /-- frames not acknowledged, oldest first -/
  held : List (BitVec 8 × List Byte) := []
  /-- type, ingress link, partner node and body of what waits for a place among them -/
  waiting : List (Nat × Nat × Nat × List Byte) := []
  resends : Nat := 0
  up : Bool := true
  /-- what the end transmitted last -/
  wire : List (List Byte) := []
  /-- the received bodies that no unit has acted on: type, link, node, body -/
  inbox : List (Nat × Nat × Nat × List Byte) := []
  deriving DecidableEq, Repr

/-! ## The tray (chapters 18 and 19) -/

/-- What a bay's start or power-down sequence waits for (Table 18-4, R397). -/
inductive BayWait where
  | none
  /-- the channel's ramp -/
  | ramp
  /-- rails good, and then 10 ms before MOD_RESET_N is released -/
  | railsGood
  /-- 10 ms of reset before MOD_PWR_EN drops, then 50 ms before the channel opens -/
  | resetHeld
  | powerDropped
  /-- boundary S + 2 of a prune before power-down -/
  | pruned (epoch : Nat)
  /-- 10 ms of reset before start goes on from row 4 of Table 18-4 -/
  | retry
  deriving DecidableEq, Repr

/-- Why a bay's channel is to be powered down, or started again (R397, R399). -/
inductive BayGoal where
  | stop
  | restart
  /-- an automatic restart, counted under R398 -/
  | again
  /-- MOD_RESET_N held and MOD_PWR_EN dropped, the channel staying ON (Table 18-5) -/
  | hold
  deriving DecidableEq, Repr

/-- PRUNE messages that a power-down waits for: the bays whose answers are awaited, those that answered BUSY, whether
one was refused otherwise, their S, and where the BAY_CTRL's answer goes, if a BAY_CTRL it was. -/
structure PruneAsk where
  await : List Nat
  busy : List Nat := []
  refused : Bool := false
  boundary : Nat
  src : Option TraySrc := none
  deriving DecidableEq, Repr

/-- A bay: its channel (Table 18-7), signals, tray record and what the warden keeps of its module. -/
structure Bay where
  chan : Nat := 0
  present : Bool := false
  hbOk : Bool := false
  pwrEn : Bool := false
  /-- MOD_RESET_N is released -/
  resetN : Bool := false
  errCorr : Bool := false
  errFatal : Bool := false
  straps : BitVec 2 := 0
  -- the tray record
  expected : Option Nat := none
  auto : Bool := false
  hbAction : Bool := false
  fatalAction : Bool := true
  pruneVariant : Nat := 0xFFFF
  -- the module
  /-- set and compatibility range of the rootstock that runs, once reset is released -/
  set : Nat := 0
  compatLo : Nat := 0
  compatHi : Nat := 0
  /-- which images are candidates, and set and range of each (R395) -/
  candA : Bool := false
  candB : Bool := false
  imgA : Nat × Nat × Nat := (0, 0, 0)
  imgB : Nat × Nat × Nat := (0, 0, 0)
  /-- the retry with the other image has been made (R395) -/
  retried : Bool := false
  /-- held with straps 11, or with MOD_RESET_N low after RESTART_LIMIT -/
  held : Bool := false
  limited : Bool := false
  /-- the module runs its boot plan (MOD_HB at the 5 ms rate) -/
  running : Bool := false
  wait : BayWait := .none
  goal : BayGoal := .stop
  asked : Option PruneAsk := none
  /-- tray times of automatic restarts, and of trips (R398, R402) -/
  restarts : List Nat := []
  trips : List Nat := []
  lockout : Bool := false
  /-- the channel has been reclosed since it last was ON -/
  reclosed : Bool := false
  /-- a running module was lost to a reset that no graft has ended: its graft is owed (R399) -/
  graftOwed : Bool := false
  /-- BOOT_STATUS as the module reported it last -/
  bootStatus : W64 := 0
  /-- the latest STATE_SUMMARY: BOOT_STATUS, BOOT_PLAN, TIME_STATUS, TIME_EPOCH -/
  summary : List Byte := []
  /-- standing reports of the module -/
  reports : List (List Byte) := []
  chanEnd : WdnEnd := {}
  deriving DecidableEq, Repr

/-- A bundle slot: its set number, and whether a boot of it failed (R416). -/
structure Bundle where
  set : Nat
  failed : Bool := false
  deriving DecidableEq, Repr

/-- A warden card. -/
structure Card where
  present : Bool := false
  healthy : Bool := false
  run : Nat := 0
  prev : Nat := 0
  staged : Option Bundle := none
  deriving DecidableEq, Repr

/-- An upload session of a rootstock (R414) or a bundle (R415). -/
structure Upload where
  id : Nat
  bundle : Bool
  bay : Nat := 0
  /-- image B -/
  second : Bool := false
  pages : Nat
  chunks : Tab (List Byte) := []
  /-- the commit was accepted; where its answer goes, with the request's op -/
  writing : Bool := false
  src : TraySrc
  deriving DecidableEq, Repr

/-- A log entry (R418). -/
structure LogEntry where
  seq : Nat
  epoch : Nat
  ms : Nat
  bay : Nat
  code : Nat
  detail : List Byte
  deriving DecidableEq, Repr

/-- A rear connector: its cable, and the identity record read (R409). -/
structure Cable where
  present : Bool := false
  record : List Byte := []
  deriving DecidableEq, Repr

/-- The hold-up string (R405 to R408): voltages in mV, cells and taps numbered as in Table 18-1. -/
structure HoldUp where
  fitted : Bool := true
  cells : List Nat := []
  total : Nat := 0
  unknown : List Nat := []
  /-- cells that failed, logged until the pack is replaced -/
  failed : List Nat := []
  charging : Bool := true
  converter : Bool := true
  /-- cells that the monitor bleeds -/
  bleed : List Nat := []
  /-- marginal results in a row, by tap -/
  marginal : Tab Nat := []
  /-- taps found open, and the monitor's own fault -/
  openTaps : List Nat := []
  measureFault : Bool := false
  /-- the tap test is due at once (R407) -/
  suspicious : Bool := false
  deriving DecidableEq, Repr

/-- The service port (R413). -/
structure SvcPort where
  nonce : List Byte := []
  level : Option Nat := none
  /-- what the port sent last -/
  out : List (List Byte) := []
  deriving DecidableEq, Repr

/-- The tray: both wardens, the bays, and what they share.  The wardens' record and log are mirrored (R390), so they
are kept once. -/
structure Tray where
  /-- tray time in ms -/
  ms : Nat := 0
  /-- the active latch: which warden is active, if any, and the time of the last pulse -/
  active : Option Warden := none
  pulsed : Nat := 0
  /-- the active warden has commanded HANDOVER -/
  released : Bool := false
  /-- epoch of the latest STATE_SUMMARY (R418) -/
  sumEpoch : Nat := 0
  cardA : Card := {}
  cardB : Card := {}
  bays : Tab Bay := []
  /-- feeds below 46 V, and feeds whose path is blocked (R400, R422) -/
  feedLow : List Nat := []
  blocked : List Nat := []
  leakLatch : Bool := false
  wet : List Nat := []
  sensorFault : List Nat := []
  /-- tray time of the last wet or faulty zone reading -/
  wetAt : Nat := 0
  /-- bays that wait to start one at a time after a leak (R404) -/
  startQueue : List Nat := []
  holdUp : HoldUp := {}
  cables : Tab Cable := []
  /-- the learned orchard authority (R396) -/
  authority : Option (List Byte) := none
  upload : Option Upload := none
  nextUpload : Nat := 1
  /-- a committed rootstock or bundle, written whole (R390, R414) -/
  written : List (Nat × Bool × List Byte) := []
  /-- activation: 0 none, 1 the standby boots the bundle, 2 the other card does (R416) -/
  activation : Nat := 0
  svc : SvcPort := {}
  log : List LogEntry := []
  nextLog : Nat := 0
  deriving DecidableEq, Repr

/-! ## The machine -/

/-- The block: one module with its die and stacks, and the tray that holds it. -/
structure State where
  time : TimeState := {}
  pace : PaceState := {}
  hb : HbState := {}
  /-- event registers, keyed crn * 1024 + number of the site, stack or link (R322, R326) -/
  events : Tab EvReg := []
  /-- epoch of the latest event of Table 14-7's last row -/
  ueEpoch : Option Nat := none
  /-- MOD_ERR_CORR_N and MOD_ERR_FATAL_N asserted -/
  errCorr : Bool := false
  errFatal : Bool := false
  cores : Tab Core := []
  boot : Boot := {}
  rings : RingState := {}
  banks : Vector Bank 2 := Vector.replicate 2 {}
  /-- stack memory, plan memory and reserved areas, by local address -/
  mem : List Host.Cell := []
  /-- lines of stack memory that are uncorrectable, by line number -/
  memBad : List Nat := []
  memStacks : Tab Stack := []
  strm : Streams := {}
  /-- link drops that stack controllers have not yet acted on: 32 * stack + link (R221) -/
  drops : List Nat := []
  /-- reports that the die owes the warden (R411) -/
  reports : List ReportKind := []
  links : Tab Link := []
  /-- links in ADMITTING that wait for the admission engine, oldest first (R293) -/
  admitQueue : List Nat := []
  /-- the bank that holds the plan in force (R343) -/
  bankNow : Nat := 0
  /-- units that an operation concerns (chapter 16) -/
  units : List UnitRec := []
  /-- sites that a boundary gave to another logical core and that are not yet loaded (R356) -/
  awaiting : List Nat := []
  /-- sites whose core has not yet applied the new plan (R79) -/
  switchDue : List Nat := []
  /-- a pruned module refuses submissions from S and stops at S + 2 (R364) -/
  refusing : Bool := false
  stopped : Bool := false
  /-- host messages that wait for their notices (R377) -/
  notices : List Notice := []
  nextNotice : Nat := 0
  /-- the die's end of the warden channel, and group 0x3 requests whose replies are awaited: link, op, tag, node -/
  wdn : WdnEnd := {}
  forwarded : List (Nat × Nat × BitVec 12 × BitVec 18) := []
  tray : Tray := {}
  /-- the model's own counter of free values -/
  free : Nat := 0
  pending : List Instr := []
  deriving DecidableEq, Repr

/-- The machine with MOD_RESET_N asserted and no command waiting. Log entry 3 (DESIGN CHOICE). -/
def State.reset : State := {}

/-- What a command's meaning answers. -/
abbrev Out := Host.Outcome State Fault Refusal

end Sys2Proof.Machine
end

