-- ==== Sys2Proof/Machine/Banks.lean ====
section
/-! DEFINITION. Route blocks (Table 15-9), the bank a flit's epoch selects (R190, R346), and the site of
a logical core (R196). -/

namespace Sys2Proof.Machine

/-! ## Reading a route block -/

def blkReduced (b : List Byte) : Bool := bitAt (field b 0 1) 0
def blkGiven (b : List Byte) : Nat := bits (field b 0 1) 1 5
/-- Logical columns of a block: 32, or 31 in reduced shape. -/
def blkCols (b : List Byte) : Nat := if blkReduced b then 31 else 32
def blkColEntry (b : List Byte) (c : Nat) : Nat := field b (8 + 8 * c) 8
/-- Physical column of logical column c. -/
def blkPc (b : List Byte) (c : Nat) : Nat := bits (blkColEntry b c) 56 5
/-- Shift s(c,k) of logical row k in logical column c (R196). -/
def blkShift (b : List Byte) (c k : Nat) : Nat := bits (blkColEntry b c) (2 * k) 2
def blkInService (b : List Byte) (site : Nat) : Bool := bitAt (field b (264 + site / 8) 1) (site % 8)

/-- Site [k + s(c,k).pc] of logical core (k.c), inside the shape (R196). -/
def blkSite (b : List Byte) (row col : Nat) : Option Nat :=
  if row < 28 && col < blkCols b then some (32 * (row + blkShift b col row) + blkPc b col) else none

/-- The site of a core that is in service. -/
def blkCore (b : List Byte) (row col : Nat) : Option Nat :=
  (blkSite b row col).filter (blkInService b)

/-- Logical column of a physical column, if it has one. -/
def blkColOf (b : List Byte) (pc : Nat) : Option Nat :=
  (List.range (blkCols b)).find? fun c => blkPc b c == pc

/-- Logical core that sits on a site, if any. -/
def blkCoreOf (b : List Byte) (site : Nat) : Option (Nat × Nat) :=
  (blkColOf b (site % 32)).bind fun c =>
    ((List.range 28).find? fun k => k + blkShift b c k == site / 32).map fun k => (k, c)

/-- Row ring of row k: from column s toward column d, west if set. -/
def blkWest (b : List Byte) (k s d : Nat) : Bool := bitAt (field b (384 + 128 * k + 4 * s) 4) d
/-- Column ring of physical column c: from row r toward row d, north if set. -/
def blkNorth (b : List Byte) (c r d : Nat) : Bool := bitAt (field b (3968 + 112 * c + 4 * r) 4) d
/-- Edge ring from stop a to stop d: anticlockwise, second lane pair. -/
def blkEdge (b : List Byte) (a d : Nat) : Nat := field b (7552 + 93 * a + d) 1
/-- From edge source a, core (row.col) is entered by its column ring if set. -/
def blkByColumn (b : List Byte) (a row col : Nat) : Bool :=
  bitAt (field b (16201 + 112 * a + (32 * row + col) / 8) 1) ((32 * row + col) % 8)
def blkGroupRoute (b : List Byte) (grp : Nat) : Nat := field b (26617 + 2 * grp) 2
def blkMemberRoute (b : List Byte) (m : Nat) : Nat := field b (28665 + 2 * m) 2
/-- Filter of link k (Table 12-11), 128 bits. -/
def blkFilter (b : List Byte) (k : Nat) : Nat := field b (29177 + 16 * k) 16
def blkSize : Nat := 29561

/-! ## Chip time and epochs -/

/-- Chip time in whole nanoseconds (R41). -/
def State.now (s : State) : Nat := (s.time.clock >>> 40).toNat
/-- Chip time in units of 0.25 ns (R43). -/
def State.nowQ (s : State) : Nat := (s.time.clock >>> 38).toNat % 2 ^ 64
/-- The epoch that the die's units have observed (R54). -/
def State.epoch (s : State) : Nat := s.time.epochSeen
/-- Chip time moves on to ns, and never back (R42). Log entry 5 (DESIGN CHOICE). -/
def State.advanceTo (s : State) (ns : Nat) : State :=
  if s.now < ns then { s with time := { s.time with clock := BitVec.ofNat 104 (ns <<< 40) } } else s

/-! ## Banks -/

def State.bank (s : State) (i : Nat) : Bank := if i = 0 then s.banks[0] else s.banks[1]

def State.setBank (s : State) (i : Nat) (b : Bank) : State :=
  { s with banks := if i = 0 then s.banks.set 0 b else s.banks.set 1 b }

/-- Number of the bank that serves an epoch (R190, R346): the next bank from its boundary on, the bank
before the last switch for epochs before it, the bank of the plan in force otherwise. -/
def State.bankIdx (s : State) (epoch : Nat) : Nat :=
  let other := 1 - s.bankNow
  match s.boot.next, s.boot.lastSwitch with
  | some n, _ => if n.epoch ≤ epoch then other else s.bankNow
  | none, some b => if epoch < b then other else s.bankNow
  | none, none => s.bankNow

/-- The route block that serves an epoch. -/
def State.routes (s : State) (epoch : Nat) : List Byte := (s.bank (s.bankIdx epoch)).block

/-- Cores issue: the boot plan's threads have started, the die has not tripped and has not been pruned
(R40, R60, R364). Log entry 6 (DESIGN CHOICE). -/
def State.running (s : State) : Bool := s.boot.running && !s.pace.tripped && !s.stopped

/-- Site of a logical core that is in service in the bank of the current epoch, and loaded (R356).  After a trip no core
takes a result, so that no event reaches one (R40). -/
def State.siteOf (s : State) (row col : Nat) : Option Nat :=
  (blkCore (s.routes s.epoch) row col).filter fun site => !s.awaiting.contains site && !s.pace.tripped

end Sys2Proof.Machine
end

