-- ==== Sys2Proof/Machine/Operands.lean ====
section
/-! DEFINITION. Register operands of a thread (R59, R89): reads, writes, parity and poison marks, and
the extension of immediates (R68). -/

namespace Sys2Proof.Machine

/-- A write makes good parity, ends poison, and no earlier result is awaited any more (R59, R67, R72). -/
def Thread.clearMarks (th : Thread) (r : RegRef) : Thread :=
  { th with
    badParity := th.badParity.filter (· != r)
    poison := th.poison.filter (·.1 != r)
    waiting := th.waiting.filter (·.1 != r)
    late := th.late.filter (·.1 != r) }

/-- x0 reads zero (R59). -/
def Thread.rx (th : Thread) (n : BitVec 5) : W64 := if n = 0 then 0 else th.x[n.toNat]'n.isLt
/-- Writes to x0 are discarded (R59). -/
def Thread.wx (th : Thread) (n : BitVec 5) (v : W64) : Thread :=
  if n = 0 then th else { th.clearMarks (.x n) with x := th.x.set n.toNat v n.isLt }

def Thread.rf (th : Thread) (n : BitVec 5) : W64 := th.f[n.toNat]'n.isLt
def Thread.wf (th : Thread) (n : BitVec 5) (v : W64) : Thread :=
  { th.clearMarks (.f n) with f := th.f.set n.toNat v n.isLt }
/-- A binary32 source ignores bits [63:32] (R59). -/
def Thread.rf32 (th : Thread) (n : BitVec 5) : W32 := (th.rf n).truncate 32
/-- A binary32 result writes zero to bits [63:32] (R59). -/
def Thread.wf32 (th : Thread) (n : BitVec 5) (v : W32) : Thread := th.wf n (v.zeroExtend 64)

def Thread.rv (th : Thread) (n : BitVec 5) : V1024 := th.v[n.toNat]'n.isLt
def Thread.wv (th : Thread) (n : BitVec 5) (v : V1024) : Thread :=
  { th.clearMarks (.v n) with v := th.v.set n.toNat v n.isLt }

/-- m0 reads all ones (R89). -/
def Thread.rm' (th : Thread) (n : BitVec 3) : W32 := if n = 0 then BitVec.allOnes 32 else th.m[n.toNat]'n.isLt
/-- Writes to m0 are discarded (R89). -/
def Thread.wm (th : Thread) (n : BitVec 3) (v : W32) : Thread :=
  if n = 0 then th else { th.clearMarks (.m n) with m := th.m.set n.toNat v n.isLt }

def Thread.rmx (th : Thread) (n : BitVec 2) : V1024 := th.mx[n.toNat]'n.isLt
def Thread.wmx (th : Thread) (n : BitVec 2) (v : V1024) : Thread :=
  { th.clearMarks (.mx n) with mx := th.mx.set n.toNat v n.isLt }

/-- Some source register awaits a load (R61). -/
def Thread.stalled (th : Thread) (src : List RegRef) : Bool :=
  src.any fun r => th.waiting.any (·.1 == r)

/-! ## Immediates -/

def sext16 (i : BitVec 16) : W64 := i.signExtend 64
def zext16 (i : BitVec 16) : W64 := i.zeroExtend 64
/-- The W form of a result: bits [31:0], sign-extended (R68). -/
def sextW (v : W32) : W64 := v.signExtend 64

/-! ## Lanes (R89) -/

def lane32 (v : V1024) (i : Nat) : W32 := v.extractLsb' (32 * i) 32
def lane64 (v : V1024) (i : Nat) : W64 := v.extractLsb' (64 * i) 64
def byteOf (v : V1024) (i : Nat) : Byte := v.extractLsb' (8 * i) 8
/-- Number that 32-bit lanes spell, lane 0 first. -/
def lanes32 : List W32 → Nat
  | [] => 0
  | a :: r => a.toNat + 2 ^ 32 * lanes32 r
def lanes64 : List W64 → Nat
  | [] => 0
  | a :: r => a.toNat + 2 ^ 64 * lanes64 r
def ofLanes32 (l : List W32) : V1024 := BitVec.ofNat 1024 (lanes32 l)
def ofLanes64 (l : List W64) : V1024 := BitVec.ofNat 1024 (lanes64 l)
def vBytes (v : V1024) : List Byte := leBytes 128 v.toNat
def ofVBytes (b : List Byte) : V1024 := BitVec.ofNat 1024 (leNat b)

end Sys2Proof.Machine
end

