-- ==== Sys2Proof/Machine/Sources.lean ====
section
/-! DEFINITION. The source registers of every instruction (R61, R77).  A masked or partial write reads its
destination, whose other lanes it keeps (R90). -/

namespace Sys2Proof.Machine

/-- The mask of a masked instruction; m0 is no register that can await or fail (R89). Log entry 22 (DEDUCED). -/
def maskSrc (m : BitVec 3) : List RegRef := if m = 0 then [] else [.m m]
/-- The mask, and the destination whose inactive lanes are kept (R90). Log entry 22 (DEDUCED). -/
def partSrc (m : BitVec 3) (vd : BitVec 5) : List RegRef := if m = 0 then [] else [.m m, .v vd]
/-- A narrowing VCVT leaves the other segments of vd as they are (R96). -/
def cvtPartial (o : VcvtOp) : Bool :=
  match cvtPair o.src.toNat o.dst.toNat with
  | some (_, _, segs, exact) => decide (1 < segs) && !exact
  | none => false
/-- The data register of a tagged access, by its size code (Table 6-3). -/
def tagReg (o : TagOp) : RegRef :=
  match o.sz.toNat with
  | 0 => .x o.r
  | 1 => .f o.r
  | _ => .v o.r

/-- The source registers of an instruction. Log entry 22 (DEDUCED). -/
def sources : Instr → List RegRef
  | .add _ o => [.x o.ra, .x o.rb]
  | .sub _ o => [.x o.ra, .x o.rb]
  | .andR _ o => [.x o.ra, .x o.rb]
  | .orR _ o => [.x o.ra, .x o.rb]
  | .xorR _ o => [.x o.ra, .x o.rb]
  | .andn _ o => [.x o.ra, .x o.rb]
  | .sll _ o => [.x o.ra, .x o.rb]
  | .srl _ o => [.x o.ra, .x o.rb]
  | .sra _ o => [.x o.ra, .x o.rb]
  | .ror _ o => [.x o.ra, .x o.rb]
  | .lts _ o => [.x o.ra, .x o.rb]
  | .ltu _ o => [.x o.ra, .x o.rb]
  | .minS _ o => [.x o.ra, .x o.rb]
  | .maxS _ o => [.x o.ra, .x o.rb]
  | .minu _ o => [.x o.ra, .x o.rb]
  | .maxu _ o => [.x o.ra, .x o.rb]
  | .clz _ o => [.x o.ra]
  | .ctz _ o => [.x o.ra]
  | .popc _ o => [.x o.ra]
  | .mul _ o => [.x o.ra, .x o.rb]
  | .mulhiS _ o => [.x o.ra, .x o.rb]
  | .mulhiU _ o => [.x o.ra, .x o.rb]
  | .mulhiSu _ o => [.x o.ra, .x o.rb]
  | .div _ o => [.x o.ra, .x o.rb]
  | .divu _ o => [.x o.ra, .x o.rb]
  | .rem _ o => [.x o.ra, .x o.rb]
  | .remu _ o => [.x o.ra, .x o.rb]
  | .addi _ o => [.x o.ra]
  | .andi _ o => [.x o.ra]
  | .ori _ o => [.x o.ra]
  | .xori _ o => [.x o.ra]
  | .ltsi _ o => [.x o.ra]
  | .ltui _ o => [.x o.ra]
  | .slli _ o => [.x o.ra]
  | .srli _ o => [.x o.ra]
  | .srai _ o => [.x o.ra]
  | .rori _ o => [.x o.ra]
  | .beq _ o => [.x o.ra, .x o.rb]
  | .bne _ o => [.x o.ra, .x o.rb]
  | .blt _ o => [.x o.ra, .x o.rb]
  | .bge _ o => [.x o.ra, .x o.rb]
  | .bltu _ o => [.x o.ra, .x o.rb]
  | .bgeu _ o => [.x o.ra, .x o.rb]
  | .jlr _ o => [.x o.ra]
  | .ldB _ o => [.x o.ra]
  | .ldBu _ o => [.x o.ra]
  | .ldH _ o => [.x o.ra]
  | .ldHu _ o => [.x o.ra]
  | .ldW _ o => [.x o.ra]
  | .ldWu _ o => [.x o.ra]
  | .ldD _ o => [.x o.ra]
  | .stB _ o => [.x o.ra, .x o.rd]
  | .stH _ o => [.x o.ra, .x o.rd]
  | .stW _ o => [.x o.ra, .x o.rd]
  | .stD _ o => [.x o.ra, .x o.rd]
  | .fldS _ o => [.x o.ra]
  | .fldD _ o => [.x o.ra]
  | .fstS _ o => [.x o.ra, .f o.rd]
  | .fstD _ o => [.x o.ra, .f o.rd]
  | .fadd _ o => [.f o.ra, .f o.rb]
  | .fsub _ o => [.f o.ra, .f o.rb]
  | .fmul _ o => [.f o.ra, .f o.rb]
  | .fdiv _ o => [.f o.ra, .f o.rb]
  | .fsqrt _ o => [.f o.ra]
  | .fmin _ o => [.f o.ra, .f o.rb]
  | .fmax _ o => [.f o.ra, .f o.rb]
  | .fsgnC _ o => [.f o.ra, .f o.rb]
  | .fsgnN _ o => [.f o.ra, .f o.rb]
  | .fsgnX _ o => [.f o.ra, .f o.rb]
  | .feq _ o => [.f o.ra, .f o.rb]
  | .flt _ o => [.f o.ra, .f o.rb]
  | .fle _ o => [.f o.ra, .f o.rb]
  | .fclass _ o => [.f o.ra]
  | .ftoiS64 _ o => [.f o.ra]
  | .ftoiU64 _ o => [.f o.ra]
  | .ftoiS32 _ o => [.f o.ra]
  | .ftoiU32 _ o => [.f o.ra]
  | .itofS64 _ o => [.x o.ra]
  | .itofU64 _ o => [.x o.ra]
  | .itofS32 _ o => [.x o.ra]
  | .itofU32 _ o => [.x o.ra]
  | .fnarrow _ o => [.f o.ra]
  | .fwiden _ o => [.f o.ra]
  | .movfx _ o => [.f o.ra]
  | .movxf _ o => [.x o.ra]
  | .fmadd _ o => [.f o.ra, .f o.rb, .f o.rc]
  | .fmsub _ o => [.f o.ra, .f o.rb, .f o.rc]
  | .fnmadd _ o => [.f o.ra, .f o.rb, .f o.rc]
  | .fnmsub _ o => [.f o.ra, .f o.rb, .f o.rc]
  | .loopI _ o => [.x o.ra]
  | .settc _ o => [.x o.ra]
  | .waitt _ o => [.x o.ra]
  | .wrcr _ o => [.x o.ra]
  | .vld _ o => [.x o.ra] ++ partSrc o.m o.vd
  | .vst _ o => [.x o.ra, .v o.vd] ++ maskSrc o.m
  | .vldsW _ o => [.x o.ra, .x o.rb] ++ partSrc o.m o.vd
  | .vstsW _ o => [.x o.ra, .x o.rb, .v o.vd] ++ maskSrc o.m
  | .vldsD _ o => [.x o.ra, .x o.rb] ++ partSrc o.m o.vd
  | .vstsD _ o => [.x o.ra, .x o.rb, .v o.vd] ++ maskSrc o.m
  | .vbcW _ o => [.x o.ra] ++ partSrc o.m o.vd
  | .vbcD _ o => [.x o.ra] ++ partSrc o.m o.vd
  | .vadd _ o => [.v o.va, .v o.vb] ++ partSrc o.m o.vd
  | .vsub _ o => [.v o.va, .v o.vb] ++ partSrc o.m o.vd
  | .vand _ o => [.v o.va, .v o.vb] ++ partSrc o.m o.vd
  | .vor _ o => [.v o.va, .v o.vb] ++ partSrc o.m o.vd
  | .vxor _ o => [.v o.va, .v o.vb] ++ partSrc o.m o.vd
  | .vsll _ o => [.v o.va, .v o.vb] ++ partSrc o.m o.vd
  | .vsrl _ o => [.v o.va, .v o.vb] ++ partSrc o.m o.vd
  | .vsra _ o => [.v o.va, .v o.vb] ++ partSrc o.m o.vd
  | .vmin _ o => [.v o.va, .v o.vb] ++ partSrc o.m o.vd
  | .vmax _ o => [.v o.va, .v o.vb] ++ partSrc o.m o.vd
  | .vminu _ o => [.v o.va, .v o.vb] ++ partSrc o.m o.vd
  | .vmaxu _ o => [.v o.va, .v o.vb] ++ partSrc o.m o.vd
  | .vmul _ o => [.v o.va, .v o.vb] ++ partSrc o.m o.vd
  | .vcmpeq _ o => [.v o.va, .v o.vb] ++ maskSrc o.m
  | .vcmplt _ o => [.v o.va, .v o.vb] ++ maskSrc o.m
  | .vcmpltu _ o => [.v o.va, .v o.vb] ++ maskSrc o.m
  | .vsplat _ o => [.x o.xa] ++ partSrc o.m o.vd
  | .vext _ o => [.v o.va, .x o.xb]
  | .vins _ o => [.x o.xa, .x o.xb, .v o.vd]
  | .vperm _ o => [.v o.va, .v o.vb] ++ partSrc o.m o.vd
  | .vpermb _ o => [.v o.va, .v o.vb]
  | .vsel _ o => [.v o.va, .v o.vb] ++ maskSrc o.m
  | .vfadd _ o => [.v o.va, .v o.vb] ++ partSrc o.m o.vd
  | .vfsub _ o => [.v o.va, .v o.vb] ++ partSrc o.m o.vd
  | .vfmul _ o => [.v o.va, .v o.vb] ++ partSrc o.m o.vd
  | .vfdiv _ o => [.v o.va, .v o.vb] ++ partSrc o.m o.vd
  | .vfsqrt _ o => [.v o.va] ++ partSrc o.m o.vd
  | .vfmin _ o => [.v o.va, .v o.vb] ++ partSrc o.m o.vd
  | .vfmax _ o => [.v o.va, .v o.vb] ++ partSrc o.m o.vd
  | .vfamax _ o => [.v o.va, .v o.vb] ++ partSrc o.m o.vd
  | .vfsgnC _ o => [.v o.va, .v o.vb] ++ partSrc o.m o.vd
  | .vfsgnN _ o => [.v o.va, .v o.vb] ++ partSrc o.m o.vd
  | .vfsgnX _ o => [.v o.va, .v o.vb] ++ partSrc o.m o.vd
  | .vfcmpeq _ o => [.v o.va, .v o.vb] ++ maskSrc o.m
  | .vfcmplt _ o => [.v o.va, .v o.vb] ++ maskSrc o.m
  | .vfcmple _ o => [.v o.va, .v o.vb] ++ maskSrc o.m
  | .vfclass _ o => [.v o.va] ++ partSrc o.m o.vd
  | .vfrmax _ o => [.v o.va] ++ maskSrc o.m
  | .vfrmin _ o => [.v o.va] ++ maskSrc o.m
  | .vframax _ o => [.v o.va] ++ maskSrc o.m
  | .vfrsum _ o => [.v o.va] ++ maskSrc o.m
  | .vfmadd _ o => [.v o.va, .v o.vb, .v o.vc] ++ partSrc o.m o.vd
  | .vfmsub _ o => [.v o.va, .v o.vb, .v o.vc] ++ partSrc o.m o.vd
  | .vfnmadd _ o => [.v o.va, .v o.vb, .v o.vc] ++ partSrc o.m o.vd
  | .vfnmsub _ o => [.v o.va, .v o.vb, .v o.vc] ++ partSrc o.m o.vd
  | .vcvt _ o => [.v o.va] ++ (if cvtPartial o then [.v o.vd] else [])
  | .vmxDown _ o => [.v o.va, .x o.rb, .v o.vd] ++ (if o.mxen then [.mx o.mxs] else [])
  | .vmxUp _ o => [.v o.va, .x o.rb]
  | .vmand _ o => [.m o.ma, .m o.mb]
  | .vmor _ o => [.m o.ma, .m o.mb]
  | .vmxor _ o => [.m o.ma, .m o.mb]
  | .vmandn _ o => [.m o.ma, .m o.mb]
  | .vmpopc _ o => [.m o.ma]
  | .vmfirst _ o => [.m o.ma]
  | .vmfx _ o => [.x o.xa]
  | .vmtx _ o => [.m o.ma]
  | .vmxr _ o => [.mx o.mx]
  | .vmxw _ o => [.v o.va]
  | .vmxs _ o => [.mx o.mx]
  | .vcrc64 _ o => [.x o.xd, .v o.va, .x o.xb]
  | .tld _ o => [.x o.ra, .x o.rb]
  | .tst _ o => [.x o.ra, .x o.rb]
  | .tlds _ o => [.x o.ra, .x o.rb]
  | .tsts _ o => [.x o.ra, .x o.rb]
  | .tscw _ o => [.v o.va, .x o.rb]
  | .tscf _ o => [.x o.ra]
  | .twr _ o => [.v o.va, .x o.rb]
  | .trd _ o => [.x o.rb]
  | .ard _ o => [.x o.rb]
  | .awr _ o => [.v o.va, .x o.rb]
  | .ascr _ o => [.v o.va]
  | .asubr _ o => [.v o.va]
  | .lde _ o => [.x o.ra]
  | .ldk _ o => [.x o.ra]
  | .stf _ o => [.x o.ra, tagReg o]
  | .stp _ o => [.x o.ra, tagReg o]
  | .tprobe _ o => [.x o.ra]
  | .tsete _ o => [.x o.ra, .x o.rb]
  | .tsetf _ o => [.x o.ra, .x o.rb]
  | .szero _ o => [.x o.ra, .x o.rb]
  | .ldvD _ o => [.x o.ra]
  | .ldvW _ o => [.x o.ra]
  | .ldvL _ o => [.x o.ra]
  | .winv _ o => [.x o.ra, .x o.rb]
  | .amoAdd _ o => [.x o.ra, .x o.rb]
  | .amoAnd _ o => [.x o.ra, .x o.rb]
  | .amoOr _ o => [.x o.ra, .x o.rb]
  | .amoXor _ o => [.x o.ra, .x o.rb]
  | .amoMin _ o => [.x o.ra, .x o.rb]
  | .amoMax _ o => [.x o.ra, .x o.rb]
  | .amoMinu _ o => [.x o.ra, .x o.rb]
  | .amoMaxu _ o => [.x o.ra, .x o.rb]
  | .amoSwap _ o => [.x o.ra, .x o.rb]
  | .amoCas _ o => [.x o.ra, .x o.rb, .x o.rd]
  | .send _ o => [.x o.ra, .x o.rb] ++ (if o.rc = 0 then [] else [.x o.rc])
  | .qdone _ o => [.x o.ra]
  | .hent _ o => [.x o.ra]
  | _ => []

/-! ## Matrix registers (R117, R125), by register code: 0 to 7 tiles, 8 to 11 accumulators, 12 to 15 scale tiles -/

def tlCode (n : BitVec 3) : BitVec 4 := n.zeroExtend 4
def acCode (n : BitVec 2) : BitVec 4 := 8#4 ||| n.zeroExtend 4
def scCode (n : BitVec 2) : BitVec 4 := 12#4 ||| n.zeroExtend 4

/-- Matrix registers that an instruction reads. -/
def matReads : Instr → List (BitVec 4)
  | .tst _ o => [o.src]
  | .tsts _ o => [scCode o.sc]
  | .trd _ o => [tlCode o.ts]
  | .trl _ o => [tlCode o.td]
  | .mma _ o => (if o.zero then [] else [acCode o.acd]) ++ [tlCode o.ta, tlCode o.tb] ++
      (if o.mx then [scCode o.sa, scCode o.sb] else [])
  | .acopy _ o => [acCode o.acs]
  | .amax _ o => [acCode o.acd, acCode o.acs]
  | .amin _ o => [acCode o.acd, acCode o.acs]
  | .ard _ o => [acCode o.acs]
  | .armax _ o => [acCode o.acs]
  | .armin _ o => [acCode o.acs]
  | .ascr _ o => [acCode o.acd]
  | .asubr _ o => [acCode o.acd]
  | _ => []

/-- Matrix registers that an instruction writes. -/
def matWrites : Instr → List (BitVec 4)
  | .tld _ o => [o.tgt]
  | .tlds _ o => [scCode o.sc]
  | .tscw _ o => [scCode o.sc]
  | .tscf _ o => [scCode o.sc]
  | .twr _ o => [tlCode o.td]
  | .trl _ o => [tlCode o.td]
  | .tz _ o => [tlCode o.td]
  | .mma _ o => [acCode o.acd]
  | .azero _ o => [acCode o.acd]
  | .acopy _ o => [acCode o.acd]
  | .amax _ o => [acCode o.acd]
  | .amin _ o => [acCode o.acd]
  | .awr _ o => [acCode o.acd]
  | .ascr _ o => [acCode o.acd]
  | .asubr _ o => [acCode o.acd]
  | _ => []

/-- MMA and the accumulator group are the matrix-engine instructions (R124). -/
def usesEngine : Instr → Bool
  | .mma _ _ => true
  | .azero _ _ => true
  | .acopy _ _ => true
  | .amax _ _ => true
  | .amin _ _ => true
  | .ard _ _ => true
  | .awr _ _ => true
  | .armax _ _ => true
  | .armin _ _ => true
  | .ascr _ _ => true
  | .asubr _ _ => true
  | _ => false

end Sys2Proof.Machine
end

