-- ==== Sys2Proof/Machine/Ops.lean ====
section
/-! DEFINITION. Shared operations: cores and threads, events and error lines, taking a fault (R76, R78),
retiring an instruction and its loop (R74), and issue (R61, R77). -/

namespace Sys2Proof.Machine

/-! ## Cores and threads -/

def State.core (s : State) (site : Nat) : Core := s.cores.at site {}
def State.setCore (s : State) (site : Nat) (c : Core) : State := { s with cores := s.cores.put site c }
def State.modCore (s : State) (site : Nat) (f : Core → Core) : State := s.setCore site (f (s.core site))
def Core.thr (c : Core) (t : BitVec 2) : Thread := c.threads[t.toNat]'t.isLt
def Core.setThr (c : Core) (t : BitVec 2) (th : Thread) : Core :=
  { c with threads := c.threads.set t.toNat th t.isLt }
/-- Log entry 6 (DESIGN CHOICE). -/
def State.thr (s : State) (site : Nat) (t : BitVec 2) : Thread := (s.core site).thr t
def State.setThr (s : State) (site : Nat) (t : BitVec 2) (th : Thread) : State :=
  s.modCore site fun c => c.setThr t th
def State.modThr (s : State) (site : Nat) (t : BitVec 2) (f : Thread → Thread) : State :=
  s.setThr site t (f (s.thr site t))

/-! ## Events and error lines -/

namespace Ev
def thrFault : Nat := 0x080
def thrStop : Nat := 0x081
def hbLapse : Nat := 0x082
def tileRowfault : Nat := 0x083
def tileCheck : Nat := 0x084
def spdCe : Nat := 0x085
def spdUe : Nat := 0x086
def spdDepositFull : Nat := 0x087
def spdTagTimeout : Nat := 0x088
def spdScrubLate : Nat := 0x089
def spdWcParity : Nat := 0x08A
def scnRefused : Nat := 0x08B
def scnMalformed : Nat := 0x08C
def scnAfull : Nat := 0x08D
def scnSpilled : Nat := 0x08E
def scnSpillLost : Nat := 0x08F
def scnRetry : Nat := 0x090
def scnBounce : Nat := 0x091
def scnStale : Nat := 0x092
def scnSwitchDrop : Nat := 0x093
def ringHdrCe : Nat := 0x094
def ringHdrUe : Nat := 0x095
def ringAged : Nat := 0x096
def ringDest : Nat := 0x097
def paceAlarm : Nat := 0x098
def thermWarn : Nat := 0x099
def timeOutlier : Nat := 0x09A
def timeMalformed : Nat := 0x09B
def timeFar : Nat := 0x09C
def timeHoldover : Nat := 0x09D
def timeFailover : Nat := 0x09E
def ringEdgeHdrUe : Nat := 0x09F
def ringEdgeAged : Nat := 0x0A0
def stkCe : Nat := 0x0A2
def stkUe : Nat := 0x0A3
def stkCrc : Nat := 0x0A4
def stkMalformed : Nat := 0x0A5
def stkBurstRefused : Nat := 0x0A6
def stkBurstAbandon : Nat := 0x0A7
def stkIsolate : Nat := 0x0A8
def stkRetire : Nat := 0x0A9
def stkFailed : Nat := 0x0AA
def strmRefused : Nat := 0x0AB
def strmDescLost : Nat := 0x0AC
def strmLate : Nat := 0x0AD
def lnkCrc : Nat := 0x0AE
def lnkFecUncorr : Nat := 0x0AF
def lnkTag : Nat := 0x0B0
def lnkMalformed : Nat := 0x0B1
def lnkReplay : Nat := 0x0B2
def lnkRetrain : Nat := 0x0B3
def lnkLaneSwap : Nat := 0x0B4
def lnkDrop : Nat := 0x0B5
def lnkOverrun : Nat := 0x0B6
def lnkCreditBad : Nat := 0x0B7
def lnkStall : Nat := 0x0B8
def lnkLateResp : Nat := 0x0B9
def lnkHops : Nat := 0x0BA
def lnkEpochApart : Nat := 0x0BB
def admFail : Nat := 0x0BC
def admFilter : Nat := 0x0BD
def admAcap : Nat := 0x0BE
def admQuarantine : Nat := 0x0BF
def ringEdgeHdrCe : Nat := 0x0C5
def ringEdgeDest : Nat := 0x0C6
/-- Events of Table 14-7's last row. -/
def ueType : List Nat := [spdUe, stkUe, ringHdrUe, ringEdgeHdrUe, tileCheck, strmDescLost, scnSpillLost]
end Ev

/-- Where an event register is kept (R326). -/
def evKey (crn unit : Nat) : Nat := crn * 1024 + unit

/-- MOD_ERR_CORR_N is asserted; while MOD_ERR_FATAL_N is asserted it holds its level (R327). Log entry 106 (DEDUCED). -/
def State.assertCorr (s : State) : State := if s.errFatal then s else { s with errCorr := true }

/-- One event: count rises by one modulo 2^31 and pending is set (R323). -/
def EvReg.hit (e : EvReg) : EvReg := { e with count := e.count + 1, pending := true }

/-- An event of a register and unit (R323); the events of Table 14-7 also assert MOD_ERR_CORR_N. -/
def State.count (s : State) (crn unit : Nat) : State :=
  let k := evKey crn unit
  let s1 := { s with events := s.events.put k (s.events.at k {}).hit }
  if Ev.ueType.contains crn then { s1 with ueEpoch := some s1.epoch }.assertCorr else s1

/-- n events. -/
def State.countN (s : State) (crn unit : Nat) : Nat → State
  | 0 => s
  | n + 1 => (s.count crn unit).countN crn unit n

/-! ## Faults -/

/-- A fault: THR_FCAUSE and THR_FADDR (Table 3-12). -/
structure FaultRec where
  cause : BitVec 8
  addr : W64
  deferred : Bool := false
  deriving DecidableEq, Repr

namespace Cause
def illegal : BitVec 8 := 0x01
def privileged : BitVec 8 := 0x02
def fetch : BitVec 8 := 0x03
def misaligned : BitVec 8 := 0x04
def address : BitVec 8 := 0x05
def dataError : BitVec 8 := 0x06
def parity : BitVec 8 := 0x07
def tagTimeout : BitVec 8 := 0x08
def loop : BitVec 8 := 0x09
def trap : BitVec 8 := 0x0A
def vctl : BitVec 8 := 0x10
end Cause

/-- THR_FADDR of a PARITY fault (Table 3-12, R91). -/
def parityCode : RegRef → W64
  | .x n => n.zeroExtend 64
  | .f n => 0x40#64 ||| n.zeroExtend 64
  | .v n => 0x80#64 ||| n.zeroExtend 64
  | .m n => 0xC0#64 ||| n.zeroExtend 64
  | .mx n => 0xC8#64 ||| n.zeroExtend 64

/-- PARITY, then deferred DATA_ERROR, on the source registers (R72, R77). Of several that fail parity THR_FADDR
names the first in the order of the sources list (R91). Log entries 21 (DEDUCED), 127 (DESIGN CHOICE). -/
def Thread.sourceFault (th : Thread) (src : List RegRef) : Option FaultRec :=
  match src.find? (th.badParity.contains ·) with
  | some r => some { cause := Cause.parity, addr := parityCode r }
  | none => (src.findSome? fun r => (th.poison.find? (·.1 == r)).map (·.2.1)).map fun a =>
      { cause := Cause.dataError, addr := a, deferred := true }

/-- The poison marks that a fault has told of (R72). Log entry 21 (DEDUCED). -/
def Thread.tellPoison (th : Thread) (a : W64) : Thread :=
  { th with poison := th.poison.map fun p => if p.2.1 = a then (p.1, p.2.1, true) else p }

/-- Taking a fault: the handler starts (R76), or the thread stops (R78). Log entries 24 (DEDUCED), 107 (DEDUCED). -/
def State.raise (s : State) (site : Nat) (t : BitVec 2) (f : FaultRec) : State :=
  let th := s.thr site t
  let th1 := { th with cause := f.cause, deferred := f.deferred, faddr := f.addr, block := .none }
  let th2 := if f.deferred then th1.tellPoison f.addr else th1
  if th.inFault || !th.fvecEnable then
    ((s.setThr site t { th2 with st := .stop }).count Ev.thrStop site).assertCorr
  else
    (s.setThr site t { th2 with
      st := .run
      fpc := th.pc.extractLsb' 2 13
      inFault := true
      loopFrozen := th.loopActive
      pc := th.fvecEntry ++ 0#2 }).count Ev.thrFault site

/-! ## Retiring an instruction -/

/-- The instruction at pc ends without a taken transfer: the next word, or the loop's first (R74).
Log entries 23 (DEDUCED), 29 (DEDUCED). -/
def Thread.retire (th : Thread) : Thread :=
  if th.loopActive && !th.loopFrozen && th.pc == th.lend then
    if 1 < th.lcnt then { th with lcnt := th.lcnt - 1, pc := th.lbeg }
    else { th with lcnt := 0, loopActive := false, pc := th.pc + 4 }
  else { th with pc := th.pc + 4 }

/-- A taken transfer; one that leaves the body ends the loop (R74). Log entry 23 (DEDUCED). -/
def Thread.transfer (th : Thread) (target : BitVec 15) : Thread :=
  if th.loopActive && !th.loopFrozen && (target < th.lbeg || th.lend < target) then
    { th with lcnt := 0, loopActive := false, pc := target }
  else { th with pc := target }

/-! ## Issue -/

/-- What an instruction does once its sources are good: a fault, or the state after it. -/
abbrev Body := Nat → Core → Thread → Except FaultRec State

/-- ILLEGAL_INSTR names the instruction word (Table 3-12). Log entry 24 (DEDUCED). -/
def illegalFault (i : Instr) : FaultRec := { cause := Cause.illegal, addr := (encodeWord i).zeroExtend 64 }

/-- The faults that rank before the source checks (R77): a malformed word (R66), then the instruction's own.
Log entry 24 (DEDUCED). -/
def earlyFault (i : Instr) (own : Option FaultRec) : Option FaultRec :=
  if i.wf then own else some (illegalFault i)

/-- The instruction waits for an earlier tile operation or MMA of its thread (R117, R125). -/
def Core.hazard (c : Core) (t : BitVec 2) (i : Instr) : Bool :=
  let rd := matReads i
  let wr := matWrites i
  c.tileOps.any (fun o => o.thread == t && (wr.contains o.reg || (!o.store && rd.contains o.reg))) ||
  (match c.mma with
   | some m =>
     m.thread == t && (wr.any (fun r => (matReads (.mma ⟨0, 0, t⟩ m.op) ++ [acCode m.op.acd]).contains r) ||
       rd.contains (acCode m.op.acd))
   | none => false)

/-- The word at a thread's pc, as the instruction of that thread. -/
def Core.head (c : Core) (row col : BitVec 5) (t : BitVec 2) : Option Instr :=
  decodeWord ⟨row, col, t⟩ (c.istore.at ((c.thr t).pc.toNat / 4) 0)

/-- The matrix engine accepts an instruction of thread t: it is free, and no class A thread in RUN that has
an engine instruction at its head goes before a thread of another class (R65). -/
def Core.engineFor (c : Core) (a : ThreadAt) (i : Instr) : Bool :=
  !usesEngine i || (c.mma.isNone && ((c.thr a.t).cls == 1 ||
    ([0, 1, 2, 3] : List (BitVec 2)).all fun u =>
      !((c.thr u).st == .run && (c.thr u).cls == 1 && u != a.t &&
        (match c.head a.row a.col u with
         | some j => usesEngine j
         | none => false))))

/-- Thread a may issue instruction i now: RUN, sources hold their results, hazards over, engine free (R61). -/
def Core.readyFor (c : Core) (a : ThreadAt) (i : Instr) : Bool :=
  (c.thr a.t).st == .run && !(c.thr a.t).stalled (sources i) && !c.hazard a.t i && c.engineFor a i

/-- Thread a issues instruction i.  It does nothing unless the thread is in RUN and its sources hold their
results (R61); early faults rank before the source checks, which rank before the body's own (R77).
Log entries 6 (DESIGN CHOICE), 24 (DEDUCED). -/
def State.issue (s : State) (i : Instr) (a : ThreadAt) (early : Thread → Option FaultRec)
    (body : Body) : Out :=
  match s.siteOf a.row.toNat a.col.toNat with
  | none => .next s
  | some site =>
    let c := s.core site
    let th := c.thr a.t
    if s.running && c.readyFor a i then
      match (earlyFault i (early th)).or (th.sourceFault (sources i)) with
      | some f => .next (s.raise site a.t f)
      | none =>
        match body site c th with
        | .error f => .next (s.raise site a.t f)
        | .ok s' => .next s'
    else .next s

def noEarly (_ : Thread) : Option FaultRec := none

/-- An instruction that only changes its thread's registers, and retires. Log entry 8 (DESIGN CHOICE). -/
def State.issueReg (s : State) (i : Instr) (a : ThreadAt) (f : Thread → Thread) : Out :=
  s.issue i a noEarly fun site _ th => .ok (s.setThr site a.t (f th).retire)

/-- As issueReg, with faults of its own. -/
def State.issueTry (s : State) (i : Instr) (a : ThreadAt)
    (early : Thread → Option FaultRec) (f : Thread → Except FaultRec Thread) : Out :=
  s.issue i a early fun site _ th => (f th).map fun th' => s.setThr site a.t th'.retire

/-- A control transfer: the thread after it, pc included. Log entry 23 (DEDUCED). -/
def State.issueJump (s : State) (i : Instr) (a : ThreadAt)
    (early : Thread → Option FaultRec) (f : Thread → Thread) : Out :=
  s.issue i a early fun site _ th => .ok (s.setThr site a.t (f th))

end Sys2Proof.Machine
end

