-- ==== Sys2Proof/Machine/Control.lean ====
section
/-! DEFINITION. Loops, time, parking and traps: LOOP and the SYS instructions that touch only their thread
(Table 3-10, R55, R57, R74, R76). -/

namespace Sys2Proof.Machine

/-- R74 holds of a LOOP: no loop is active, 1 to 8,191 words, none of them past 0x7FFC. -/
def loopOk (o : LoopOp) (th : Thread) : Bool :=
  !th.loopActive && 1 ≤ o.n.toNat && o.n.toNat ≤ 8191 && th.pc.toNat + 4 * o.n.toNat ≤ 0x7FFC

/-- Set up the loop, or skip its body when ra is zero (R74). Log entry 29 (DEDUCED). -/
def loopSetup (o : LoopOp) (th : Thread) : Thread :=
  let last := th.pc + BitVec.ofNat 15 (4 * o.n.toNat)
  let count := th.rx o.ra
  if count = 0 then { th with pc := last + 4 }
  else { th with lcnt := count, lbeg := th.pc + 4, lend := last, loopActive := true, loopFrozen := false, pc := th.pc + 4 }

def execLoopI (t : ThreadAt) (o : LoopOp) (s : State) : Out :=
  s.issue (.loopI t o) t noEarly fun site _ th =>
    if loopOk o th then .ok (s.setThr site t.t (loopSetup o th))
    else .error { cause := Cause.loop, addr := (encodeWord (.loopI t o)).zeroExtend 64 }

/-- rd := chip time (R57). -/
def execRdtime (t : ThreadAt) (o : RdOp) (s : State) : Out :=
  s.issueReg (.rdtime t o) t fun th => th.wx o.rd (BitVec.ofNat 64 s.now)

/-- THR_TCMP := ra. -/
def execSettc (t : ThreadAt) (o : RaOp) (s : State) : Out :=
  s.issueReg (.settc t o) t fun th => { th with tcmp := th.rx o.ra }

/-- The disarmed compare (R55). -/
def tcmpOff : W64 := BitVec.allOnes 64

/-- Chip time has reached a compare; the disarmed one never matches (R55). -/
def State.tcmpReached (s : State) (v : W64) : Bool := v != tcmpOff && decide (v.toNat ≤ s.now)

/-- THR_TCMP := ra, then sleep unless chip time has reached it (R55). -/
def execWaitt (t : ThreadAt) (o : RaOp) (s : State) : Out :=
  s.issueReg (.waitt t o) t fun th =>
    let v := th.rx o.ra
    { th with tcmp := v, st := if s.tcmpReached v then .run else .sleep }

/-- Resume at THR_FPC; ILLEGAL_INSTR when no handler runs. The loop is judged once in_fault clears (R74).
Log entry 29 (DEDUCED). -/
def execFret (t : ThreadAt) (s : State) : Out :=
  s.issueJump (.fret t) t (fun th => if th.inFault then none else some (illegalFault (.fret t))) fun th =>
    ({ th with inFault := false, loopFrozen := false }).transfer (th.fpc ++ 0#2)

def execPark (t : ThreadAt) (s : State) : Out :=
  s.issueReg (.park t) t fun th => { th with st := .park }

/-- Not ready until slot 0 of the next frame (R61). Log entry 7 (DESIGN CHOICE). -/
def execYieldI (t : ThreadAt) (s : State) : Out :=
  s.issueReg (.yieldI t) t fun th => { th with yielded := true }

/-- Raise TRAP with the code in THR_FADDR[10:0]. -/
def execTrap (t : ThreadAt) (o : TrapOp) (s : State) : Out :=
  s.issue (.trap t o) t noEarly fun _ _ _ => .error { cause := Cause.trap, addr := o.code.zeroExtend 64 }

end Sys2Proof.Machine
end

