-- ==== Sys2Proof/Machine/Flags.lean ====
section
/-! DEFINITION. The sticky exception flags of THR_FPCSR (Table 3-19, R73, R95). -/

namespace Sys2Proof.Machine

/-- nx, uf, of, dz, nv in bits 0 to 4. -/
abbrev Flags := BitVec 5
def fNX : Flags := 1
def fUF : Flags := 2
def fOF : Flags := 4
def fDZ : Flags := 8
def fNV : Flags := 16

/-- Flags are sticky: an operation only sets them (R73). -/
def Thread.orFlags (th : Thread) (fl : Flags) : Thread := { th with flags := th.flags ||| fl }

end Sys2Proof.Machine
end

