-- ==== Sys2Proof/Machine/Float.lean ====
section
/-! DEFINITION. Floating-point formats and arithmetic (R82, R85, R86, R88): exact values, one rounding, and
the exception flags. -/

namespace Sys2Proof.Machine

/-! ## Formats -/

/-- What the top codes of a format mean: infinities and NaNs as IEEE 754; NaN in the one top code; neither. -/
inductive Specials where
  | ieee
  | nanOnly
  | none
  deriving DecidableEq, Repr

/-- A floating-point format of Table 4-2: exponent bits, fraction bits, bias. -/
structure FFmt where
  eb : Nat
  mb : Nat
  bias : Nat
  sp : Specials
  deriving DecidableEq, Repr

def binary64 : FFmt := { eb := 11, mb := 52, bias := 1023, sp := .ieee }
def binary32 : FFmt := { eb := 8, mb := 23, bias := 127, sp := .ieee }
def binary16 : FFmt := { eb := 5, mb := 10, bias := 15, sp := .ieee }
def bfloat16 : FFmt := { eb := 8, mb := 7, bias := 127, sp := .ieee }
def fmtE4M3 : FFmt := { eb := 4, mb := 3, bias := 7, sp := .nanOnly }
def fmtE5M2 : FFmt := { eb := 5, mb := 2, bias := 15, sp := .ieee }
def fmtE3M2 : FFmt := { eb := 3, mb := 2, bias := 3, sp := .none }
def fmtE2M3 : FFmt := { eb := 2, mb := 3, bias := 1, sp := .none }
def fmtE2M1 : FFmt := { eb := 2, mb := 1, bias := 1, sp := .none }

def FFmt.width (f : FFmt) : Nat := 1 + f.eb + f.mb
def FFmt.emin (f : FFmt) : Int := 1 - (f.bias : Int)
def FFmt.signBit (f : FFmt) : Nat := 2 ^ (f.eb + f.mb)
/-- Code of the largest finite magnitude. -/
def FFmt.maxCode (f : FFmt) : Nat :=
  match f.sp with
  | .ieee => (2 ^ f.eb - 1) * 2 ^ f.mb - 1
  | .nanOnly => 2 ^ (f.eb + f.mb) - 2
  | .none => 2 ^ (f.eb + f.mb) - 1
def FFmt.infCode (f : FFmt) : Nat := (2 ^ f.eb - 1) * 2 ^ f.mb
/-- The canonical NaN (R86); zero where the format has none (R98). -/
def FFmt.nan (f : FFmt) : Nat :=
  match f.sp with
  | .ieee => f.infCode + 2 ^ (f.mb - 1)
  | .nanOnly => 2 ^ (f.eb + f.mb) - 1
  | .none => 0
def FFmt.withSign (f : FFmt) (neg : Bool) (code : Nat) : Nat := if neg then f.signBit + code else code

/-! ## Values -/

/-- A decoded value; a finite one is (-1)^neg * m * 2^e. -/
inductive FVal where
  | nan (signalling : Bool)
  | inf (neg : Bool)
  | fin (neg : Bool) (m : Nat) (e : Int)
  deriving DecidableEq, Repr

/-- Read a code of a format (R82). -/
def FFmt.decode (f : FFmt) (v : Nat) : FVal :=
  let neg := v.testBit (f.eb + f.mb)
  let x := bits v f.mb f.eb
  let fr := v % 2 ^ f.mb
  if f.sp = .ieee ∧ x = 2 ^ f.eb - 1 then
    if fr = 0 then .inf neg else .nan (!fr.testBit (f.mb - 1))
  else if f.sp = .nanOnly ∧ v % 2 ^ (f.eb + f.mb) = 2 ^ (f.eb + f.mb) - 1 then .nan false
  else if x = 0 then .fin neg fr (f.emin - f.mb)
  else .fin neg (2 ^ f.mb + fr) ((x : Int) - f.bias - f.mb)

def FVal.isNan : FVal → Bool
  | .nan _ => true
  | _ => false
def FVal.isSNan : FVal → Bool
  | .nan s => s
  | _ => false
def FVal.isZero : FVal → Bool
  | .fin _ m _ => m == 0
  | _ => false
def FVal.neg : FVal → FVal
  | .nan s => .nan s
  | .inf n => .inf (!n)
  | .fin n m e => .fin (!n) m e
def FVal.sign : FVal → Bool
  | .nan _ => false
  | .inf n => n
  | .fin n _ _ => n

/-! ## Rounding -/

/-- Rounding directions (R73), and stochastic rounding with its draw (R99). -/
inductive Rnd where
  | nearestEven
  | nearestAway
  | zero
  | up
  | down
  | stochastic (r : Nat)
  deriving DecidableEq, Repr

/-- The direction of a rm code from 1 to 5. -/
def rndOf (rm : BitVec 3) : Rnd :=
  match rm.toNat with
  | 2 => .nearestAway
  | 3 => .zero
  | 4 => .up
  | 5 => .down
  | _ => .nearestEven

/-- Whether sig goes up one when rem / 2^sh of a unit is left over. -/
def roundUp (r : Rnd) (neg : Bool) (sig rem sh : Nat) : Bool :=
  match r with
  | .nearestEven => decide (2 ^ sh < 2 * rem) || (2 * rem == 2 ^ sh && rem != 0 && sig % 2 == 1)
  | .nearestAway => rem != 0 && decide (2 ^ sh ≤ 2 * rem)
  | .zero => false
  | .up => !neg && rem != 0
  | .down => neg && rem != 0
  | .stochastic d => decide (d < rem * 65536 / 2 ^ sh)

/-- m * 2^e in units of 2^q, rounded; and whether anything was left over. -/
def roundAt (r : Rnd) (neg : Bool) (m : Nat) (e q : Int) : Nat × Bool :=
  if q ≤ e then (m <<< (e - q).toNat, false)
  else
    let sh := (q - e).toNat
    let sig := m >>> sh
    let rem := m % 2 ^ sh
    (if roundUp r neg sig rem sh then sig + 1 else sig, rem != 0)

/-- A rounded magnitude: its code, running on past the largest finite one; inexact; tiny after rounding. -/
structure Rounded where
  code : Nat
  inexact : Bool
  tiny : Bool
  deriving DecidableEq, Repr

/-- Round the magnitude m * 2^e, m not zero, to a format (R85, R86). -/
def FFmt.roundMag (f : FFmt) (r : Rnd) (neg : Bool) (m : Nat) (e : Int) : Rounded :=
  let top := (Nat.log2 m : Int) + e
  let q := max top f.emin - f.mb
  let x := roundAt r neg m e q
  let free := (roundAt r neg m e (top - f.mb)).1
  { code := (q + f.mb + f.bias - 1).toNat * 2 ^ f.mb + x.1
    inexact := x.2
    tiny := decide (top < f.emin) && !(decide (free = 2 ^ (f.mb + 1)) && decide (top + 1 = f.emin)) }

/-- The result of an overflow (IEEE 754): infinity or the largest finite value. -/
def FFmt.overflow (f : FFmt) (r : Rnd) (neg : Bool) : Nat :=
  let toMax := match r with
    | .zero => true
    | .up => neg
    | .down => !neg
    | _ => false
  f.withSign neg (if toMax then f.maxCode else f.infCode)

/-- Round a finite value to an IEEE format, with its flags. -/
def FFmt.round (f : FFmt) (r : Rnd) (neg : Bool) (m : Nat) (e : Int) : Nat × Flags :=
  if m = 0 then (f.withSign neg 0, 0)
  else
    let x := f.roundMag r neg m e
    if f.maxCode < x.code then (f.overflow r neg, fOF ||| fNX)
    else (f.withSign neg x.code, if x.inexact then (if x.tiny then fUF ||| fNX else fNX) else 0)

/-- Round any value; a NaN gives the canonical NaN, and a signalling one sets nv (R86). -/
def FFmt.pack (f : FFmt) (r : Rnd) : FVal → Nat × Flags
  | .nan s => (f.nan, if s then fNV else 0)
  | .inf n => (f.withSign n f.infCode, 0)
  | .fin n m e => f.round r n m e

/-! ## Arithmetic on exact values -/

/-- A result: an exact value still to be rounded, and flags. -/
abbrev FRes := FVal × Flags

def fInvalid : FRes := (.nan false, fNV)
/-- A NaN operand gives a NaN; a signalling one sets nv. -/
def nanResult (l : List FVal) : FRes := (.nan false, if l.any (·.isSNan) then fNV else 0)

/-- Signed integer of a finite value in units of 2^e. -/
def scaled (n : Bool) (m : Nat) (em e : Int) : Int :=
  let v := (m <<< (em - e).toNat : Nat)
  if n then -(v : Int) else v

/-- An exact signed sum as a value; an exact zero is -0 only when rounding down, or when both terms are
zeros of that sign. -/
def ofSum (r : Rnd) (bothNegZero : Bool) (v e : Int) : FVal :=
  if v = 0 then .fin (bothNegZero || (r == .down)) 0 e else .fin (decide (v < 0)) v.natAbs e

def fAddFin (r : Rnd) (na : Bool) (ma : Nat) (ea : Int) (nb : Bool) (mb : Nat) (eb : Int) : FVal :=
  if ma = 0 ∧ mb = 0 then .fin (if na = nb then na else r == .down) 0 0
  else
    let e := min ea eb
    ofSum r false (scaled na ma ea e + scaled nb mb eb e) e

def fAdd (r : Rnd) : FVal → FVal → FRes
  | .nan s, b => nanResult [.nan s, b]
  | a, .nan s => nanResult [a, .nan s]
  | .inf a, .inf b => if a = b then (.inf a, 0) else fInvalid
  | .inf a, _ => (.inf a, 0)
  | _, .inf b => (.inf b, 0)
  | .fin na ma ea, .fin nb mb eb => (fAddFin r na ma ea nb mb eb, 0)

def fSub (r : Rnd) (a b : FVal) : FRes := fAdd r a b.neg

def fMul (a b : FVal) : FRes :=
  match a, b with
  | .nan s, b => nanResult [.nan s, b]
  | a, .nan s => nanResult [a, .nan s]
  | .inf n, b => if b.isZero then fInvalid else (.inf (n != b.sign), 0)
  | a, .inf n => if a.isZero then fInvalid else (.inf (n != a.sign), 0)
  | .fin na ma ea, .fin nb mb eb => (.fin (na != nb) (ma * mb) (ea + eb), 0)

/-- fusedMultiplyAdd: 0 times infinity sets nv even beside a NaN addend (R86). -/
def fFma (r : Rnd) (a b c : FVal) : FRes :=
  if a.isNan || b.isNan then nanResult [a, b, c]
  else
    match fMul a b with
    | (.nan _, fl) => (.nan false, fl)
    | (p, _) => fAdd r p c

/-- Quotient bits enough for every format, with a last bit that stands for a remainder. -/
def fDiv : FVal → FVal → FRes
  | .nan s, b => nanResult [.nan s, b]
  | a, .nan s => nanResult [a, .nan s]
  | .inf _, .inf _ => fInvalid
  | .inf a, .fin nb _ _ => (.inf (a != nb), 0)
  | .fin na _ _, .inf b => (.fin (na != b) 0 0, 0)
  | .fin na ma ea, .fin nb mb eb =>
    if mb = 0 then (if ma = 0 then fInvalid else (.inf (na != nb), fDZ))
    else
      let k := 64 + Nat.log2 mb
      let num := ma <<< k
      let q := num / mb
      (.fin (na != nb) (2 * q + (if num % mb = 0 then 0 else 1)) (ea - eb - k - 1), 0)

/-- Integer square root, one bit of the root a round. -/
def isqrtAux (n : Nat) : Nat → Nat → Nat
  | 0, root => root
  | k + 1, root =>
    let t := root + 2 ^ k
    isqrtAux n k (if t * t ≤ n then t else root)
def isqrt (n : Nat) : Nat := isqrtAux n (Nat.log2 n / 2 + 1) 0

def fSqrt : FVal → FRes
  | .nan s => nanResult [.nan s]
  | .inf n => if n then fInvalid else (.inf false, 0)
  | .fin n m e =>
    if m = 0 then (.fin n 0 0, 0)
    else if n then fInvalid
    else
      let k : Nat := if (e % 2) = 0 then 128 else 129
      let v := m <<< k
      let root := isqrt v
      (.fin false (2 * root + (if root * root = v then 0 else 1)) ((e - k) / 2 - 1), 0)

/-! ## Comparison, minimum and maximum -/

/-- Order of two finite or infinite values as -1, 0, 1; zeros are equal. -/
def fCmp : FVal → FVal → Int
  | .inf a, .inf b => if a = b then 0 else if a then -1 else 1
  | .inf a, _ => if a then -1 else 1
  | _, .inf b => if b then 1 else -1
  | .fin na ma ea, .fin nb mb eb =>
    let e := min ea eb
    let x := scaled na ma ea e
    let y := scaled nb mb eb e
    if x < y then -1 else if y < x then 1 else 0
  | .nan _, _ => 0
  | _, .nan _ => 0

def fAbs : FVal → FVal
  | .nan s => .nan s
  | .inf _ => .inf false
  | .fin _ m e => .fin false m e

/-- a orders below b; -0 orders below +0 (R88). -/
def fBelow (a b : FVal) : Bool :=
  let c := fCmp a b
  decide (c < 0) || (c == 0 && a.sign && !b.sign)

/-- Codes of a minimum or maximum under R88. -/
def FFmt.minMax (f : FFmt) (isMax : Bool) (a b : Nat) : Nat × Flags :=
  let x := f.decode a
  let y := f.decode b
  let fl := if x.isSNan || y.isSNan then fNV else 0
  if x.isNan && y.isNan then (f.nan, fl)
  else if x.isNan then (b, fl)
  else if y.isNan then (a, fl)
  else (if fBelow x y == isMax then b else a, fl)

/-- The magnitude of a code. -/
def FFmt.mag (f : FFmt) (a : Nat) : Nat := a % f.signBit

/-- AMAX: the larger magnitude, positive; beside a NaN the other's magnitude (R88). -/
def FFmt.amax (f : FFmt) (a b : Nat) : Nat × Flags :=
  let x := f.decode a
  let y := f.decode b
  let fl := if x.isSNan || y.isSNan then fNV else 0
  if x.isNan && y.isNan then (f.nan, fl)
  else if x.isNan then (f.mag b, fl)
  else if y.isNan then (f.mag a, fl)
  else (max (f.mag a) (f.mag b), fl)

def FFmt.eq (f : FFmt) (a b : Nat) : Bool × Flags :=
  let x := f.decode a
  let y := f.decode b
  if x.isNan || y.isNan then (false, if x.isSNan || y.isSNan then fNV else 0)
  else (fCmp x y == 0, 0)

/-- FLT and FLE signal invalid on any NaN. -/
def FFmt.less (f : FFmt) (orEqual : Bool) (a b : Nat) : Bool × Flags :=
  let x := f.decode a
  let y := f.decode b
  if x.isNan || y.isNan then (false, fNV)
  else
    let c := fCmp x y
    (decide (c < 0) || (orEqual && c == 0), 0)

/-- The class bit (Table 3-9, FCLASS). -/
def FFmt.cls (f : FFmt) (a : Nat) : Nat :=
  match f.decode a with
  | .nan s => if s then 1 else 2
  | .inf n => if n then 4 else 512
  | .fin n m _ =>
    if m = 0 then (if n then 32 else 64)
    else if bits a f.mb f.eb = 0 then (if n then 16 else 128)
    else (if n then 8 else 256)

/-- Sign injection: kind 0 copies, 1 inverts, 2 XORs the sign of b (Table 3-9). -/
def FFmt.signInject (f : FFmt) (kind : Nat) (a b : Nat) : Nat :=
  let sa := a.testBit (f.eb + f.mb)
  let sb := b.testBit (f.eb + f.mb)
  f.withSign (match kind with | 0 => sb | 1 => !sb | _ => sa != sb) (f.mag a)

/-! ## Integers -/

/-- Round a finite value to an integer; and whether it changed. -/
def roundInt (r : Rnd) (n : Bool) (m : Nat) (e : Int) : Int × Bool :=
  let x := roundAt r n m e 0
  (if n then -(x.1 : Int) else x.1, x.2)

/-- Conversion to an integer from lo to hi (R73): NaN gives 0 and out of range saturates, both with nv. -/
def toInteger (r : Rnd) (lo hi : Int) : FVal → Int × Flags
  | .nan _ => (0, fNV)
  | .inf n => (if n then lo else hi, fNV)
  | .fin n m e =>
    let x := roundInt r n m e
    if x.1 < lo then (lo, fNV) else if hi < x.1 then (hi, fNV) else (x.1, if x.2 then fNX else 0)

/-- Conversion from an integer. -/
def FFmt.ofInteger (f : FFmt) (r : Rnd) (v : Int) : Nat × Flags := f.round r (decide (v < 0)) v.natAbs 0

/-! ## Operations on codes -/

/-- Round an exact result and join its flags. -/
def FFmt.finish (f : FFmt) (r : Rnd) (x : FRes) : Nat × Flags :=
  let y := f.pack r x.1
  (y.1, x.2 ||| y.2)

def FFmt.add (f : FFmt) (r : Rnd) (a b : Nat) : Nat × Flags := f.finish r (fAdd r (f.decode a) (f.decode b))
def FFmt.sub (f : FFmt) (r : Rnd) (a b : Nat) : Nat × Flags := f.finish r (fSub r (f.decode a) (f.decode b))
def FFmt.mul (f : FFmt) (r : Rnd) (a b : Nat) : Nat × Flags := f.finish r (fMul (f.decode a) (f.decode b))
def FFmt.div (f : FFmt) (r : Rnd) (a b : Nat) : Nat × Flags := f.finish r (fDiv (f.decode a) (f.decode b))
def FFmt.sqrt (f : FFmt) (r : Rnd) (a : Nat) : Nat × Flags := f.finish r (fSqrt (f.decode a))

/-- The four fused operations: the product and the addend negated before the operation (Table 3-9). -/
def FFmt.fma (f : FFmt) (negProd negAdd : Bool) (r : Rnd) (a b c : Nat) : Nat × Flags :=
  let x := f.decode a
  let z := f.decode c
  f.finish r (fFma r (if negProd then x.neg else x) (f.decode b) (if negAdd then z.neg else z))

end Sys2Proof.Machine
end

