-- ==== Sys2Proof/Machine/Fp.lean ====
section
/-! DEFINITION. The scalar floating-point instructions (Table 3-9, the FMA group, R73) and the sticky flags
of THR_FPCSR. -/

namespace Sys2Proof.Machine

/-- The rounding mode of an instruction: its rm field, or THR_FPCSR.rm where that is 0 (R73). -/
def Thread.effRm (th : Thread) (rm : BitVec 3) : BitVec 3 := if rm = 0 then th.rm else rm
def Thread.rnd (th : Thread) (rm : BitVec 3) : Rnd := rndOf (th.effRm rm)

/-- A dynamic mode met while THR_FPCSR.rm holds no mode raises ILLEGAL_INSTR (R73). -/
def dynFault (i : Instr) (rm : BitVec 3) (th : Thread) : Option FaultRec :=
  let m := (th.effRm rm).toNat
  if 1 ≤ m && m ≤ 5 then none else some (illegalFault i)

/-- The format that the D bit selects (Table 3-9). -/
def fpFmt (d : Bool) : FFmt := if d then binary64 else binary32
/-- A source register read in that format (R59). -/
def Thread.fsrc (th : Thread) (d : Bool) (n : BitVec 5) : Nat :=
  if d then (th.rf n).toNat else (th.rf32 n).toNat
/-- A result written in that format (R59). -/
def Thread.fdst (th : Thread) (d : Bool) (n : BitVec 5) (v : Nat) : Thread :=
  if d then th.wf n (BitVec.ofNat 64 v) else th.wf32 n (BitVec.ofNat 32 v)
/-- A result with its flags. -/
def Thread.fput (th : Thread) (d : Bool) (n : BitVec 5) (v : Nat × Flags) : Thread :=
  (th.fdst d n v.1).orFlags v.2

/-! ## Shapes of instruction -/

def fpTwo (f : FFmt → Rnd → Nat → Nat → Nat × Flags) (o : FpOp) (th : Thread) : Thread :=
  th.fput o.d o.rd (f (fpFmt o.d) (th.rnd o.rm) (th.fsrc o.d o.ra) (th.fsrc o.d o.rb))

/-- Two sources, no rounding. -/
def fpPlain (f : FFmt → Nat → Nat → Nat × Flags) (o : FpCmp) (th : Thread) : Thread :=
  th.fput o.d o.rd (f (fpFmt o.d) (th.fsrc o.d o.ra) (th.fsrc o.d o.rb))

/-- A relation into an x register. -/
def fpRel (f : FFmt → Nat → Nat → Bool × Flags) (o : FpCmp) (th : Thread) : Thread :=
  let v := f (fpFmt o.d) (th.fsrc o.d o.ra) (th.fsrc o.d o.rb)
  (th.wx o.rd (BitVec.ofNat 64 v.1.toNat)).orFlags v.2

/-- To an integer; 32-bit results are sign-extended (Table 3-9). -/
def fpToInt (lo hi : Int) (w : Nat) (o : FpUn) (th : Thread) : Thread :=
  let v := toInteger (th.rnd o.rm) lo hi ((fpFmt o.d).decode (th.fsrc o.d o.ra))
  (th.wx o.rd ((BitVec.ofInt w v.1).signExtend 64)).orFlags v.2

/-- From an integer read from an x register. -/
def fpOfInt (get : W64 → Int) (o : FpUn) (th : Thread) : Thread :=
  th.fput o.d o.rd ((fpFmt o.d).ofInteger (th.rnd o.rm) (get (th.rx o.ra)))

def fpFused (negProd negAdd : Bool) (o : FmaOp) (th : Thread) : Thread :=
  th.fput o.d o.rd ((fpFmt o.d).fma negProd negAdd (th.rnd o.rm)
    (th.fsrc o.d o.ra) (th.fsrc o.d o.rb) (th.fsrc o.d o.rc))

/-- An instruction that rounds under rm. -/
def State.issueRound (s : State) (i : Instr) (t : ThreadAt) (rm : BitVec 3)
    (f : Thread → Thread) : Out :=
  s.issueTry i t (dynFault i rm) fun th => .ok (f th)

/-! ## Instructions -/

def execFadd (t : ThreadAt) (o : FpOp) (s : State) : Out :=
  s.issueRound (.fadd t o) t o.rm (fpTwo FFmt.add o)
def execFsub (t : ThreadAt) (o : FpOp) (s : State) : Out :=
  s.issueRound (.fsub t o) t o.rm (fpTwo FFmt.sub o)
def execFmul (t : ThreadAt) (o : FpOp) (s : State) : Out :=
  s.issueRound (.fmul t o) t o.rm (fpTwo FFmt.mul o)
def execFdiv (t : ThreadAt) (o : FpOp) (s : State) : Out :=
  s.issueRound (.fdiv t o) t o.rm (fpTwo FFmt.div o)
def execFsqrt (t : ThreadAt) (o : FpUn) (s : State) : Out :=
  s.issueRound (.fsqrt t o) t o.rm fun th =>
    th.fput o.d o.rd ((fpFmt o.d).sqrt (th.rnd o.rm) (th.fsrc o.d o.ra))
def execFmin (t : ThreadAt) (o : FpCmp) (s : State) : Out :=
  s.issueReg (.fmin t o) t (fpPlain (fun f a b => f.minMax false a b) o)
def execFmax (t : ThreadAt) (o : FpCmp) (s : State) : Out :=
  s.issueReg (.fmax t o) t (fpPlain (fun f a b => f.minMax true a b) o)
def execFsgnC (t : ThreadAt) (o : FpCmp) (s : State) : Out :=
  s.issueReg (.fsgnC t o) t (fpPlain (fun f a b => (f.signInject 0 a b, 0)) o)
def execFsgnN (t : ThreadAt) (o : FpCmp) (s : State) : Out :=
  s.issueReg (.fsgnN t o) t (fpPlain (fun f a b => (f.signInject 1 a b, 0)) o)
def execFsgnX (t : ThreadAt) (o : FpCmp) (s : State) : Out :=
  s.issueReg (.fsgnX t o) t (fpPlain (fun f a b => (f.signInject 2 a b, 0)) o)
def execFeq (t : ThreadAt) (o : FpCmp) (s : State) : Out :=
  s.issueReg (.feq t o) t (fpRel (FFmt.eq) o)
def execFlt (t : ThreadAt) (o : FpCmp) (s : State) : Out :=
  s.issueReg (.flt t o) t (fpRel (fun f a b => f.less false a b) o)
def execFle (t : ThreadAt) (o : FpCmp) (s : State) : Out :=
  s.issueReg (.fle t o) t (fpRel (fun f a b => f.less true a b) o)
def execFclass (t : ThreadAt) (o : FpMov) (s : State) : Out :=
  s.issueReg (.fclass t o) t fun th =>
    th.wx o.rd (BitVec.ofNat 64 ((fpFmt o.d).cls (th.fsrc o.d o.ra)))
def execFtoiS64 (t : ThreadAt) (o : FpUn) (s : State) : Out :=
  s.issueRound (.ftoiS64 t o) t o.rm (fpToInt (-2 ^ 63) (2 ^ 63 - 1) 64 o)
def execFtoiU64 (t : ThreadAt) (o : FpUn) (s : State) : Out :=
  s.issueRound (.ftoiU64 t o) t o.rm (fpToInt 0 (2 ^ 64 - 1) 64 o)
def execFtoiS32 (t : ThreadAt) (o : FpUn) (s : State) : Out :=
  s.issueRound (.ftoiS32 t o) t o.rm (fpToInt (-2 ^ 31) (2 ^ 31 - 1) 32 o)
def execFtoiU32 (t : ThreadAt) (o : FpUn) (s : State) : Out :=
  s.issueRound (.ftoiU32 t o) t o.rm (fpToInt 0 (2 ^ 32 - 1) 32 o)
def execItofS64 (t : ThreadAt) (o : FpUn) (s : State) : Out :=
  s.issueRound (.itofS64 t o) t o.rm (fpOfInt (fun x => x.toInt) o)
def execItofU64 (t : ThreadAt) (o : FpUn) (s : State) : Out :=
  s.issueRound (.itofU64 t o) t o.rm (fpOfInt (fun x => x.toNat) o)
def execItofS32 (t : ThreadAt) (o : FpUn) (s : State) : Out :=
  s.issueRound (.itofS32 t o) t o.rm (fpOfInt (fun x => (x.truncate 32).toInt) o)
def execItofU32 (t : ThreadAt) (o : FpUn) (s : State) : Out :=
  s.issueRound (.itofU32 t o) t o.rm (fpOfInt (fun x => (x.truncate 32).toNat) o)
/-- binary64 to binary32. -/
def execFnarrow (t : ThreadAt) (o : FpCvt) (s : State) : Out :=
  s.issueRound (.fnarrow t o) t o.rm fun th =>
    th.fput false o.rd (binary32.pack (th.rnd o.rm) (binary64.decode (th.fsrc true o.ra)))
/-- binary32 to binary64. -/
def execFwiden (t : ThreadAt) (o : FpCvt) (s : State) : Out :=
  s.issueRound (.fwiden t o) t o.rm fun th =>
    th.fput true o.rd (binary64.pack (th.rnd o.rm) (binary32.decode (th.fsrc false o.ra)))
/-- 64 bits unchanged, f to x. -/
def execMovfx (t : ThreadAt) (o : FpMov) (s : State) : Out :=
  s.issueReg (.movfx t o) t fun th => th.wx o.rd (th.rf o.ra)
/-- 64 bits unchanged, x to f. -/
def execMovxf (t : ThreadAt) (o : FpMov) (s : State) : Out :=
  s.issueReg (.movxf t o) t fun th => th.wf o.rd (th.rx o.ra)
def execFmadd (t : ThreadAt) (o : FmaOp) (s : State) : Out :=
  s.issueRound (.fmadd t o) t o.rm (fpFused false false o)
def execFmsub (t : ThreadAt) (o : FmaOp) (s : State) : Out :=
  s.issueRound (.fmsub t o) t o.rm (fpFused false true o)
def execFnmadd (t : ThreadAt) (o : FmaOp) (s : State) : Out :=
  s.issueRound (.fnmadd t o) t o.rm (fpFused true true o)
def execFnmsub (t : ThreadAt) (o : FmaOp) (s : State) : Out :=
  s.issueRound (.fnmsub t o) t o.rm (fpFused true false o)

end Sys2Proof.Machine
end

