-- ==== Sys2Proof/Machine/Int.lean ====
section
/-! DEFINITION. The scalar integer instructions, immediates, branches and jumps (Tables 3-6 and 3-7). -/

namespace Sys2Proof.Machine

/-! ## Integer operations at any width -/

abbrev Alu := (n : Nat) → BitVec n → BitVec n → BitVec n

def aluAdd : Alu := fun _ a b => a + b
def aluSub : Alu := fun _ a b => a - b
def aluAnd : Alu := fun _ a b => a &&& b
def aluOr : Alu := fun _ a b => a ||| b
def aluXor : Alu := fun _ a b => a ^^^ b
def aluAndn : Alu := fun _ a b => a &&& ~~~b
/-- Shifts take the amount modulo the width: rb[5:0], or rb[4:0] in the W form. -/
def aluSll : Alu := fun n a b => a <<< (b.toNat % n)
def aluSrl : Alu := fun n a b => a >>> (b.toNat % n)
def aluSra : Alu := fun n a b => a.sshiftRight (b.toNat % n)
def aluRor : Alu := fun n a b => a.rotateRight (b.toNat % n)
def aluLts : Alu := fun n a b => BitVec.ofNat n (a.slt b).toNat
def aluLtu : Alu := fun n a b => BitVec.ofNat n (a.ult b).toNat
def aluMin : Alu := fun _ a b => if a.slt b then a else b
def aluMax : Alu := fun _ a b => if a.slt b then b else a
def aluMinu : Alu := fun _ a b => if a.ult b then a else b
def aluMaxu : Alu := fun _ a b => if a.ult b then b else a
def aluMul : Alu := fun _ a b => a * b

/-- Division saturates where its quotient has no true value (R69). -/
def aluDiv : Alu := fun n a b =>
  if b = 0 then (if a.slt 0 then BitVec.intMin n else BitVec.intMax n)
  else if a = BitVec.intMin n ∧ b = BitVec.allOnes n then BitVec.intMax n else a.sdiv b
def aluDivu : Alu := fun n a b => if b = 0 then BitVec.allOnes n else a / b
def aluRem : Alu := fun n a b =>
  if b = 0 then a
  else if a = BitVec.intMin n ∧ b = BitVec.allOnes n then BitVec.allOnes n else a.srem b
def aluRemu : Alu := fun _ a b => if b = 0 then a else a % b

def aluClz (n : Nat) (a : BitVec n) : BitVec n := BitVec.ofNat n (leadZeros n a.toNat)
def aluCtz (n : Nat) (a : BitVec n) : BitVec n := BitVec.ofNat n (lowestSet n a.toNat)
def aluPopc (n : Nat) (a : BitVec n) : BitVec n := BitVec.ofNat n (popCount n a.toNat)

/-- High 64 bits of a product. -/
def mulHigh (a b : Int) : W64 := BitVec.ofInt 64 (a * b / 2 ^ 64)

/-- The result of an INT operation: 64 bits, or the sign-extended W form (R68). -/
def aluW (w : Bool) (f : Alu) (a b : W64) : W64 :=
  if w then sextW (f 32 (a.truncate 32) (b.truncate 32)) else f 64 a b

def intOp (f : Alu) (o : IntOp) (th : Thread) : Thread :=
  th.wx o.rd (aluW o.w f (th.rx o.ra) (th.rx o.rb))

def intUn (f : (n : Nat) → BitVec n → BitVec n) (o : IntUn) (th : Thread) : Thread :=
  th.wx o.rd (aluW o.w (fun n a _ => f n a) (th.rx o.ra) 0)

def immOp (f : Alu) (b : W64) (o : ImmOp) (th : Thread) : Thread :=
  th.wx o.rd (f 64 (th.rx o.ra) b)

def shOp (f : Alu) (o : ShOp) (th : Thread) : Thread :=
  th.wx o.rd (aluW o.w f (th.rx o.ra) (o.amt.zeroExtend 64))


/-! ## INT group (Table 3-6) -/

def execAdd (t : ThreadAt) (o : IntOp) (s : State) : Out :=
  s.issueReg (.add t o) t (intOp aluAdd o)
def execSub (t : ThreadAt) (o : IntOp) (s : State) : Out :=
  s.issueReg (.sub t o) t (intOp aluSub o)
def execAndR (t : ThreadAt) (o : IntOp) (s : State) : Out :=
  s.issueReg (.andR t o) t (intOp aluAnd o)
def execOrR (t : ThreadAt) (o : IntOp) (s : State) : Out :=
  s.issueReg (.orR t o) t (intOp aluOr o)
def execXorR (t : ThreadAt) (o : IntOp) (s : State) : Out :=
  s.issueReg (.xorR t o) t (intOp aluXor o)
def execAndn (t : ThreadAt) (o : IntOp) (s : State) : Out :=
  s.issueReg (.andn t o) t (intOp aluAndn o)
def execSll (t : ThreadAt) (o : IntOp) (s : State) : Out :=
  s.issueReg (.sll t o) t (intOp aluSll o)
def execSrl (t : ThreadAt) (o : IntOp) (s : State) : Out :=
  s.issueReg (.srl t o) t (intOp aluSrl o)
def execSra (t : ThreadAt) (o : IntOp) (s : State) : Out :=
  s.issueReg (.sra t o) t (intOp aluSra o)
def execRor (t : ThreadAt) (o : IntOp) (s : State) : Out :=
  s.issueReg (.ror t o) t (intOp aluRor o)
def execLts (t : ThreadAt) (o : IntOp) (s : State) : Out :=
  s.issueReg (.lts t o) t (intOp aluLts o)
def execLtu (t : ThreadAt) (o : IntOp) (s : State) : Out :=
  s.issueReg (.ltu t o) t (intOp aluLtu o)
def execMinS (t : ThreadAt) (o : IntOp) (s : State) : Out :=
  s.issueReg (.minS t o) t (intOp aluMin o)
def execMaxS (t : ThreadAt) (o : IntOp) (s : State) : Out :=
  s.issueReg (.maxS t o) t (intOp aluMax o)
def execMinu (t : ThreadAt) (o : IntOp) (s : State) : Out :=
  s.issueReg (.minu t o) t (intOp aluMinu o)
def execMaxu (t : ThreadAt) (o : IntOp) (s : State) : Out :=
  s.issueReg (.maxu t o) t (intOp aluMaxu o)
def execMul (t : ThreadAt) (o : IntOp) (s : State) : Out :=
  s.issueReg (.mul t o) t (intOp aluMul o)
def execDiv (t : ThreadAt) (o : IntOp) (s : State) : Out :=
  s.issueReg (.div t o) t (intOp aluDiv o)
def execDivu (t : ThreadAt) (o : IntOp) (s : State) : Out :=
  s.issueReg (.divu t o) t (intOp aluDivu o)
def execRem (t : ThreadAt) (o : IntOp) (s : State) : Out :=
  s.issueReg (.rem t o) t (intOp aluRem o)
def execRemu (t : ThreadAt) (o : IntOp) (s : State) : Out :=
  s.issueReg (.remu t o) t (intOp aluRemu o)
def execClz (t : ThreadAt) (o : IntUn) (s : State) : Out :=
  s.issueReg (.clz t o) t (intUn aluClz o)
def execCtz (t : ThreadAt) (o : IntUn) (s : State) : Out :=
  s.issueReg (.ctz t o) t (intUn aluCtz o)
def execPopc (t : ThreadAt) (o : IntUn) (s : State) : Out :=
  s.issueReg (.popc t o) t (intUn aluPopc o)
def execMulhiS (t : ThreadAt) (o : XOp) (s : State) : Out :=
  s.issueReg (.mulhiS t o) t fun th =>
    th.wx o.rd (mulHigh (th.rx o.ra).toInt (th.rx o.rb).toInt)
def execMulhiU (t : ThreadAt) (o : XOp) (s : State) : Out :=
  s.issueReg (.mulhiU t o) t fun th =>
    th.wx o.rd (mulHigh (th.rx o.ra).toNat (th.rx o.rb).toNat)
def execMulhiSu (t : ThreadAt) (o : XOp) (s : State) : Out :=
  s.issueReg (.mulhiSu t o) t fun th =>
    th.wx o.rd (mulHigh (th.rx o.ra).toInt (th.rx o.rb).toNat)

/-! ## Immediates (Table 3-7, R68) -/

def execAddi (t : ThreadAt) (o : ImmOp) (s : State) : Out :=
  s.issueReg (.addi t o) t (immOp aluAdd (sext16 o.imm) o)
def execAndi (t : ThreadAt) (o : ImmOp) (s : State) : Out :=
  s.issueReg (.andi t o) t (immOp aluAnd (zext16 o.imm) o)
def execOri (t : ThreadAt) (o : ImmOp) (s : State) : Out :=
  s.issueReg (.ori t o) t (immOp aluOr (zext16 o.imm) o)
def execXori (t : ThreadAt) (o : ImmOp) (s : State) : Out :=
  s.issueReg (.xori t o) t (immOp aluXor (zext16 o.imm) o)
def execLtsi (t : ThreadAt) (o : ImmOp) (s : State) : Out :=
  s.issueReg (.ltsi t o) t (immOp aluLts (sext16 o.imm) o)
def execLtui (t : ThreadAt) (o : ImmOp) (s : State) : Out :=
  s.issueReg (.ltui t o) t (immOp aluLtu (zext16 o.imm) o)
def execSlli (t : ThreadAt) (o : ShOp) (s : State) : Out :=
  s.issueReg (.slli t o) t (shOp aluSll o)
def execSrli (t : ThreadAt) (o : ShOp) (s : State) : Out :=
  s.issueReg (.srli t o) t (shOp aluSrl o)
def execSrai (t : ThreadAt) (o : ShOp) (s : State) : Out :=
  s.issueReg (.srai t o) t (shOp aluSra o)
def execRori (t : ThreadAt) (o : ShOp) (s : State) : Out :=
  s.issueReg (.rori t o) t (shOp aluRor o)
def execLiu (t : ThreadAt) (o : LiuOp) (s : State) : Out :=
  s.issueReg (.liu t o) t fun th => th.wx o.rd (o.imm.signExtend 64 <<< 16)

/-! ## Branches and jumps (R70) -/

/-- A relative target, wrapping modulo 32 KiB (R58). -/
def relTarget (pc : BitVec 15) (off : Nat) : BitVec 15 := pc + BitVec.ofNat 15 (4 * off)

def branch (holds : W64 → W64 → Bool) (o : BrOp) (th : Thread) : Thread :=
  if holds (th.rx o.ra) (th.rx o.rb) then th.transfer (relTarget th.pc (sext16 o.off).toNat) else th.retire

def execBeq (t : ThreadAt) (o : BrOp) (s : State) : Out :=
  s.issueJump (.beq t o) t noEarly (branch (fun a b => a == b) o)
def execBne (t : ThreadAt) (o : BrOp) (s : State) : Out :=
  s.issueJump (.bne t o) t noEarly (branch (fun a b => a != b) o)
def execBlt (t : ThreadAt) (o : BrOp) (s : State) : Out :=
  s.issueJump (.blt t o) t noEarly (branch (fun a b => a.slt b) o)
def execBge (t : ThreadAt) (o : BrOp) (s : State) : Out :=
  s.issueJump (.bge t o) t noEarly (branch (fun a b => !a.slt b) o)
def execBltu (t : ThreadAt) (o : BrOp) (s : State) : Out :=
  s.issueJump (.bltu t o) t noEarly (branch (fun a b => a.ult b) o)
def execBgeu (t : ThreadAt) (o : BrOp) (s : State) : Out :=
  s.issueJump (.bgeu t o) t noEarly (branch (fun a b => !a.ult b) o)

def jumpOff (o : JOp) : Nat := (o.off.signExtend 64).toNat
/-- The link value pc + 4, wrapping as sequential fetch does (R58). -/
def linkOf (th : Thread) : W64 := (th.pc + 4).zeroExtend 64

def execJmp (t : ThreadAt) (o : JOp) (s : State) : Out :=
  s.issueJump (.jmp t o) t noEarly fun th => th.transfer (relTarget th.pc (jumpOff o))
/-- x31 is the link register (Table 3-7). -/
def execJal (t : ThreadAt) (o : JOp) (s : State) : Out :=
  s.issueJump (.jal t o) t noEarly fun th =>
    (th.wx 31 (linkOf th)).transfer (relTarget th.pc (jumpOff o))

def jlrTarget (o : ImmOp) (th : Thread) : W64 := th.rx o.ra + sext16 o.imm
/-- A JLR target that is no word of the store raises FETCH (R70). -/
def jlrFault (o : ImmOp) (th : Thread) : Option FaultRec :=
  let v := jlrTarget o th
  if v.toNat % 4 == 0 && v.toNat ≤ 0x7FFC then none else some { cause := Cause.fetch, addr := v }

def execJlr (t : ThreadAt) (o : ImmOp) (s : State) : Out :=
  s.issueJump (.jlr t o) t (jlrFault o) fun th =>
    (th.wx o.rd (linkOf th)).transfer ((jlrTarget o th).truncate 15)

end Sys2Proof.Machine
end

