-- ==== Sys2Proof/Machine/Vector.lean ====
section
/-! DEFINITION. The vector integer and floating-point groups (Tables 4-6 and 4-7, the VFMA group). -/

namespace Sys2Proof.Machine

/-! ## Lanes and masks (R89, R90) -/

def laneCount (d : Bool) : Nat := if d then 16 else 32
def laneWidth (d : Bool) : Nat := if d then 64 else 32
def laneN (d : Bool) (v : V1024) (i : Nat) : Nat := (v.extractLsb' (laneWidth d * i) (laneWidth d)).toNat

/-- The number that values of w bits spell, the first lowest. -/
def packN (w : Nat) : List Nat → Nat
  | [] => 0
  | a :: r => a % 2 ^ w + 2 ^ w * packN w r

def ofLanes (d : Bool) (l : List Nat) : V1024 := BitVec.ofNat 1024 (packN (laneWidth d) l)

/-- Every lane from a function of its number. -/
def vAll (d : Bool) (g : Nat → Nat) : V1024 := ofLanes d ((List.range (laneCount d)).map g)
/-- Active lanes from a function of their number; inactive lanes keep their value (R90). -/
def vMasked (d : Bool) (mask : W32) (old : V1024) (g : Nat → Nat) : V1024 :=
  vAll d fun i => if mask.getLsbD i then g i else laneN d old i
/-- Flags of the active lanes (R95). -/
def vFlags (d : Bool) (mask : W32) (g : Nat → Flags) : Flags :=
  (List.range (laneCount d)).foldl (fun fl i => if mask.getLsbD i then fl ||| g i else fl) 0
/-- A mask whose bit i is a relation on lane i; inactive bits are clear. -/
def vRel (d : Bool) (mask : W32) (g : Nat → Bool) : W32 :=
  BitVec.ofNat 32 (packN 1 ((List.range (laneCount d)).map fun i => (mask.getLsbD i && g i).toNat))

/-! ## Integer group (Table 4-6) -/

def aluN (f : Alu) (w a b : Nat) : Nat := (f w (BitVec.ofNat w a) (BitVec.ofNat w b)).toNat

def viOp (f : Alu) (o : ViOp) (th : Thread) : Thread :=
  let a := th.rv o.va
  let b := th.rv o.vb
  th.wv o.vd (vMasked o.d (th.rm' o.m) (th.rv o.vd) fun i =>
    aluN f (laneWidth o.d) (laneN o.d a i) (laneN o.d b i))

/-- A compare of lanes read as words of the lane width. -/
def viCmp (rel : (n : Nat) → BitVec n → BitVec n → Bool) (o : VCmpOp) (th : Thread) : Thread :=
  let a := th.rv o.va
  let b := th.rv o.vb
  let w := laneWidth o.d
  th.wm o.md (vRel o.d (th.rm' o.m) fun i =>
    rel w (BitVec.ofNat w (laneN o.d a i)) (BitVec.ofNat w (laneN o.d b i)))

/-- Lane number held in an x register, modulo the lane count. -/
def laneSel (d : Bool) (v : W64) : Nat := v.toNat % laneCount d

/-! ## Floating-point groups (Table 4-7) -/

/-- A lane-wise operation with flags. -/
def vfPut (d : Bool) (m : BitVec 3) (vd : BitVec 5) (g : Nat → Nat × Flags) (th : Thread) : Thread :=
  let mask := th.rm' m
  (th.wv vd (vMasked d mask (th.rv vd) fun i => (g i).1)).orFlags (vFlags d mask fun i => (g i).2)

def vfTwo (f : FFmt → Rnd → Nat → Nat → Nat × Flags) (o : VfOp) (th : Thread) : Thread :=
  let a := th.rv o.va
  let b := th.rv o.vb
  vfPut o.d o.m o.vd (fun i => f (fpFmt o.d) (th.rnd o.rm) (laneN o.d a i) (laneN o.d b i)) th

def vfPlain (f : FFmt → Nat → Nat → Nat × Flags) (o : ViOp) (th : Thread) : Thread :=
  let a := th.rv o.va
  let b := th.rv o.vb
  vfPut o.d o.m o.vd (fun i => f (fpFmt o.d) (laneN o.d a i) (laneN o.d b i)) th

def vfRel (f : FFmt → Nat → Nat → Bool × Flags) (o : VCmpOp) (th : Thread) : Thread :=
  let a := th.rv o.va
  let b := th.rv o.vb
  let mask := th.rm' o.m
  let g := fun i => f (fpFmt o.d) (laneN o.d a i) (laneN o.d b i)
  (th.wm o.md (vRel o.d mask fun i => (g i).1)).orFlags (vFlags o.d mask fun i => (g i).2)

/-- The values of the active lanes, lowest first. -/
def activeLanes (d : Bool) (mask : W32) (v : V1024) : List Nat :=
  ((List.range (laneCount d)).filter fun i => mask.getLsbD i).map (laneN d v)

/-- Reduce under R88 from the canonical NaN, which leaves any number as it is. -/
def reduce (f : FFmt) (op : Nat → Nat → Nat × Flags) (l : List Nat) : Nat × Flags :=
  l.foldl (fun acc x => let y := op acc.1 x; (y.1, acc.2 ||| y.2)) (f.nan, 0)

/-- Lane 0 holds the result, the other lanes +0. -/
def lane0 (d : Bool) (v : Nat) : V1024 := ofLanes d [v]

/-- A reduction of the active lanes; none is the result where no lane is active. -/
def vfReduce (none : FFmt → Nat) (op : FFmt → Nat → Nat → Nat × Flags) (o : VUnOp) (th : Thread) : Thread :=
  let f := fpFmt o.d
  let l := activeLanes o.d (th.rm' o.m) (th.rv o.va)
  let r := if l.isEmpty then (none f, 0) else reduce f (op f) l
  (th.wv o.vd (lane0 o.d r.1)).orFlags r.2

/-- One level of the tree of VFRSUM: lanes 2i and 2i + 1 are added (R94). -/
def sumLevel (f : FFmt) (r : Rnd) : List Nat → List Nat × Flags
  | a :: b :: rest =>
    let x := f.add r a b
    let y := sumLevel f r rest
    (x.1 :: y.1, x.2 ||| y.2)
  | l => (l, 0)

/-- The levels of the tree. -/
def sumTree (f : FFmt) (r : Rnd) : Nat → List Nat → List Nat × Flags
  | 0, l => (l, 0)
  | n + 1, l =>
    let x := sumLevel f r l
    let y := sumTree f r n x.1
    (y.1, x.2 ||| y.2)

/-- VFRSUM: a fixed tree over the lanes, an inactive lane entering as -0 (R94). -/
def vfSum (o : VfUn) (th : Thread) : Thread :=
  let f := fpFmt o.d
  let mask := th.rm' o.m
  let v := th.rv o.va
  let l := (List.range (laneCount o.d)).map fun i => if mask.getLsbD i then laneN o.d v i else f.signBit
  let x := sumTree f (th.rnd o.rm) (if o.d then 4 else 5) l
  (th.wv o.vd (lane0 o.d (x.1.headD 0))).orFlags x.2

/-- VFMA group: always the dynamic rounding mode. -/
def vfFused (negProd negAdd : Bool) (o : VfmaOp) (th : Thread) : Thread :=
  let a := th.rv o.va
  let b := th.rv o.vb
  let c := th.rv o.vc
  vfPut o.d o.m o.vd (fun i => (fpFmt o.d).fma negProd negAdd (th.rnd 0)
    (laneN o.d a i) (laneN o.d b i) (laneN o.d c i)) th

/-! ## Instructions -/

def execVadd (t : ThreadAt) (o : ViOp) (s : State) : Out :=
  s.issueReg (.vadd t o) t (viOp aluAdd o)
def execVsub (t : ThreadAt) (o : ViOp) (s : State) : Out :=
  s.issueReg (.vsub t o) t (viOp aluSub o)
def execVand (t : ThreadAt) (o : ViOp) (s : State) : Out :=
  s.issueReg (.vand t o) t (viOp aluAnd o)
def execVor (t : ThreadAt) (o : ViOp) (s : State) : Out :=
  s.issueReg (.vor t o) t (viOp aluOr o)
def execVxor (t : ThreadAt) (o : ViOp) (s : State) : Out :=
  s.issueReg (.vxor t o) t (viOp aluXor o)
def execVsll (t : ThreadAt) (o : ViOp) (s : State) : Out :=
  s.issueReg (.vsll t o) t (viOp aluSll o)
def execVsrl (t : ThreadAt) (o : ViOp) (s : State) : Out :=
  s.issueReg (.vsrl t o) t (viOp aluSrl o)
def execVsra (t : ThreadAt) (o : ViOp) (s : State) : Out :=
  s.issueReg (.vsra t o) t (viOp aluSra o)
def execVmin (t : ThreadAt) (o : ViOp) (s : State) : Out :=
  s.issueReg (.vmin t o) t (viOp aluMin o)
def execVmax (t : ThreadAt) (o : ViOp) (s : State) : Out :=
  s.issueReg (.vmax t o) t (viOp aluMax o)
def execVminu (t : ThreadAt) (o : ViOp) (s : State) : Out :=
  s.issueReg (.vminu t o) t (viOp aluMinu o)
def execVmaxu (t : ThreadAt) (o : ViOp) (s : State) : Out :=
  s.issueReg (.vmaxu t o) t (viOp aluMaxu o)
def execVmul (t : ThreadAt) (o : ViOp) (s : State) : Out :=
  s.issueReg (.vmul t o) t (viOp aluMul o)
def execVcmpeq (t : ThreadAt) (o : VCmpOp) (s : State) : Out :=
  s.issueReg (.vcmpeq t o) t (viCmp (fun _ a b => a == b) o)
def execVcmplt (t : ThreadAt) (o : VCmpOp) (s : State) : Out :=
  s.issueReg (.vcmplt t o) t (viCmp (fun _ a b => a.slt b) o)
def execVcmpltu (t : ThreadAt) (o : VCmpOp) (s : State) : Out :=
  s.issueReg (.vcmpltu t o) t (viCmp (fun _ a b => a.ult b) o)
/-- Every active lane := xa. -/
def execVsplat (t : ThreadAt) (o : VSplatOp) (s : State) : Out :=
  s.issueReg (.vsplat t o) t fun th =>
    th.wv o.vd (vMasked o.d (th.rm' o.m) (th.rv o.vd) fun _ => (th.rx o.xa).toNat)
/-- xd := a lane of va, sign-extended from 32 bits. -/
def execVext (t : ThreadAt) (o : VExtOp) (s : State) : Out :=
  s.issueReg (.vext t o) t fun th =>
    let v := laneN o.d (th.rv o.va) (laneSel o.d (th.rx o.xb))
    th.wx o.xd ((BitVec.ofNat (laneWidth o.d) v).signExtend 64)
/-- A lane of vd := xa. -/
def execVins (t : ThreadAt) (o : VInsOp) (s : State) : Out :=
  s.issueReg (.vins t o) t fun th =>
    let k := laneSel o.d (th.rx o.xb)
    th.wv o.vd (vAll o.d fun i => if i = k then (th.rx o.xa).toNat else laneN o.d (th.rv o.vd) i)
def execVperm (t : ThreadAt) (o : ViOp) (s : State) : Out :=
  s.issueReg (.vperm t o) t fun th =>
    th.wv o.vd (vMasked o.d (th.rm' o.m) (th.rv o.vd) fun i =>
      laneN o.d (th.rv o.va) (laneN o.d (th.rv o.vb) i % laneCount o.d))
def execVpermb (t : ThreadAt) (o : VPermbOp) (s : State) : Out :=
  s.issueReg (.vpermb t o) t fun th =>
    th.wv o.vd (BitVec.ofNat 1024 (packN 8 ((List.range 128).map fun i =>
      (byteOf (th.rv o.va) ((byteOf (th.rv o.vb) i).toNat % 128)).toNat)))
/-- Lane i of va where the mask has bit i, else of vb; every lane is written. -/
def execVsel (t : ThreadAt) (o : ViOp) (s : State) : Out :=
  s.issueReg (.vsel t o) t fun th =>
    th.wv o.vd (vMasked o.d (th.rm' o.m) (th.rv o.vb) fun i => laneN o.d (th.rv o.va) i)
def execVfadd (t : ThreadAt) (o : VfOp) (s : State) : Out :=
  s.issueRound (.vfadd t o) t o.rm (vfTwo FFmt.add o)
def execVfsub (t : ThreadAt) (o : VfOp) (s : State) : Out :=
  s.issueRound (.vfsub t o) t o.rm (vfTwo FFmt.sub o)
def execVfmul (t : ThreadAt) (o : VfOp) (s : State) : Out :=
  s.issueRound (.vfmul t o) t o.rm (vfTwo FFmt.mul o)
def execVfdiv (t : ThreadAt) (o : VfOp) (s : State) : Out :=
  s.issueRound (.vfdiv t o) t o.rm (vfTwo FFmt.div o)
def execVfsqrt (t : ThreadAt) (o : VfUn) (s : State) : Out :=
  s.issueRound (.vfsqrt t o) t o.rm fun th =>
    vfPut o.d o.m o.vd (fun i => (fpFmt o.d).sqrt (th.rnd o.rm) (laneN o.d (th.rv o.va) i)) th
def execVfmin (t : ThreadAt) (o : ViOp) (s : State) : Out :=
  s.issueReg (.vfmin t o) t (vfPlain (fun f a b => f.minMax false a b) o)
def execVfmax (t : ThreadAt) (o : ViOp) (s : State) : Out :=
  s.issueReg (.vfmax t o) t (vfPlain (fun f a b => f.minMax true a b) o)
def execVfamax (t : ThreadAt) (o : ViOp) (s : State) : Out :=
  s.issueReg (.vfamax t o) t (vfPlain (fun f a b => f.amax a b) o)
def execVfsgnC (t : ThreadAt) (o : ViOp) (s : State) : Out :=
  s.issueReg (.vfsgnC t o) t (vfPlain (fun f a b => (f.signInject 0 a b, 0)) o)
def execVfsgnN (t : ThreadAt) (o : ViOp) (s : State) : Out :=
  s.issueReg (.vfsgnN t o) t (vfPlain (fun f a b => (f.signInject 1 a b, 0)) o)
def execVfsgnX (t : ThreadAt) (o : ViOp) (s : State) : Out :=
  s.issueReg (.vfsgnX t o) t (vfPlain (fun f a b => (f.signInject 2 a b, 0)) o)
def execVfcmpeq (t : ThreadAt) (o : VCmpOp) (s : State) : Out :=
  s.issueReg (.vfcmpeq t o) t (vfRel (FFmt.eq) o)
def execVfcmplt (t : ThreadAt) (o : VCmpOp) (s : State) : Out :=
  s.issueReg (.vfcmplt t o) t (vfRel (fun f a b => f.less false a b) o)
def execVfcmple (t : ThreadAt) (o : VCmpOp) (s : State) : Out :=
  s.issueReg (.vfcmple t o) t (vfRel (fun f a b => f.less true a b) o)
def execVfclass (t : ThreadAt) (o : VUnOp) (s : State) : Out :=
  s.issueReg (.vfclass t o) t fun th =>
    vfPut o.d o.m o.vd (fun i => ((fpFmt o.d).cls (laneN o.d (th.rv o.va) i), 0)) th
def execVfrmax (t : ThreadAt) (o : VUnOp) (s : State) : Out :=
  s.issueReg (.vfrmax t o) t (vfReduce (FFmt.nan) (fun f a b => f.minMax true a b) o)
def execVfrmin (t : ThreadAt) (o : VUnOp) (s : State) : Out :=
  s.issueReg (.vfrmin t o) t (vfReduce (FFmt.nan) (fun f a b => f.minMax false a b) o)
def execVframax (t : ThreadAt) (o : VUnOp) (s : State) : Out :=
  s.issueReg (.vframax t o) t (vfReduce (fun _ => 0) (fun f a b => f.amax a b) o)
def execVfrsum (t : ThreadAt) (o : VfUn) (s : State) : Out :=
  s.issueRound (.vfrsum t o) t o.rm (vfSum o)
def execVfmadd (t : ThreadAt) (o : VfmaOp) (s : State) : Out :=
  s.issueRound (.vfmadd t o) t 0 (vfFused false false o)
def execVfmsub (t : ThreadAt) (o : VfmaOp) (s : State) : Out :=
  s.issueRound (.vfmsub t o) t 0 (vfFused false true o)
def execVfnmadd (t : ThreadAt) (o : VfmaOp) (s : State) : Out :=
  s.issueRound (.vfnmadd t o) t 0 (vfFused true true o)
def execVfnmsub (t : ThreadAt) (o : VfmaOp) (s : State) : Out :=
  s.issueRound (.vfnmsub t o) t 0 (vfFused true false o)

end Sys2Proof.Machine
end

