-- ==== Sys2Proof/Machine/Convert.lean ====
section
/-! DEFINITION. Conversion between formats (R96 to R101, R430), running maxima and scales (R102, R103), masks
and CRC-64 (Table 4-10, R104). -/

namespace Sys2Proof.Machine

/-! ## One element -/

/-- What a conversion writes to: a floating-point format, an integer range, or MXINT8 elements (R97). -/
inductive CvtDst where
  | flt (f : FFmt)
  | int (w : Nat)
  | mxInt8
  deriving DecidableEq, Repr

/-- A converted element: its code, the flags, and whether it counts in sat_lanes or loses a NaN. -/
structure Cvt where
  code : Nat
  flags : Flags := 0
  sat : Bool := false
  nanLost : Bool := false
  deriving DecidableEq, Repr

/-- The result of an overflow (R97). -/
def FFmt.cvtOverflow (f : FFmt) (r : Rnd) (sat neg : Bool) : Nat :=
  if sat then f.withSign neg f.maxCode
  else
    match f.sp with
    | .ieee => f.overflow r neg
    | .nanOnly =>
      let x := f.overflow r neg
      if x = f.withSign neg f.maxCode then x else f.nan
    | .none => f.withSign neg f.maxCode

def overflowed (code : Nat) : Cvt := { code, flags := fOF ||| fNX, sat := true }

/-- Conversion to a floating-point format (R97, R98). An infinity has an infinity for its IEEE result under every
direction, so that E4M3 with sat = 0 gives its NaN. Log entry 128 (DEDUCED). -/
def FFmt.convert (f : FFmt) (r : Rnd) (sat : Bool) : FVal → Cvt
  | .nan s =>
    if f.sp = .none then { code := 0, flags := fNV, nanLost := true }
    else { code := f.nan, flags := if s then fNV else 0 }
  | .inf n =>
    if f.sp = .ieee ∧ sat = false then { code := f.withSign n f.infCode }
    else overflowed (if f.sp = .nanOnly ∧ sat = false then f.nan else f.withSign n f.maxCode)
  | .fin n m e =>
    if m = 0 then { code := f.withSign n 0 }
    else
      let x := f.roundMag r n m e
      if f.maxCode < x.code then overflowed (f.cvtOverflow r sat n)
      else { code := f.withSign n x.code
             flags := if x.inexact then (if x.tiny then fUF ||| fNX else fNX) else 0 }

/-- Conversion to an integer format saturates whichever sat is set (R430). -/
def convertInt (w : Nat) (r : Rnd) (v : FVal) : Cvt :=
  let x := toInteger r (-2 ^ (w - 1)) (2 ^ (w - 1) - 1) v
  { code := ofSigned w x.1, flags := x.2, sat := x.2 == fNV && !v.isNan }

/-- MXINT8 elements k * 2^-6, from a value already times 2^6; never 0x80 (R84, R97, R98). The format has no
smallest normal number, so an inexact code sets nx and never uf. Log entry 128 (DEDUCED). -/
def convertMxInt8 (r : Rnd) : FVal → Cvt
  | .nan _ => { code := 0, flags := fNV, nanLost := true }
  | .inf n => overflowed (if n then 0x81 else 0x7F)
  | .fin n m e =>
    let x := roundInt r n m e
    if 127 < x.1.natAbs then overflowed (if n then 0x81 else 0x7F)
    else { code := ofSigned 8 x.1, flags := if x.2 then fNX else 0 }

def CvtDst.convert (d : CvtDst) (r : Rnd) (sat : Bool) (v : FVal) : Cvt :=
  match d with
  | .flt f => f.convert r sat v
  | .int w => convertInt w r v
  | .mxInt8 => convertMxInt8 r v

/-! ## The generator of stochastic rounding (R99) -/

def srNext (s : W64) : W64 :=
  let a := s ^^^ (s <<< 13)
  let b := a ^^^ (a >>> 7)
  b ^^^ (b <<< 17)
def srDraw (s : W64) : Nat := (s >>> 48).toNat
/-- The generator is never zero. -/
def srStore (v : W64) : W64 := if v = 0 then 0x9E3779B97F4A7C15#64 else v

/-- What a conversion instruction gathers over its lanes. -/
structure CvtAcc where
  sr : W64
  codes : List Nat := []
  flags : Flags := 0
  sat : Nat := 0
  nanLost : Bool := false

/-- Convert lanes in order; under SR every lane draws once, whether or not it is exact (R99). -/
def cvtLanes (d : CvtDst) (rnd : BitVec 3) (sat : Bool) (dyn : BitVec 3) (sr : W64) (l : List FVal) : CvtAcc :=
  let x := l.foldl (fun (acc : CvtAcc) v =>
    let sr' := if rnd = 6 then srNext acc.sr else acc.sr
    let r := if rnd = 6 then .stochastic (srDraw sr') else rndOf (if rnd = 0 then dyn else rnd)
    let c := d.convert r sat v
    { sr := sr', codes := c.code :: acc.codes, flags := acc.flags ||| c.flags
      sat := acc.sat + c.sat.toNat, nanLost := acc.nanLost || c.nanLost }) { sr }
  { x with codes := x.codes.reverse }

/-- The thread after a conversion: generator, flags and VEC_STATUS. Log entry 28 (DEDUCED). -/
def Thread.cvtDone (th : Thread) (x : CvtAcc) : Thread :=
  { th.orFlags x.flags with
    srState := x.sr, satLanes := th.satLanes + BitVec.ofNat 32 x.sat, nanLost := th.nanLost || x.nanLost }

/-! ## VCVT (R96) -/

/-- Bits of an element's container (R83). -/
def elemBits (code : Nat) : Nat :=
  match code with
  | 0 | 12 => 64
  | 1 | 11 => 32
  | 2 | 3 => 16
  | 8 | 10 => 4
  | _ => 8

/-- The floating-point format of a code of Table 4-2. -/
def fmtOf (code : Nat) : FFmt :=
  match code with
  | 0 => binary64
  | 1 => binary32
  | 2 => binary16
  | 3 => bfloat16
  | 4 => fmtE4M3
  | 5 => fmtE5M2
  | 6 => fmtE3M2
  | 7 => fmtE2M3
  | _ => fmtE2M1

/-- The value of an integer element. -/
def intVal (w v : Nat) : FVal :=
  let i := toSigned w v
  .fin (decide (i < 0)) i.natAbs 0

/-- The value of an element of a format; FP6 ignores bits [7:6] of its byte (R83). -/
def elemVal (code v : Nat) : FVal :=
  match code with
  | 9 => intVal 8 v
  | 10 => intVal 4 v
  | 11 => intVal 32 v
  | 12 => intVal 64 v
  | c => (fmtOf c).decode (v % 2 ^ (fmtOf c).width)

def dstOf (code : Nat) : CvtDst :=
  match code with
  | 9 => .int 8
  | 10 => .int 4
  | 11 => .int 32
  | 12 => .int 64
  | c => .flt (fmtOf c)

/-- n elements of w bits from byte offset o. -/
def elems (v : V1024) (o w n : Nat) : List Nat :=
  (List.range n).map fun i => (v.extractLsb' (8 * o + w * i) w).toNat

/-- Put n bytes, spelled by a number, at byte offset o; the other bytes stay. -/
def putSeg (old : V1024) (o n v : Nat) : V1024 :=
  let mask : V1024 := BitVec.ofNat 1024 ((2 ^ (8 * n) - 1) <<< (8 * o))
  (old &&& ~~~mask) ||| (BitVec.ofNat 1024 ((v % 2 ^ (8 * n)) <<< (8 * o)))

/-- The instruction converts to a narrower format, into one segment of vd (R96). -/
def narrows (o : VcvtOp) : Bool := elemBits o.dst.toNat < elemBits o.src.toNat

def vcvtRun (o : VcvtOp) (th : Thread) : Thread :=
  match cvtPair o.src.toNat o.dst.toNat with
  | none => th
  | some (n, size, _, _) =>
    let src := o.src.toNat
    let dst := o.dst.toNat
    let from' := if narrows o then 0 else o.seg.toNat * size
    let l := (elems (th.rv o.va) from' (elemBits src) n).map (elemVal src)
    let x := cvtLanes (dstOf dst) o.rnd o.sat th.rm th.srState l
    let v := packN (elemBits dst) x.codes
    let res := if narrows o then putSeg (th.rv o.vd) (o.seg.toNat * size) size v else BitVec.ofNat 1024 v
    (th.cvtDone x).wv o.vd res

/-- A dynamic rnd met while THR_FPCSR.rm holds no mode raises ILLEGAL_INSTR (Table 4-9). An exact pair needs
rnd = 0 and does not round. -/
def cvtDyn (i : Instr) (rnd : BitVec 3) (th : Thread) : Option FaultRec :=
  if rnd = 0 then dynFault i 0 th else none

def cvtExact (o : VcvtOp) : Bool :=
  match cvtPair o.src.toNat o.dst.toNat with
  | some (_, _, _, e) => e
  | none => false

def execVcvt (t : ThreadAt) (o : VcvtOp) (s : State) : Out :=
  s.issueTry (.vcvt t o) t (fun th => if cvtExact o then none else cvtDyn (.vcvt t o) o.rnd th)
    fun th => .ok (vcvtRun o th)

/-! ## VMX (R100, R101) -/

/-- Element bits, segments, emax_elem of an MX format (Table 4-3). -/
def mxBits (efmt : Nat) : Nat := if efmt = 4 then 4 else 8
def mxSegs (efmt : Nat) : Nat := if efmt = 4 then 8 else 4
def mxSegSize (efmt : Nat) : Nat := if efmt = 4 then 16 else 32
def mxEmax (efmt : Nat) : Int :=
  match efmt with
  | 0 => 8
  | 1 => 15
  | 2 => 4
  | 3 | 4 => 2
  | _ => 0
def mxDst (efmt : Nat) : CvtDst :=
  match efmt with
  | 0 => .flt fmtE4M3
  | 1 => .flt fmtE5M2
  | 2 => .flt fmtE3M2
  | 3 => .flt fmtE2M3
  | 4 => .flt fmtE2M1
  | _ => .mxInt8

/-- A value times 2^k. -/
def scaleVal (k : Int) : FVal → FVal
  | .fin n m e => .fin n m (e + k)
  | v => v

/-- The value of an MX element; an MXINT8 code k stands for k * 2^-6 (R84). -/
def mxElem (efmt v : Nat) : FVal :=
  match mxDst efmt with
  | .flt f => f.decode (v % 2 ^ f.width)
  | _ => scaleVal (-6) (intVal 8 v)

def vmxScale (x : W64) : Nat := bits x.toNat 0 8
def vmxLane (x : W64) : Nat := bits x.toNat 8 5
def vmxSeg (x : W64) : Nat := bits x.toNat 13 3

def vctl (x : W64) : FaultRec := { cause := Cause.vctl, addr := x }

/-- Running maximum of one mx lane: the magnitudes of the lanes that are no NaN (R102). -/
def mxUpdate (old : Nat) (l : List Nat) : Nat × Flags :=
  (l.filter fun v => !(binary32.decode v).isNan).foldl
    (fun acc v => let y := binary32.minMax true acc.1 (binary32.mag v); (y.1, acc.2 ||| y.2)) (old, 0)

def vmxDownRun (o : VmxDn) (th : Thread) : Except FaultRec Thread :=
  let x := th.rx o.rb
  let e := o.efmt.toNat
  if mxSegs e ≤ vmxSeg x ∨ vmxScale x = 0xFF then .error (vctl x)
  else
    let lanes := elems (th.rv o.va) 0 32 32
    let k : Int := 127 - (vmxScale x : Int) + (if e = 5 then 6 else 0)
    let c := cvtLanes (mxDst e) o.rnd o.sat th.rm th.srState (lanes.map fun v => scaleVal k (binary32.decode v))
    let th1 := (th.cvtDone c).wv o.vd
      (putSeg (th.rv o.vd) (vmxSeg x * mxSegSize e) (mxSegSize e) (packN (mxBits e) c.codes))
    if o.mxen then
      let mx := th.rmx o.mxs
      let y := mxUpdate (laneN false mx (vmxLane x)) lanes
      .ok ((th1.wmx o.mxs (vAll false fun i => if i = vmxLane x then y.1 else laneN false mx i)).orFlags y.2)
    else .ok th1

def execVmxDown (t : ThreadAt) (o : VmxDn) (s : State) : Out :=
  s.issueTry (.vmxDown t o) t (cvtDyn (.vmxDown t o) o.rnd) (vmxDownRun o)

/-- dir = 1: roundTiesToEven, overflow to infinity; a NaN scale gives canonical NaNs with no flag (R100, R101). -/
def vmxUpRun (o : VmxUp) (th : Thread) : Except FaultRec Thread :=
  let x := th.rx o.rb
  let e := o.efmt.toNat
  if mxSegs e ≤ vmxSeg x then .error (vctl x)
  else if vmxScale x = 0xFF then .ok (th.wv o.vd (vAll false fun _ => binary32.nan))
  else
    let l := (elems (th.rv o.va) (vmxSeg x * mxSegSize e) (mxBits e) 32).map fun v =>
      scaleVal ((vmxScale x : Int) - 127) (mxElem e v)
    let c := cvtLanes (.flt binary32) 1 false th.rm th.srState l
    .ok ((th.cvtDone c).wv o.vd (ofLanes false c.codes))

/-- Log entry 28 (DEDUCED). -/
def execVmxUp (t : ThreadAt) (o : VmxUp) (s : State) : Out :=
  s.issueTry (.vmxUp t o) t noEarly (vmxUpRun o)

/-! ## Scale codes (R103) -/

/-- The scale code of one lane, and whether it was clamped; none where the spec states no code.
Log entry 27 (DESIGN CHOICE). -/
def scaleCode (efmt h v : Nat) : Option (Nat × Bool) :=
  let x := bits v 23 8
  let neg := v.testBit 31
  if x = 255 then (if v % 2 ^ 23 = 0 then some (254, true) else none)
  else if x = 0 then (if v % 2 ^ 31 = 0 ∧ neg = true then none else some (127, false))
  else if neg then none
  else
    let c : Int := (x : Int) - 127 - mxEmax efmt + h + 127
    if c < 0 then some (0, true) else if 254 < c then some (254, true) else some (c.toNat, false)

/-- Log entry 27 (DESIGN CHOICE). -/
def execVmxs (t : ThreadAt) (o : VmxsOp) (s : State) : Out :=
  s.issue (.vmxs t o) t noEarly fun site _ th =>
    let mx := th.rmx o.mx
    let codes := (List.range 32).map fun b => scaleCode o.efmt.toNat o.h.toNat (laneN false mx b)
    let bytes := (List.range 32).map fun b =>
      match codes.getD b none with
      | some c => c.1
      | none => (Config.freeScale (s.free + b)).toNat
    let clamped := codes.any fun c => match c with | some x => x.2 | none => false
    let th1 := if o.reset then th.wmx o.mx 0 else th
    let th2 := { th1.wv o.vd (BitVec.ofNat 1024 (packN 8 bytes)) with scaleClamped := th.scaleClamped || clamped }
    .ok ({ s with free := s.free + 32 }.setThr site t.t th2.retire)

/-! ## Masks and mx registers (Table 4-10) -/

def maskOp (f : W32 → W32 → W32) (o : MaskOp) (th : Thread) : Thread :=
  th.wm o.md (f (th.rm' o.ma) (th.rm' o.mb))

def execVmand (t : ThreadAt) (o : MaskOp) (s : State) : Out :=
  s.issueReg (.vmand t o) t (maskOp (fun a b => a &&& b) o)
def execVmor (t : ThreadAt) (o : MaskOp) (s : State) : Out :=
  s.issueReg (.vmor t o) t (maskOp (fun a b => a ||| b) o)
def execVmxor (t : ThreadAt) (o : MaskOp) (s : State) : Out :=
  s.issueReg (.vmxor t o) t (maskOp (fun a b => a ^^^ b) o)
def execVmandn (t : ThreadAt) (o : MaskOp) (s : State) : Out :=
  s.issueReg (.vmandn t o) t (maskOp (fun a b => a &&& ~~~b) o)
def execVmpopc (t : ThreadAt) (o : MaskTo) (s : State) : Out :=
  s.issueReg (.vmpopc t o) t fun th => th.wx o.xd (BitVec.ofNat 64 (popCount 32 (th.rm' o.ma).toNat))
/-- Index of the lowest set bit; 32 if none. -/
def execVmfirst (t : ThreadAt) (o : MaskTo) (s : State) : Out :=
  s.issueReg (.vmfirst t o) t fun th => th.wx o.xd (BitVec.ofNat 64 (lowestSet 32 (th.rm' o.ma).toNat))
def execVmfx (t : ThreadAt) (o : MaskFrom) (s : State) : Out :=
  s.issueReg (.vmfx t o) t fun th => th.wm o.md ((th.rx o.xa).truncate 32)
def execVmtx (t : ThreadAt) (o : MaskTo) (s : State) : Out :=
  s.issueReg (.vmtx t o) t fun th => th.wx o.xd ((th.rm' o.ma).zeroExtend 64)
def execVmxr (t : ThreadAt) (o : MxRd) (s : State) : Out :=
  s.issueReg (.vmxr t o) t fun th => th.wv o.vd (th.rmx o.mx)
def execVmxw (t : ThreadAt) (o : MxWr) (s : State) : Out :=
  s.issueReg (.vmxw t o) t fun th => th.wmx o.mx (th.rv o.va)

/-! ## CRC-64 (R104) -/

def crc64Poly : W64 := 0xC96C5795D7870F42#64

def crc64Bits : Nat → W64 → W64
  | 0, c => c
  | n + 1, c => crc64Bits n (if c.getLsbD 0 then (c >>> 1) ^^^ crc64Poly else c >>> 1)

def crc64Byte (c : W64) (b : Byte) : W64 := crc64Bits 8 (c ^^^ b.zeroExtend 64)

/-- Fold bytes, the first first. -/
def crc64 (c : W64) (l : List Byte) : W64 := l.foldl crc64Byte c

def execVcrc64 (t : ThreadAt) (o : CrcOp) (s : State) : Out :=
  s.issueTry (.vcrc64 t o) t noEarly fun th =>
    let n := bits (th.rx o.xb).toNat 0 8
    if 128 < n then .error (vctl (th.rx o.xb))
    else .ok (th.wx o.xd (crc64 (th.rx o.xd) ((vBytes (th.rv o.va)).take n)))

end Sys2Proof.Machine
end

