-- ==== Sys2Proof/Machine/Latency.lean ====
section
/-! DEFINITION. Result latencies: the Steps columns of the instruction tables (R67), and what waits for them (R61). -/

namespace Sys2Proof.Machine

/-- Registers that an instruction other than a load writes, with its result latency (Tables 3-6, 3-7, 3-9, 3-10, 4-6, 4-7,
4-10, 5-7, 5-9, 6-4 and 7-10); a latency of one step delays no dependent and is left out. -/
def results : Instr → List (RegRef × Nat)
  | .mul _ o => [(.x o.rd, 3)]
  | .mulhiS _ o | .mulhiU _ o | .mulhiSu _ o => [(.x o.rd, 3)]
  | .div _ o | .divu _ o | .rem _ o | .remu _ o => [(.x o.rd, if o.w then 18 else 34)]
  | .fadd _ o | .fsub _ o | .fmul _ o => [(.f o.rd, 4)]
  | .fdiv _ o => [(.f o.rd, if o.d then 24 else 14)]
  | .fsqrt _ o => [(.f o.rd, if o.d then 26 else 14)]
  | .feq _ o | .flt _ o | .fle _ o => [(.x o.rd, 2)]
  | .ftoiS64 _ o | .ftoiU64 _ o | .ftoiS32 _ o | .ftoiU32 _ o => [(.x o.rd, 3)]
  | .itofS64 _ o | .itofU64 _ o | .itofS32 _ o | .itofU32 _ o => [(.f o.rd, 3)]
  | .fnarrow _ o | .fwiden _ o => [(.f o.rd, 3)]
  | .fmadd _ o | .fmsub _ o | .fnmadd _ o | .fnmsub _ o => [(.f o.rd, 5)]
  | .rdtime _ o => [(.x o.rd, 6)]
  | .rdcr _ o => [(.x o.rd, if 0x0C0 ≤ o.crn.toNat ∧ o.crn.toNat ≤ 0x0C4 then 6 else 2)]
  | .vadd _ o | .vsub _ o | .vand _ o | .vor _ o | .vxor _ o | .vsll _ o | .vsrl _ o | .vsra _ o | .vmin _ o
  | .vmax _ o | .vminu _ o | .vmaxu _ o => [(.v o.vd, 2)]
  | .vmul _ o => [(.v o.vd, 4)]
  | .vcmpeq _ o | .vcmplt _ o | .vcmpltu _ o => [(.m o.md, 2)]
  | .vsplat _ o => [(.v o.vd, 2)]
  | .vext _ o => [(.x o.xd, 3)]
  | .vins _ o => [(.v o.vd, 2)]
  | .vperm _ o => [(.v o.vd, 3)]
  | .vpermb _ o => [(.v o.vd, 3)]
  | .vsel _ o => [(.v o.vd, 2)]
  | .vfadd _ o | .vfsub _ o | .vfmul _ o => [(.v o.vd, 4)]
  | .vfdiv _ o => [(.v o.vd, if o.d then 28 else 16)]
  | .vfsqrt _ o => [(.v o.vd, if o.d then 30 else 16)]
  | .vfmin _ o | .vfmax _ o | .vfamax _ o => [(.v o.vd, 2)]
  | .vfsgnC _ o | .vfsgnN _ o | .vfsgnX _ o => [(.v o.vd, 2)]
  | .vfcmpeq _ o | .vfcmplt _ o | .vfcmple _ o => [(.m o.md, 2)]
  | .vfclass _ o => [(.v o.vd, 2)]
  | .vfrmax _ o | .vfrmin _ o | .vframax _ o => [(.v o.vd, if o.d then 5 else 6)]
  | .vfrsum _ o => [(.v o.vd, if o.d then 16 else 20)]
  | .vfmadd _ o | .vfmsub _ o | .vfnmadd _ o | .vfnmsub _ o => [(.v o.vd, 5)]
  | .vcvt _ o => [(.v o.vd, 4)]
  | .vmxDown _ o => (.v o.vd, 4) :: if o.mxen then [(.mx o.mxs, 4)] else []
  | .vmxUp _ o => [(.v o.vd, 4)]
  | .vmxr _ o => [(.v o.vd, 2)]
  | .vmxw _ o => [(.mx o.mx, 2)]
  | .vmxs _ o => [(.v o.vd, 3)]
  | .vcrc64 _ o => [(.x o.xd, 6)]
  | .trd _ o => [(.v o.vd, 3)]
  | .ard _ o => [(.v o.vd, 2)]
  | .armax _ o | .armin _ o => [(.v o.vd, 6)]
  | .tprobe _ o => [(.x o.rd, 4)]
  | .dispatch _ o => [(.x o.rd, 4), (.x 31, 4)]
  | .qstat _ o | .sndstat _ o => [(.x o.rd, 2)]
  | .hent _ o => [(.x o.rd, 2)]
  | _ => []

/-- Matrix registers that an instruction writes, with its result latency; those of tile loads come through the port and
that of an MMA with its end (Tables 5-7 and 5-9). -/
def matResults : Instr → List (BitVec 4 × Nat)
  | .tscw _ o => [(scCode o.sc, 2)]
  | .tscf _ o => [(scCode o.sc, 2)]
  | .twr _ o => [(tlCode o.td, 3)]
  | .trl _ o => [(tlCode o.td, 36)]
  | .tz _ o => [(tlCode o.td, 2)]
  | .azero _ o => [(acCode o.acd, 4)]
  | .acopy _ o | .amax _ o | .amin _ o => [(acCode o.acd, 4)]
  | .awr _ o => [(acCode o.acd, 2)]
  | .ascr _ o | .asubr _ o => [(acCode o.acd, 6)]
  | _ => []

/-- Steps for which an accumulator instruction holds the matrix engine (Table 5-7). -/
def engineSteps : Instr → Nat
  | .azero _ _ | .acopy _ _ | .amax _ _ | .amin _ _ | .armax _ _ | .armin _ _ | .ascr _ _ | .asubr _ _ => 4
  | .ard _ _ | .awr _ _ => 1
  | _ => 0

/-- A VMX sees an earlier VMX's update of its mx register in the next step (R102). -/
def isVmx : Instr → Bool
  | .vmxDown _ _ => true
  | _ => false

/-- The next MMA into an accumulator takes it from the engine at once (Table 5-6). -/
def isMma : Instr → Bool
  | .mma _ _ => true
  | _ => false

/-- Marks of results not ready at a step are replaced by newer ones of the same register, and fall away with time. -/
def renew {α : Type} [BEq α] (now : Nat) (old new : List (α × Nat × Bool)) : List (α × Nat × Bool) :=
  new ++ old.filter fun p => decide (now < p.2.1) && !new.any (·.1 == p.1)

/-- In the present step every result that the instruction needs is there (R61, R67), the engine included (Table 5-7). -/
def settledAt (now : Nat) (th : Thread) (mats : List (BitVec 4 × Nat × Bool)) (engineAt : Nat) (i : Instr) : Bool :=
  decide (th.busyUntil ≤ now) &&
  (sources i).all (fun r => !th.late.any fun p => p.1 == r && decide (now < p.2.1) && !(p.2.2 && isVmx i)) &&
  (matReads i ++ matWrites i).all (fun r => !mats.any fun p => p.1 == r && decide (now < p.2.1) && !(p.2.2 && isMma i)) &&
  (!usesEngine i || decide (engineAt ≤ now))

end Sys2Proof.Machine
end

