-- ==== Sys2Proof/Machine/Ring.lean ====
section
/-! DEFINITION. The rings of the die (chapter 8): stops and lanes (R183, R184), routes (R190, R191),
multicast (R201), the answers of R195, and the steps of routers and outputs (R186 to R194). -/

namespace Sys2Proof.Machine

/-! ## Stops, lanes and keys

A site is stop 32 * prow + pcol, edge stop e is stop 1000 + e.  Lanes of a row ring: 0, 1 east and 2, 3 west;
of a column ring: 4, 5 south and 6, 7 north; of the edge ring: 8 to 11 clockwise and 12 to 15 anticlockwise. -/

def edgeStop (e : Nat) : Nat := 1000 + e
def clsNum : Cls → Nat
  | .a => 0
  | .b => 1
  | .c => 2
/-- Class of a header field: 1 A, 2 B, 3 C (Table 8-4). -/
def clsOf (c : BitVec 2) : Cls := if c = 1 then .a else if c = 2 then .b else .c
def clsBits : Cls → BitVec 2
  | .a => 1
  | .b => 2
  | .c => 3
def inKey (stop lane cls chan : Nat) : Nat := ((stop * 16 + lane) * 3 + cls) * 2 + chan
def outKey (stop lane : Nat) : Nat := stop * 16 + lane
def portKey (e cls chan : Nat) : Nat := (e * 3 + cls) * 2 + chan
def Flit.chanNum (f : Flit) : Nat := if f.resp then 1 else 0

/-! ## Stop addresses (R185) -/

def coreAddr (row col : Nat) : BitVec 12 := BitVec.ofNat 12 (row % 32 + 32 * (col % 32))
def edgeAddr (e : Nat) : BitVec 12 := BitVec.ofNat 12 (2048 + e % 128)
def addrIsEdge (a : BitVec 12) : Bool := a.getLsbD 11
def addrEdge (a : BitVec 12) : Nat := (a.extractLsb' 0 7).toNat
def addrRow (a : BitVec 12) : Nat := (a.extractLsb' 0 5).toNat
def addrCol (a : BitVec 12) : Nat := (a.extractLsb' 5 5).toNat

/-! ## Geometry -/

/-- Shift of logical row k in a physical column; a given-up column lies between its neighbours (R197).
Log entry 109 (DEDUCED). -/
def physShift (b : List Byte) (pc k : Nat) : Nat :=
  match blkColOf b pc with
  | some c => blkShift b c k
  | none =>
    let l := (blkColOf b (pc - 1)).map fun c => blkShift b c k
    let r := (blkColOf b (pc + 1)).map fun c => blkShift b c k
    ((l.or r).getD 0 + (r.or l).getD 0) / 2

/-- Logical row whose row ring passes a site. Log entry 109 (DEDUCED). -/
def rowAt (b : List Byte) (site : Nat) : Nat :=
  ((List.range 28).find? fun k => k + physShift b (site % 32) k == site / 32).getD (min 27 (site / 32))

/-- Site of the row ring of row k in a physical column. -/
def rowSite (b : List Byte) (k pc : Nat) : Nat := 32 * (k + physShift b pc k) + pc

/-- The stop after this one on the ring of a lane, in the lane's direction (R183). Log entry 109 (DEDUCED). -/
def nextStop (b : List Byte) (stop lane : Nat) : Nat :=
  let e := stop - 1000
  if 8 ≤ lane then edgeStop (if lane < 12 then (e + 1) % 93 else (e + 92) % 93)
  else if lane < 4 then
    let east := lane < 2
    if 1000 ≤ stop then rowSite b (92 - e) (if east then 0 else 31)
    else
      let k := rowAt b stop
      let pc := stop % 32
      if east then (if pc = 31 then edgeStop (92 - k) else rowSite b k (pc + 1))
      else (if pc = 0 then edgeStop (92 - k) else rowSite b k (pc - 1))
  else
    let south := lane < 6
    if 1000 ≤ stop then (if south then e - 17 else 32 * 29 + (e - 17))
    else
      let pc := stop % 32
      let pr := stop / 32
      if south then (if pr = 29 then edgeStop (17 + pc) else stop + 32)
      else (if pr = 0 then edgeStop (17 + pc) else stop - 32)

/-- The site of a logical position: that of the bank where one is in service, else the start map's (R195). -/
def State.siteFor (s : State) (b : List Byte) (row col : Nat) : Nat :=
  (blkCore b row col).getD ((blkSite s.boot.startMap row col).getD 0)

/-! ## Routes (R190, R191, R201) -/

/-- What a router does with a flit: hand it to an output lane, or to its own unit. -/
inductive Move where
  | out (lane : Nat) (o : Origin)
  | deliver
  deriving DecidableEq, Repr

/-- Row ring lane from a physical column to the end stop, the shorter way. -/
def laneToEnd (pc : Nat) : Nat := if pc + 1 < 32 - pc then 2 else 0
/-- Row ring lane from the end stop to a physical column: the second lane of the shorter way (R191). -/
def laneFromRowEnd (pc : Nat) : Nat := if pc + 1 < 32 - pc then 1 else 3
/-- Column ring lane from the end stop to a physical row. -/
def laneFromColEnd (pr : Nat) : Nat := if pr + 1 < 30 - pr then 5 else 7
/-- Edge ring lane from stop e toward stop d, as the bank gives it (Table 15-9). -/
def edgeLane (b : List Byte) (e d : Nat) : Nat :=
  8 + 4 * bits (blkEdge b e d) 0 1 + 2 * bits (blkEdge b e d) 1 1

/-- End stop at which a flit from edge source a leaves the edge ring for a core (R190). -/
def State.exitStop (s : State) (b : List Byte) (a row col : Nat) : Nat :=
  if blkByColumn b a row col then 17 + s.siteFor b row col % 32 else 92 - row

/-- What a span adds at a column of the span, from row k of its row ring (R201). -/
def spanMoves (f : Flit) (k : Nat) : List Move :=
  (if k < f.rowHi.toNat then [.out 4 .turn] else []) ++
  (if f.rowLo.toNat < k then [.out 6 .turn] else []) ++
  (if f.rowLo.toNat ≤ k && k ≤ f.rowHi.toNat then [.deliver] else [])

def inCols (f : Flit) (c : Nat) : Bool := f.colLo.toNat ≤ c && c ≤ f.colHi.toNat

/-- A core's interface puts a flit on the rings. -/
def State.coreMoves (s : State) (b : List Byte) (f : Flit) (site : Nat) : List Move :=
  let pc := site % 32
  let k := rowAt b site
  if f.mkind ≠ 0 then
    let c := (blkColOf b pc).getD 0
    (if c < f.colHi.toNat then [.out 0 .inject] else []) ++
    (if f.colLo.toNat < c then [.out 2 .inject] else []) ++
    (if inCols f c then (spanMoves f k).map fun m =>
      match m with
      | .out l _ => .out l .inject
      | .deliver => .deliver
     else [])
  else if addrIsEdge f.dst then [.out (laneToEnd pc) .inject]
  else
    let d := s.siteFor b (addrRow f.dst) (addrCol f.dst)
    if d = site then [.deliver]
    else if d % 32 = pc then [.out (if blkNorth b pc k (addrRow f.dst) then 6 else 4) .inject]
    else [.out (if blkWest b k ((blkColOf b pc).getD 0) (addrCol f.dst) then 2 else 0) .inject]

/-- A router at a site meets a flit that arrived on a lane. -/
def State.siteMoves (s : State) (b : List Byte) (f : Flit) (site lane : Nat) : List Move :=
  let pc := site % 32
  let on := [Move.out lane .transit]
  if lane < 4 then
    let k := rowAt b site
    if f.mkind ≠ 0 then
      match blkColOf b pc with
      | none => on
      | some c =>
        (if lane < 2 then (if c < f.colHi.toNat then on else [])
         else (if f.colLo.toNat < c then on else [])) ++
        (if inCols f c then spanMoves f k else [])
    else if addrIsEdge f.dst then on
    else
      let d := s.siteFor b (addrRow f.dst) (addrCol f.dst)
      if d % 32 ≠ pc then on
      else if d = site then [.deliver]
      else [.out (if blkNorth b pc k (addrRow f.dst) then 6 else 4) .turn]
  else if f.mkind ≠ 0 then
    let c := (blkColOf b pc).getD 0
    let here := (List.range 28).find? fun r => s.siteFor b r c == site
    (if (match here with
        | some r => f.rowLo.toNat ≤ r && r ≤ f.rowHi.toNat
        | none => false) then [.deliver] else []) ++
    (if (if lane < 6 then decide (site < s.siteFor b f.rowHi.toNat c)
         else decide (s.siteFor b f.rowLo.toNat c < site)) then on else [])
  else
    let d := s.siteFor b (addrRow f.dst) (addrCol f.dst)
    if !addrIsEdge f.dst && d == site then [.deliver] else on

/-- An edge stop, or the end stop of a row or column ring, meets a flit that arrived on a lane. -/
def State.edgeMoves (s : State) (b : List Byte) (f : Flit) (e lane : Nat) : List Move :=
  if lane < 8 then
    if lane < 4 && addrIsEdge f.dst then
      (if addrEdge f.dst = e then [] else [.out (edgeLane b e (addrEdge f.dst)) .turn])
    else [.out (lane ||| 1) .transit]
  else
    let on := [Move.out (if e = 0 then lane ||| 1 else lane) .transit]
    if addrIsEdge f.dst then (if addrEdge f.dst = e then [.deliver] else on)
    else
      let row := addrRow f.dst
      let col := addrCol f.dst
      let x := s.exitStop b (addrEdge f.src) row col
      if x ≠ e then on
      else
        let d := s.siteFor b row col
        [.out (if x < 65 then laneFromColEnd (d / 32) else laneFromRowEnd (d % 32)) .turn]

/-! ## Answers in place of a core (R195) -/

/-- A response of R164: sequence number, code, refused-slot mask, responder. -/
def scionAnswer (seq code mask row col node : Nat) : List Byte :=
  leBytes 4 seq ++ [BitVec.ofNat 8 (code % 16 + 16 * (mask % 16))] ++
  leBytes 2 (row % 32 + 32 * (col % 32)) ++ [0] ++ leBytes 3 (node % 2 ^ 18)

/-- The response flit that ends a request: kind, answering stop and payload. -/
def Flit.answer (f : Flit) (src : BitVec 12) (ep : BitVec 3) (index : BitVec 6) (payload : List Byte) : Flit :=
  { kind := f.kind + 1, cls := f.cls, resp := true, ep := ep, index := index, last := true
    dst := f.src, src := src, txn := f.txn, addr := 0, payload := bytesLine payload }

/-- Payload of an error response (R210): the status in byte 0, or a burst's txn and status. -/
def errPayload (f : Flit) (status : Byte) : List Byte :=
  if f.kind = 8 then leBytes 2 f.txn.toNat ++ [status] else [status]

/-- DEST for a scion, status ADDRESS for any other request, in place of position (row.col). -/
def Flit.destAnswer (f : Flit) (src : BitVec 12) (ep : BitVec 3) (node row col : Nat) : Flit :=
  if f.kind = 0 then
    f.answer src ep 0 (scionAnswer (field (lineBytes f.payload) 4 4) 12 0 row col node)
  else f.answer src ep 63 (errPayload f 1)

/-! ## Putting flits on the rings -/

/-- Class A flits that wait at an output. -/
def aAheadOf (l : List WaitFlit) : Nat := (l.filter fun w => w.flit.cls == 1).length

/-- A flit joins the flits that wait for an output; class A waiters of a site are counted (Table 8-7). -/
def State.ringWait (s : State) (stop lane : Nat) (w : WaitFlit) : State :=
  let k := outKey stop lane
  let l := s.rings.outWait.at k []
  let ahead := max (s.rings.aAhead.at stop 0) (aAheadOf l)
  { s with rings := { s.rings with
    outWait := s.rings.outWait.put k (l ++ [w])
    aAhead := if w.flit.cls == 1 && stop < 1000 && ahead != 0 then s.rings.aAhead.put stop ahead
              else s.rings.aAhead } }

/-- A flit reaches the unit attached to an edge stop; an end stop has none. Log entry 49 (DESIGN CHOICE). -/
def State.deliverEdge (s : State) (e : Nat) (f : Flit) : State :=
  if (17 ≤ e && e ≤ 48) || 65 ≤ e then s
  else
    let k := portKey e (clsNum (clsOf f.cls)) f.chanNum
    { s with rings := { s.rings with ports := s.rings.ports.put k (s.rings.ports.at k [] ++ [f]) } }

/-- A core's ring interface takes a flit in the ring step in which it arrives (R189). -/
def Core.takeFlit (c : Core) (f : Flit) : Core :=
  let c := { c with delivered := c.delivered + 1 }
  if f.kind = 0 then { c with scionIn := c.scionIn ++ [f] }
  else if f.kind = 1 then { c with respIn := c.respIn ++ [f] }
  else { c with memIn := c.memIn ++ [f] }

/-- Each output of a move list gets its own copy, unchanged (R185, R201). -/
def State.ringOut (s : State) (stop : Nat) (f : Flit) (place : Option (Nat × Nat)) : List Move → State
  | [] => s
  | .out lane o :: r => (s.ringWait stop lane { flit := f, origin := o, place := place }).ringOut stop f place r
  | .deliver :: r => s.ringOut stop f place r

/-- The ep field of a flit that a unit injects now (R193). -/
def State.epNow (s : State) : BitVec 3 := BitVec.ofNat 3 s.epoch

/-- The epoch that a flit's ep names, given its age (R194, R346). -/
def State.flitEpoch (s : State) (ep : BitVec 3) : Nat :=
  let age := (BitVec.ofNat 3 s.epoch - ep).toNat
  if age = 7 then s.epoch + 1 else s.epoch - age

/-- A flit enters the rings at a site; the site's own core receives its own copy directly (R201). -/
def State.enterRings (s : State) (site : Nat) (f : Flit) : State :=
  let moves := s.coreMoves (s.routes (s.flitEpoch f.ep)) f site
  let s1 := if moves.contains .deliver then s.modCore site fun c => c.takeFlit f else s
  s1.ringOut site f none moves

/-- The core of a site hands a flit to its ring interface. -/
def State.injectAt (s : State) (site : Nat) (f : Flit) : State :=
  (s.modCore site fun c => { c with injected := c.injected + 1 }).enterRings site f

def State.injectAllAt (s : State) (site : Nat) (l : List Flit) : State := l.foldl (·.injectAt site ·) s

/-- A position of the die's shape (R195). -/
def State.inShape (s : State) (row col : Nat) : Bool := row < 28 && col < (if s.boot.reduced then 31 else 32)

/-- The unit of an edge stop puts a flit on the edge ring; a flit for a position outside the shape or an
edge stop above 92 is answered at once (R195). -/
def State.injectEdge (s : State) (e : Nat) (f : Flit) : State :=
  let good := if addrIsEdge f.dst then addrEdge f.dst ≤ 92 else s.inShape (addrRow f.dst) (addrCol f.dst)
  if !good then
    if f.index != 0 then s
    else
      let s1 := s.count Ev.ringEdgeDest 0
      if f.resp then s1
      else s1.deliverEdge e (f.destAnswer f.dst s.epNow s.boot.rs.node (addrRow f.dst) (addrCol f.dst))
  else if addrIsEdge f.dst && addrEdge f.dst == e then s.deliverEdge e f
  else
    let b := s.routes (s.flitEpoch f.ep)
    let x := if addrIsEdge f.dst then addrEdge f.dst else s.exitStop b e (addrRow f.dst) (addrCol f.dst)
    s.ringWait (edgeStop e) (edgeLane b e x) { flit := f, origin := .inject }

def State.injectAllEdge (s : State) (e : Nat) (l : List Flit) : State := l.foldl (·.injectEdge e ·) s

/-! ## Steps of routers and outputs -/

/-- The logical position of the core that a flit at a site is for. -/
def State.position (s : State) (b : List Byte) (site : Nat) (f : Flit) : Nat × Nat :=
  if f.mkind = 0 then (addrRow f.dst, addrCol f.dst)
  else
    let c := (blkColOf b (site % 32)).getD 0
    (((List.range 28).find? fun r => s.siteFor b r c == site).getD 0, c)

/-- The router hands a flit to the core of its site, or answers in its place (R195); a site whose logical core
has changed since the flit's epoch answers too (R357). -/
def State.deliverSite (s : State) (b : List Byte) (site : Nat) (f : Flit) : State :=
  let pos := s.position b site f
  if blkCore b pos.1 pos.2 == some site &&
      (decide (s.epoch < s.flitEpoch f.ep) || blkCore (s.routes s.epoch) pos.1 pos.2 == some site) then s.modCore site fun c => c.takeFlit f
  else if f.index != 0 then s
  else
    let s1 := s.count Ev.ringDest site
    if f.resp then s1
    else s1.enterRings site (f.destAnswer (coreAddr pos.1 pos.2) s.epNow s.boot.rs.node pos.1 pos.2)

/-- A place of an input buffer is free again, and owed to the output upstream (R189). -/
def State.freePlace (s : State) (k : Nat) : State :=
  { s with rings := { s.rings with owed := s.rings.owed.put k (s.rings.owed.at k 0 + 1) } }

/-- A flit that leaves the rings here frees its place. -/
def State.dropFlit (s : State) (k crn unit : Nat) : State := (s.count crn unit).freePlace k

/-- Event register of a router: a site's own, or the edge stops' (R186, R194). -/
def ringEv (stop site edge : Nat) : Nat × Nat := if stop < 1000 then (site, stop) else (edge, 0)

/-- Age of a flit (R194). -/
def State.flitAge (s : State) (f : Flit) : Nat := (BitVec.ofNat 3 s.epoch - f.ep).toNat

/-- A stop address with no reserved bit or code point set (R185). -/
def addrOk (a : BitVec 12) : Bool :=
  if addrIsEdge a then a.extractLsb' 7 4 == 0 && decide (addrEdge a ≤ 92) else !a.getLsbD 10

/-- The header as its check bits show it: 0 good, 1 corrected, 2 uncorrectable (R186). -/
def Flit.hdrErr (f : Flit) : Nat := if f.hbad ≠ 0 then 2 else if f.hflip ≠ 0 then 1 else 0

/-- One word of several takes a bit error: uncorrectable words, then words with a single-bit error. -/
def strikeWord {n : Nat} (bad flip : BitVec n) (i : Nat) (two : Bool) : BitVec n × BitVec n :=
  let b := BitVec.ofNat n (2 ^ i)
  if bad.getLsbD i then (bad, flip)
  else if two || flip.getLsbD i then (bad ||| b, flip &&& ~~~b)
  else (bad, flip ||| b)

/-- A word of a flit takes a bit error; its check bits travel with it unchanged (R185). Log entry 122 (DESIGN CHOICE). -/
def Flit.strike (f : Flit) (e : WordErr) : Flit :=
  let w := e.word.toNat
  if w < 2 then
    let r := strikeWord f.hbad f.hflip w e.two
    { f with hbad := r.1, hflip := r.2 }
  else
    let r := strikeWord f.bad f.flip (w - 2) e.two
    { f with bad := r.1, flip := r.2 }

/-- No reserved field or code point of the header is set: the kinds of Table 8-5, with their channels (R186). -/
def Flit.wellFormed (f : Flit) : Bool :=
  f.rsv == 0 && addrOk f.dst && addrOk f.src && f.cls != 0 && decide (f.kind.toNat < 12) && f.resp == f.kind.getLsbD 0

/-- The router acts on a flit that it has examined. -/
def State.ringRoute (s : State) (stop lane k : Nat) (f : Flit) : State :=
  let b := s.routes (s.flitEpoch f.ep)
  let moves := if stop < 1000 then s.siteMoves b f stop lane else s.edgeMoves b f (stop - 1000) lane
  let s1 :=
    if moves.contains .deliver then
      if stop < 1000 then s.deliverSite b stop f else s.deliverEdge (stop - 1000) f
    else s
  let outs := moves.filter (· != .deliver)
  if outs.isEmpty then s1.freePlace k
  else
    let s2 := { s1 with rings := { s1.rings with serial := s1.rings.serial + 1 } }
    s2.ringOut stop f (some (k, s1.rings.serial)) outs

/-- The router of a stop examines the flit at the head of an input buffer: header check bits (R186), age
(R194), route (R190), replication (R201), or an answer (R195). -/
def execRouterFlitArrival (inp : RingInput) (s : State) : Out :=
  let k := inKey inp.stop inp.lane (clsNum inp.cls) (if inp.resp then 1 else 0)
  match s.rings.inBuf.at k [] with
  | [] => .next s
  | f :: rest =>
    let s1 := { s with rings := { s.rings with inBuf := s.rings.inBuf.put k rest } }
    let ue := ringEv inp.stop Ev.ringHdrUe Ev.ringEdgeHdrUe
    let ce := ringEv inp.stop Ev.ringHdrCe Ev.ringEdgeHdrCe
    let aged := ringEv inp.stop Ev.ringAged Ev.ringEdgeAged
    if f.hdrErr = 2 then .next (s1.dropFlit k ue.1 ue.2)
    else
      let s2 := if f.hdrErr = 1 then s1.count ce.1 ce.2 else s1
      let age := s2.flitAge f
      if !f.wellFormed then .next (s2.dropFlit k ue.1 ue.2)
      else if 2 ≤ age && age ≤ 6 then .next (s2.dropFlit k aged.1 aged.2)
      else .next (s2.ringRoute inp.stop inp.lane k f)

/-- The flit of a class that goes first at an output (R188): after a whole frame of waiting, class B and C
flits that turn, enter or are injected; then transit; then turns and edge entries; then injections. -/
def ringPick (l : List WaitFlit) (cls : Cls) : Option WaitFlit :=
  let m := l.filter fun w => clsOf w.flit.cls == cls
  (m.find? fun w => cls != .a && w.origin != .transit && decide (8 ≤ w.waited)).or
    ((m.find? (·.origin == .transit)).or ((m.find? (·.origin == .turn)).or m.head?))

/-- The flit that an output sends in a slot, among those whose next buffer has room (R187, R188).
Log entry 48 (DEDUCED). -/
def ringChoose (l : List WaitFlit) (slot : Nat) (lastBC : Cls) : Option WaitFlit :=
  match ringPick l .a with
  | some w => some w
  | none =>
    if slot = 0 then none
    else if lastBC == .b then (ringPick l .c).or (ringPick l .b)
    else (ringPick l .b).or (ringPick l .c)

/-- Remove the first entry equal to w. -/
def dropFirst (w : WaitFlit) : List WaitFlit → List WaitFlit
  | [] => []
  | v :: r => if v = w then r else v :: dropFirst w r

/-- The place is still held by a copy at another output of the stop. -/
def State.placeHeld (s : State) (stop : Nat) (p : Nat × Nat) : Bool :=
  (List.range 16).any fun lane =>
    (s.rings.outWait.at (outKey stop lane) []).any fun w => w.place == some p

/-- Flits passing a router, counted by the ring they leave on (Table 8-7). Log entry 48 (DEDUCED). -/
def State.countTransit (s : State) (stop lane : Nat) (w : WaitFlit) : State :=
  if 1000 ≤ stop || w.origin == .inject then s
  else s.modCore stop fun c =>
    if lane < 4 then { c with transitRow := c.transitRow + 1 } else { c with transitCol := c.transitCol + 1 }

/-- The longest class A wait of this epoch at a site's outputs (Table 8-7). Log entry 48 (DEDUCED). -/
def State.noteWait (s : State) (stop : Nat) (w : WaitFlit) : State :=
  if stop < 1000 && w.flit.cls == 1 && decide (s.rings.aWait.at stop 0 < w.waited) then
    { s with rings := { s.rings with aWait := s.rings.aWait.put stop w.waited } }
  else s

/-- Key of the buffer that a flit takes at the next stop. -/
def State.nextKey (s : State) (stop lane : Nat) (f : Flit) : Nat :=
  inKey (nextStop (s.routes (s.flitEpoch f.ep)) stop lane) lane (clsNum (clsOf f.cls)) f.chanNum

/-- One ring step of an output: it sends one flit whose next buffer has room, and its slot advances; the flit
takes the bit errors of its way. -/
def execRingOutputSend (out : RingSend) (s : State) : Out :=
  let k := outKey out.stop out.lane
  let l := s.rings.outWait.at k []
  let slot := s.rings.slot.at k 0
  let room (w : WaitFlit) : Bool :=
    decide (s.rings.used.at (s.nextKey out.stop out.lane w.flit) 0 < Config.ringBufDepth)
  let aged := l.map fun w => { w with waited := w.waited + 1 }
  let s0 := { s with rings := { s.rings with slot := s.rings.slot.put k ((slot + 1) % 8) } }
  match ringChoose (l.filter room) slot (s.rings.lastBC.at k .c) with
  | none => .next { s0 with rings := { s0.rings with outWait := s0.rings.outWait.put k aged } }
  | some w =>
    let n := s.nextKey out.stop out.lane w.flit
    let left := dropFirst { w with waited := w.waited + 1 } aged
    let s1 := { s0 with rings := { s0.rings with
      outWait := s0.rings.outWait.put k left
      lastBC := if w.flit.cls == 1 then s0.rings.lastBC else s0.rings.lastBC.put k (clsOf w.flit.cls)
      used := s0.rings.used.put n (s0.rings.used.at n 0 + 1)
      inBuf := s0.rings.inBuf.put n (s0.rings.inBuf.at n [] ++ [out.errs.foldl Flit.strike w.flit]) } }
    let s2 := (s1.countTransit out.stop out.lane w).noteWait out.stop w
    match w.place with
    | none => .next s2
    | some p => .next (if s2.placeHeld out.stop p then s2 else s2.freePlace p.1)

/-- A credit returns: the output upstream counts one place less in use (R189). -/
def execRingCreditReturn (inp : RingInput) (s : State) : Out :=
  let k := inKey inp.stop inp.lane (clsNum inp.cls) (if inp.resp then 1 else 0)
  if s.rings.owed.at k 0 = 0 then .next s
  else .next { s with rings := { s.rings with
    owed := s.rings.owed.put k (s.rings.owed.at k 0 - 1)
    used := s.rings.used.put k (s.rings.used.at k 0 - 1) } }

/-! ## Requests across an epoch change (R193) -/

/-- What a request is for: an edge stop, or the cores of a span, of one core where there is none. -/
def towardBox (dst : Nat) (span : Option W64) : Option (Nat × Nat × Nat × Nat) :=
  let a := BitVec.ofNat 12 dst
  match span with
  | some sp => some (bits sp.toNat 2 5, bits sp.toNat 7 5, bits sp.toNat 12 5, bits sp.toNat 17 5)
  | none => if addrIsEdge a then none else some (addrRow a, addrRow a, addrCol a, addrCol a)

/-- Two requests have a destination stop in common (R193). -/
def sameStop (d : Nat) (sp : Option W64) (e : Nat) (sq : Option W64) : Bool :=
  match towardBox d sp, towardBox e sq with
  | some x, some y => decide (x.1 ≤ y.2.1) && decide (y.1 ≤ x.2.1) && decide (x.2.2.1 ≤ y.2.2.2) && decide (y.2.2.1 ≤ x.2.2.2)
  | none, none => d == e
  | _, _ => false

/-- The kind of flit that a request travels in (Table 8-5). -/
def ReqKind.flit : ReqKind → BitVec 4
  | .fill _ => 2
  | .tileFill _ _ => 2
  | .ldv _ => 2
  | .amo _ => 6
  | .store _ => 4
  | .tstBurst _ => 8

/-- A request of a kind and tag is still held back. -/
def Core.isHeld (c : Core) (kind : BitVec 4) (txn : Nat) : Bool :=
  c.held.any fun h => h.flits.any fun f => f.kind == kind && f.txn.toNat == txn && f.index == 0

/-- A core still awaits the answer to a request of an earlier epoch, one that it has injected, toward a stop that a new
request is for (R193). Log entry 51 (DEDUCED). -/
def Core.olderRequest (c : Core) (dst : Nat) (span : Option W64) (epoch : Nat) : Bool :=
  c.reqs.any (fun r => sameStop r.dst none dst span && decide (r.epoch < epoch) && !c.isHeld r.kind.flit r.txn) ||
  c.sends.any (fun e => match e.st with
    | .offered txn _ => sameStop e.toStop e.span dst span && decide (e.epoch < epoch) && !c.isHeld 0 txn
    | _ => false) ||
  c.spillWaits.any (fun w => sameStop w.dst none dst span && decide (w.epoch < epoch) && !c.isHeld 8 w.burst) ||
  c.refills.any fun r => sameStop r.dst none dst span && r.reads.any fun x =>
    x.got.isNone && decide (x.epoch < epoch) && !c.isHeld 2 x.txn

/-- A core's interface injects a request, or holds it back (R193). Log entry 51 (DEDUCED). -/
def State.injectRequest (s : State) (site dst : Nat) (flits : List Flit) (span : Option W64 := none) : State :=
  let c := s.core site
  if c.olderRequest dst span s.epoch || c.held.any (fun h => sameStop h.dst h.span dst span) then
    s.modCore site fun c => { c with held := c.held ++ [{ dst := dst, span := span, flits := flits }] }
  else s.injectAllAt site flits

/-- A request that was held back is of the epoch in which it is injected. -/
def Core.reEpoch (c : Core) (kind : BitVec 4) (txn epoch : Nat) : Core :=
  { c with
    reqs := c.reqs.map fun r => if r.kind.flit == kind && r.txn == txn then { r with epoch := epoch } else r
    sends := c.sends.map fun e => match e.st with
      | .offered n _ => if kind == 0 && n == txn then { e with epoch := epoch } else e
      | _ => e
    spillWaits := c.spillWaits.map fun w => if kind == 8 && w.burst == txn then { w with epoch := epoch } else w
    refills := c.refills.map fun r => { r with reads := r.reads.map fun x =>
      if kind == 2 && x.txn == txn then { x with epoch := epoch } else x } }

/-- More flits of a message whose first flits are on the rings, or held back: then they are held with them (R193). -/
def State.injectMore (s : State) (site : Nat) (f : Flit) : State :=
  let c := s.core site
  if c.isHeld f.kind f.txn.toNat then
    let mine (h : Held) : Bool := h.flits.any fun x => x.kind == f.kind && x.txn == f.txn && x.index == 0
    s.modCore site fun c => { c with held := c.held.map fun h => if mine h then { h with flits := h.flits ++ [f] } else h }
  else s.injectAt site f

/-- The first held request whose stop owes no older answer is injected, in the present epoch.
Log entry 51 (DEDUCED). -/
def execEpochHeldRequest (core : CoreAt) (s : State) : Out :=
  match s.siteOf core.row.toNat core.col.toNat with
  | none => .next s
  | some site =>
    let c := s.core site
    match c.held.find? fun h => !c.olderRequest h.dst h.span s.epoch with
    | none => .next s
    | some h =>
      let s1 := s.modCore site fun c =>
        let c1 := { c with held := c.held.erase h }
        match h.flits with
        | f :: _ => c1.reEpoch f.kind f.txn.toNat s.epoch
        | [] => c1
      .next (s1.injectAllAt site (h.flits.map fun f => { f with ep := s.epNow }))

end Sys2Proof.Machine
end

