-- ==== Sys2Proof/Machine/Mem.lean ====
section
/-! DEFINITION. The scratchpad, its tags and arbiter, the window cache and the requests of a core to stack
memory (chapters 6, 9 and 10; R71, R72, R93). -/

namespace Sys2Proof.Machine

/-! ## Addresses (Table 9-2, R206) -/

def padBase : Nat := 0xFFFFF80000
def padSize : Nat := 0x80000
def planEnd : Nat := 0x5A00000000

/-- What a thread's address names. -/
inductive Place where
  | pad (off : Nat)
  | stack
  | none
  deriving DecidableEq, Repr

def placeOf (a : Nat) : Place :=
  if a < planEnd then .stack
  else if padBase ≤ a && a < 2 ^ 40 then .pad (a - padBase)
  else .none

/-- Stack of an address of plan memory or of a reserved area (R205, R206). -/
def homeStack (a : Nat) : Nat :=
  if a < planEnd then (a / 4096 ^^^ a / 32768) % 8 else (a - planEnd) / 0xC0000000
/-- First address above the reserved areas (Table 9-2). -/
def reservedEnd : Nat := 0x6000000000
/-- Edge stop of a stack port (Table 8-3). -/
def stackPort (s : Nat) : Nat := if s < 4 then 13 + s else 45 + s

/-! ## The scratchpad (R132, R143) -/

/-- Words of 8 B that a range touches. -/
def padWords (off n : Nat) : List Nat :=
  if n = 0 then [] else (List.range ((off + n - 1) / 8 - off / 8 + 1)).map (· + off / 8)

/-- Words are read in one access: single-bit errors are corrected and counted, uncorrectable words counted; whether any
word was uncorrectable (R143). Log entry 39 (DEDUCED). -/
def State.padCheck (s : State) (site : Nat) (ws : List Nat) : State × Bool :=
  let c := s.core site
  let flips := ws.filter c.padFlip.contains
  let bad := ws.filter c.padBad.contains
  let s1 := if flips.isEmpty then s
    else s.modCore site fun c => { c with padFlip := c.padFlip.filter fun w => !flips.contains w }
  ((s1.countN Ev.spdCe site flips.length).countN Ev.spdUe site bad.length, !bad.isEmpty)

/-- A read of n bytes from an offset: its words are checked (R143). -/
def State.padRead (s : State) (site off n : Nat) : State × List Byte × Bool :=
  let q := s.padCheck site (padWords off n)
  (q.1, Mem.readN (s.core site).pad off n, q.2)

/-- A write of bytes at scratchpad offsets, in one access: a wholly written word replaces an uncorrectable
one, a part of it leaves it so and is counted (R143). -/
def State.padWriteCells (s : State) (site : Nat) (cells : List (Nat × Byte)) : State :=
  let c := s.core site
  let has (o : Nat) : Bool := cells.any (·.1 == o)
  let touched (w : Nat) : Bool := cells.any fun e => e.1 / 8 == w
  let whole (w : Nat) : Bool := (List.range 8).all fun i => has (8 * w + i)
  let ue := c.padBad.filter fun w => touched w && !whole w
  let ce := c.padFlip.filter fun w => touched w && !whole w
  let s1 := s.modCore site fun c => { c with
    pad := cells.foldl (fun m e => Mem.write m e.1 e.2) c.pad
    padBad := c.padBad.filter fun w => !(touched w && whole w)
    padFlip := c.padFlip.filter fun w => !touched w }
  (s1.countN Ev.spdCe site ce.length).countN Ev.spdUe site ue.length

/-- Cells of consecutive bytes from an address up. -/
def cellsAt (a : Nat) : List Byte → List (Nat × Byte)
  | [] => []
  | b :: r => (a, b) :: cellsAt (a + 1) r

def State.padWrite (s : State) (site off : Nat) (b : List Byte) : State := s.padWriteCells site (cellsAt off b)

/-- Region kind of an offset: 0 plain, 1 tagged, 2 queue (Table 6-2). -/
def Core.kindAt (c : Core) (off : Nat) : Nat := (c.kinds.at (off / 0x2000) 0).toNat
def Core.isFull (c : Core) (slot : Nat) : Bool := c.full.contains slot
def Core.setTags (c : Core) (slots : List Nat) (on : Bool) : Core :=
  let f := c.full.filter fun n => !slots.contains n
  { c with full := if on then f ++ slots else f }
/-- Slots that a range of the scratchpad touches. -/
def padSlots (off n : Nat) : List Nat :=
  if n = 0 then [] else (List.range ((off + n - 1) / 64 - off / 64 + 1)).map (· + off / 64)

/-! ## Waiting for tags (R136 to R138) -/

/-- An access that waits on slots, as the arbiter ranks it: a thread's, or a row of one of its tile operations. -/
structure Waiter where
  classA : Bool
  order : Nat
  kind : Nat
  slots : List Nat
  thread : BitVec 2 := 0
  /-- tile operation and row -/
  row : Option (Nat × Nat) := none

/-- The condition of an access: reads wait for full, stores for empty (R136). -/
def Core.tagHolds (c : Core) (kind : Nat) (slots : List Nat) : Bool :=
  if kind < 2 then slots.all c.isFull else slots.all fun n => !c.isFull n

/-- Slots of tagged regions that n bytes at an address touch (R137). -/
def Core.rowSlots (c : Core) (addr n : Nat) : List Nat :=
  match placeOf addr with
  | .pad off => (padSlots off n).filter fun k => c.kindAt (64 * k) == 1
  | _ => []

/-- Address of row r of a tile operation (R115). -/
def TileOp.rowAddr (o : TileOp) (r : Nat) : Nat := (o.base.toNat + r * o.stride.toNat) % 2 ^ 64
/-- Bytes of one row: 8 for scale tiles, else 128 (R121). -/
def TileOp.rowSize (o : TileOp) : Nat := if 12 ≤ o.reg.toNat then 8 else 128

/-- Chip time has reached a thread's THR_TCMP: its tagged accesses that still wait end by it alone (R56). -/
def Core.expired (c : Core) (now : Nat) (t : BitVec 2) : Bool :=
  (c.thr t).tcmp != BitVec.allOnes 64 && decide ((c.thr t).tcmp.toNat ≤ now)

/-- Every access that waits on slots of the core, blocked threads and tile rows, unless its time is over (R56, R138).
Log entry 38 (DEDUCED). -/
def Core.waiters (c : Core) (now : Nat) : List Waiter :=
  let thr : List Waiter := ([0, 1, 2, 3] : List (BitVec 2)).filterMap fun t =>
    match (c.thr t).block with
    | .tagged w => some { classA := (c.thr t).cls == 1, order := w.order, kind := w.kind, slots := w.slots, thread := t }
    | _ => none
  let rows : List Waiter := c.tileOps.flatMap fun o => o.rows.filterMap fun (r, st) =>
    match st with
    | .slots order => some { classA := (c.thr o.thread).cls == 1, order := order, kind := 1,
                             slots := c.rowSlots (o.rowAddr r) o.rowSize, thread := o.thread, row := some (o.id, r) }
    | _ => none
  (thr ++ rows).filter fun w => !c.expired now w.thread

/-- Log entry 38 (DEDUCED). -/
def Waiter.before (a b : Waiter) : Bool :=
  (a.classA && !b.classA) || (a.classA == b.classA && decide (a.order < b.order))

/-- The arbiter serves an access now: its condition holds, and no access that goes first shares a slot (R138).
Log entry 38 (DEDUCED). -/
def Core.serves (c : Core) (now : Nat) (w : Waiter) : Bool :=
  c.tagHolds w.kind w.slots &&
  !((c.waiters now).any fun v => v.order != w.order && c.tagHolds v.kind v.slots &&
      v.slots.any w.slots.contains && v.before w)

/-! ## The window cache (R147 to R150) -/

def Core.wcFind (c : Core) (line : Nat) : Option (Nat × WcLine) :=
  c.wc.find? fun e => e.1 / 8 == line % 128 && e.2.line == line

/-- The 32-bit words of a line that n bytes at an address touch. -/
def lineWords (line a n : Nat) : List Nat :=
  (List.range 16).filter fun w => decide (64 * line + 4 * w < a + n) && decide (a < 64 * line + 4 * w + 4)

/-- A load looks some words of a line up: a parity error in one of them invalidates the line (R150).
Log entry 41 (DEDUCED). -/
def State.wcLoad (s : State) (site line : Nat) (words : List Nat) : State × Option Line :=
  match (s.core site).wcFind line with
  | none => (s, none)
  | some (k, e) =>
    if words.any e.bad.contains then
      ((s.modCore site fun c => { c with wc := c.wc.del k }).count Ev.spdWcParity site, none)
    else (s.modCore site fun c => { c with wcHits := c.wcHits + 1 }, some e.data)

/-- Overlay bytes on a line; cells carry local addresses. Log entry 40 (DEDUCED). -/
def overlay (l : Line) (line : Nat) (cells : List (Nat × Byte)) : Line :=
  bytesLine (cells.foldl (fun b c => if c.1 / 64 = line then b.set (c.1 % 64) c.2 else b) (lineBytes l))

/-- Installs a line in the partition of its class (R149). Log entry 40 (DEDUCED). -/
def Core.wcInstall (c : Core) (line : Nat) (data : Line) (cls : Cls) : Core :=
  let a := c.aWays.toNat
  let set := line % 128
  let low := a ≠ 0 && cls == .a
  let first := if low then 0 else a
  let size := if low then a else 8 - a
  let pk := 2 * set + (if low then 0 else 1)
  let p := c.victim.at pk 0
  { c with
    wc := c.wc.put (8 * set + first + p) { line := line, data := data }
    victim := c.victim.put pk ((p + 1) % size) }

/-- A store leaves the core: the cached copy and fills in flight take its bytes (R147, R148, R150). -/
def State.wcStore (s : State) (site line : Nat) (cells : List (Nat × Byte)) : State :=
  let s1 := s.modCore site fun c => { c with
    fills := c.fills.map fun f => if f.line = line then { f with stores := f.stores ++ cells } else f }
  match (s1.core site).wcFind line with
  | none => s1
  | some (k, e) =>
    if cells.any (fun b => e.bad.contains (b.1 % 64 / 4)) then
      (s1.modCore site fun c => { c with wc := c.wc.del k }).count Ev.spdWcParity site
    else s1.modCore site fun c => { c with wc := c.wc.put k { e with data := overlay e.data line cells } }

/-- Lines of a range are invalidated, and fills in flight for them are not installed (R151, R153). -/
def Core.wcInvalidate (c : Core) (hit : Nat → Bool) : Core :=
  { c with
    wc := c.wc.filter fun e => !hit e.2.line
    fills := c.fills.map fun f => if hit f.line then { f with noInstall := true } else f }

/-! ## Requests (R210, R211) -/

/-- The class timeout in ns (R211, R274). -/
def State.classTimeout (s : State) : Cls → Nat
  | .a => 1000 * s.boot.rs.timeoutA
  | .b => 1000 * s.boot.rs.timeoutB
  | .c => 1000 * s.boot.rs.timeoutC

/-- The first tag from n on that no request or offer of the core holds. -/
def freeTag (used : Nat → Bool) : Nat → Nat → Nat
  | 0, n => n
  | f + 1, n => if used n then freeTag used f ((n + 1) % 4096) else n

def Core.tagUsed (c : Core) (n : Nat) : Bool :=
  c.reqs.any (·.txn == n) || (c.refills.any fun r => r.reads.any (·.txn == n)) || c.sends.any fun e =>
    match e.st with
    | .offered txn _ => txn == n
    | _ => false

def Core.newTag (c : Core) : Nat := freeTag c.tagUsed 4096 (c.nextTxn % 4096)

/-- Ring address of a core's site, as flits carry it. -/
def State.siteAddr (s : State) (site : Nat) : BitVec 12 :=
  match blkCoreOf (s.routes s.epoch) site with
  | some (r, c) => coreAddr r c
  | none => 0

/-- The flits of one message of a core. -/
def messageFlits (h : Flit) (payloads : List Line) (addr : Nat → BitVec 40) : List Flit :=
  (List.range payloads.length).map fun i => { h with
    index := BitVec.ofNat 6 i, last := i + 1 == payloads.length
    addr := addr i, payload := payloads.getD i 0 }

/-- Ring address of the home controller of an address. -/
def homeAddr (addr : Nat) : BitVec 12 := edgeAddr (stackPort (homeStack addr))

/-- A message of a core leaves for the home controller of an address. -/
def State.sendHome (s : State) (site : Nat) (code : BitVec 4) (cls : Cls) (txn addr : Nat) (payloads : List Line)
    (at' : Nat → BitVec 40) : State :=
  let dst := homeAddr addr
  let h : Flit := { kind := code, cls := clsBits cls, resp := false, ep := s.epNow, index := 0, last := true
                    dst := dst, src := s.siteAddr site, txn := BitVec.ofNat 12 txn }
  s.injectRequest site dst.toNat (messageFlits h payloads at')

/-- A thread's request to a home controller, with its deadline (R211); cells is what a store writes. -/
def State.request (s : State) (site : Nat) (t : BitVec 2) (kind : ReqKind) (code : BitVec 4)
    (addr : Nat) (payloads : List Line) (cells : List Host.Cell := []) : State :=
  let c := s.core site
  let cls := clsOf (c.thr t).cls
  let txn := c.newTag
  let r : Req := { txn := txn, kind := kind, thread := t, line := addr / 64, dst := (homeAddr addr).toNat
                   epoch := s.epoch, deadline := s.now + s.classTimeout cls, cells := cells }
  let s1 := s.sendHome site code cls txn addr payloads fun _ => BitVec.ofNat 40 addr
  s1.modCore site fun c => { c with nextTxn := (txn + 1) % 4096, reqs := c.reqs ++ [r] }

/-! ## Loads -/

/-- The elements of a load: byte position in the register, address, size (R71, R93). -/
def maskLanes (mask : W32) (n : Nat) : List Nat := (List.range n).filter mask.getLsbD

/-- Log entry 26 (DEDUCED). -/
def LoadShape.pieces (sh : LoadShape) (addr : W64) : List (Nat × Nat × Nat) :=
  let a := addr.toNat
  match sh with
  | .int size _ _ => [(0, a, size)]
  | .fp32 _ => [(0, a, 4)]
  | .fp64 _ => [(0, a, 8)]
  | .vec _ mask => (maskLanes mask 32).map fun i => (4 * i, (a + 4 * i) % 2 ^ 64, 4)
  | .strided _ mask w stride =>
    (maskLanes mask (128 / w)).map fun i => (w * i, (a + i * stride.toNat) % 2 ^ 64, w)
  | .bcast _ mask w => if (maskLanes mask (128 / w)).isEmpty then [] else [(0, a, w)]
  | .line _ => [(0, a, 64)]

/-- The register that a load writes; none for x0, which holds no data and takes no poison: an uncorrectable load to
x0 makes no FENCE raise (R72). Log entry 126 (DESIGN CHOICE). -/
def LoadShape.dest : LoadShape → Option RegRef
  | .int _ _ rd => if rd = 0 then none else some (.x rd)
  | .fp32 fd => some (.f fd)
  | .fp64 fd => some (.f fd)
  | .vec vd _ => some (.v vd)
  | .strided vd _ _ _ => some (.v vd)
  | .bcast vd _ _ => some (.v vd)
  | .line vd => some (.v vd)

/-- Element bytes put into a vector register, whose other bytes are kept (R90). -/
def fillVec (old : V1024) (parts : List (Nat × List Byte)) : V1024 :=
  ofVBytes (parts.foldl (fun b p => putBytes b p.1 p.2) (vBytes old))

/-- A load's data reach its register. -/
def Thread.fill (th : Thread) (sh : LoadShape) (addr : W64) (get : Nat → Nat → List Byte) : Thread :=
  let pcs := sh.pieces addr
  let first := (pcs.head?.map fun p => get p.2.1 p.2.2).getD []
  match sh with
  | .int size sgn rd =>
    let v := leNat first
    th.wx rd (if sgn then BitVec.ofInt 64 (toSigned (8 * size) v) else BitVec.ofNat 64 v)
  | .fp32 fd => th.wf32 fd (BitVec.ofNat 32 (leNat first))
  | .fp64 fd => th.wf fd (BitVec.ofNat 64 (leNat first))
  | .bcast vd mask w =>
    if pcs.isEmpty then th
    else th.wv vd (fillVec (th.rv vd) ((maskLanes mask (128 / w)).map fun i => (w * i, first)))
  | .line vd => th.wv vd (fillVec 0 [(0, first)])
  | .vec vd _ => if pcs.isEmpty then th else th.wv vd (fillVec (th.rv vd) (pcs.map fun p => (p.1, get p.2.1 p.2.2)))
  | .strided vd _ _ _ =>
    if pcs.isEmpty then th else th.wv vd (fillVec (th.rv vd) (pcs.map fun p => (p.1, get p.2.1 p.2.2)))

/-- A load's data arrive with an uncorrectable error: its destination is poisoned (R72, R91). -/
def Thread.poisonDest (th : Thread) (sh : LoadShape) (addr : W64) : Thread :=
  match sh.dest with
  | none => th
  | some r => { th with
      waiting := th.waiting.filter (·.1 != r)
      poison := (r, addr, false) :: th.poison.filter (·.1 != r) }

/-- Bytes at an address, from lines by line number. -/
def tabBytes (got : Tab Line) (a n : Nat) : List Byte := slice (lineBytes (got.at (a / 64) 0)) (a % 64) n

def dedup : List Nat → List Nat
  | [] => []
  | a :: r => a :: (dedup r).filter (· != a)

/-- What a load finds at once: the state, the lines found, the lines missed, and an uncorrectable read. -/
structure Found where
  s : State
  got : Tab Line := []
  want : List Nat := []
  bad : Bool := false

/-- One line of a load: the scratchpad gives it, or the window cache, or it is missed. -/
def Found.line (f : Found) (site : Nat) (pcs : List (Nat × Nat × Nat)) (line : Nat) : Found :=
  let mine := pcs.filter fun p => p.2.1 / 64 == line
  match placeOf (64 * line) with
  | .pad off =>
    let r := f.s.padCheck site (dedup (mine.flatMap fun p => padWords (p.2.1 - padBase) p.2.2))
    { f with s := r.1, bad := f.bad || r.2, got := f.got.put line (Mem.line (r.1.core site).pad off) }
  | _ =>
    let r := f.s.wcLoad site line (mine.flatMap fun p => lineWords line p.2.1 p.2.2)
    match r.2 with
    | some d => { f with s := r.1, got := f.got.put line d }
    | none => { f with s := r.1, want := f.want ++ [line] }

/-- Bytes of a line in stores that have left the core and have not been acknowledged (R147). -/
def Core.sentCells (c : Core) (line : Nat) : List Host.Cell := (c.reqs.flatMap (·.cells)).filter fun b => b.1 / 64 == line

/-- The requests of a load's missing lines: one fill each, never merged (R147, R148). -/
def State.requestFills (s : State) (site : Nat) (t : BitVec 2) (kind : ReqKind) : List Nat → State
  | [] => s
  | line :: r =>
    let c := s.core site
    let fill : Fill := { txn := c.newTag, line := line, cls := clsOf (c.thr t).cls, early := c.sentCells line }
    let s1 := s.request site t kind 2 (64 * line) [0]
    (s1.modCore site fun c => { c with fills := c.fills ++ [fill], wcMisses := c.wcMisses + 1 }).requestFills site t kind r

/-- A load that cannot end at once: its destination awaits it (R61, R72). -/
def State.awaitLoad (s : State) (site : Nat) (t : BitVec 2) (sh : LoadShape) (addr : W64)
    (got : Tab Line) (want : List Nat) (bad : Bool) : State :=
  let c := s.core site
  let op : LoadOp := { id := c.nextId, thread := t, shape := sh, addr := addr, got := got, want := want, poisoned := bad }
  let s1 := s.modCore site fun c => { c with loads := c.loads ++ [op], nextId := c.nextId + 1 }
  s1.modThr site t fun th =>
    match sh.dest with
    | none => th
    | some r => { th.clearMarks r with waiting := (r, op.id) :: th.waiting.filter (·.1 != r) }

/-- A load does its reads. -/
def State.startLoad (s : State) (site : Nat) (t : BitVec 2) (sh : LoadShape) (addr : W64) : State :=
  let pcs := sh.pieces addr
  let f := (dedup (pcs.map fun p => p.2.1 / 64)).foldl (fun (f : Found) l => f.line site pcs l) { s := s }
  if f.want.isEmpty then
    f.s.modThr site t fun th =>
      if f.bad then th.poisonDest sh addr else th.fill sh addr (tabBytes f.got)
  else
    let id := (f.s.core site).nextId
    (f.s.awaitLoad site t sh addr f.got f.want f.bad).requestFills site t (.fill id) f.want

/-- A load whose lines have all come ends: it writes its register if that still awaits it. -/
def State.endLoad (s : State) (site : Nat) (op : LoadOp) : State :=
  let s1 := s.modCore site fun c => { c with loads := c.loads.filter (·.id != op.id) }
  s1.modThr site op.thread fun th =>
    match op.shape.dest with
    | none => th
    | some r =>
      if th.waiting.contains (r, op.id) then
        if op.poisoned then th.poisonDest op.shape op.addr
        else th.fill op.shape op.addr (tabBytes op.got)
      else th

/-- A line of a load arrives, or its error. -/
def State.loadLine (s : State) (site id line : Nat) (data : Option Line) : State :=
  match (s.core site).loads.find? (·.id == id) with
  | none => s
  | some op =>
    let op1 := { op with
      want := op.want.filter (· != line)
      got := match data with
        | some d => op.got.put line d
        | none => op.got
      poisoned := op.poisoned || data.isNone }
    if op1.want.isEmpty then s.endLoad site op1
    else s.modCore site fun c => { c with loads := c.loads.map fun o => if o.id = id then op1 else o }

/-! ## Address checks (R71, R93) -/

/-- MISALIGNED_DATA, then ADDRESS, of the elements of an access (R71, R77, R93). -/
def addressFault (pcs : List (Nat × Nat × Nat)) (bad : Nat × Nat × Nat → Bool) : Option FaultRec :=
  ((pcs.find? bad).map fun p => { cause := Cause.misaligned, addr := BitVec.ofNat 64 p.2.1 }).or
  ((pcs.find? fun p => placeOf p.2.1 == .none).map fun p =>
    { cause := Cause.address, addr := BitVec.ofNat 64 p.2.1 })

/-- An element is not naturally aligned. -/
def unaligned (p : Nat × Nat × Nat) : Bool := p.2.1 % p.2.2 != 0
/-- The 128 B that an element belongs to are not 128 B aligned (R93). -/
def unalignedRow (p : Nat × Nat × Nat) : Bool := (p.2.1 + 128 - p.1) % 128 != 0

/-- Slots of tagged regions that the elements of an access touch (R137). -/
def Core.taggedSlots (c : Core) (pcs : List (Nat × Nat × Nat)) : List Nat :=
  dedup (pcs.flatMap fun p => c.rowSlots p.2.1 p.2.2)

/-- A thread's access to tagged slots waits (R136, R137): the thread enters BLOCK at its pc. -/
def State.blockTagged (s : State) (site : Nat) (t : BitVec 2) (kind : Nat) (slots : List Nat) (act : TagAct) : State :=
  let c := s.core site
  (s.modCore site fun c => { c with waitOrder := c.waitOrder + 1 }).modThr site t fun th =>
    { th with st := .block, block := .tagged { kind := kind, slots := slots, act := act, order := c.waitOrder } }

/-- The effect of a tagged access: read and set empty, read, write and set full, or write (R136). -/
def State.tagDo (s : State) (site : Nat) (t : BitVec 2) (kind : Nat) (slots : List Nat) (act : TagAct) : State :=
  let s1 := match act with
    | .load sh addr => s.startLoad site t sh addr
    | .store addr b => s.padWrite site (addr.toNat - padBase) b
  if kind = 0 then s1.modCore site fun c => c.setTags slots false
  else if kind = 2 then s1.modCore site fun c => c.setTags slots true
  else s1

/-- A waiting read of a thread at issue: at once if the arbiter serves it, else the thread blocks (R137). -/
def State.tagRead (s : State) (site : Nat) (t : BitVec 2) (slots : List Nat) (act : TagAct) : State :=
  let c := s.core site
  if c.serves s.now { classA := (c.thr t).cls == 1, order := c.waitOrder, kind := 1, slots := slots } then
    (s.tagDo site t 1 slots act).modThr site t Thread.retire
  else s.blockTagged site t 1 slots act

/-- A plain load of any kind: checks, then a waiting read in tagged regions, else the read (R71, R137).
Log entry 26 (DEDUCED). -/
def State.issueLoad (s : State) (i : Instr) (a : ThreadAt) (mk : Thread → LoadShape × W64)
    (bad : Nat × Nat × Nat → Bool) : Out :=
  s.issue i a noEarly fun site c th =>
    let p := mk th
    let pcs := p.1.pieces p.2
    match addressFault pcs bad with
    | some f => .error f
    | none =>
      let slots := c.taggedSlots pcs
      if slots.isEmpty then .ok ((s.startLoad site a.t p.1 p.2).modThr site a.t Thread.retire)
      else .ok (s.tagRead site a.t slots (.load p.1 p.2))

/-! ## Stores -/

/-- Byte-enable mask of cells within a line. -/
def cellMask (cells : List (Nat × Byte)) : Nat :=
  cells.foldl (fun m c => m ||| 1 <<< (c.1 % 64)) 0

/-- A store of bytes of one line to stack memory: write-through (R147), a whole line in one flit, else a
byte-enable write in two (Table 9-4). -/
def State.stackStore (s : State) (site : Nat) (t : BitVec 2) (addr : W64) (whole : Bool)
    (cells : List (Nat × Byte)) : State :=
  match cells with
  | [] => s
  | c0 :: _ =>
    let line := c0.1 / 64
    let data := overlay 0 line cells
    let s1 := s.wcStore site line cells
    s1.request site t (.store addr) 4 (64 * line)
      (if whole then [data] else [BitVec.ofNat 512 (cellMask cells), data]) cells

/-- TAGSTORE and QUEUEWRITE of a thread's store (Table 6-2, R154). -/
def Core.storeFault (c : Core) (pcs : List (Nat × Nat × Nat)) : Option FaultRec :=
  let kindIs (k : Nat) (p : Nat × Nat × Nat) : Bool :=
    match placeOf p.2.1 with
    | .pad off => c.kindAt off == k
    | _ => false
  ((pcs.find? (kindIs 2)).map fun p => { cause := 0x31, addr := BitVec.ofNat 64 p.2.1 }).or
  ((pcs.find? (kindIs 1)).map fun p => { cause := 0x30, addr := BitVec.ofNat 64 p.2.1 })

/-- What a store does: its address, its elements, and its accesses: cells written together, whole line or not. -/
structure StorePlan where
  addr : W64
  pieces : List (Nat × Nat × Nat)
  accesses : List (Bool × List (Nat × Byte))

/-- One access of a store. -/
def State.storeAccess (s : State) (site : Nat) (t : BitVec 2) (addr : W64) (whole : Bool)
    (cells : List (Nat × Byte)) : State :=
  match cells with
  | [] => s
  | c0 :: _ =>
    match placeOf c0.1 with
    | .pad _ => s.padWriteCells site (cells.map fun e => (e.1 - padBase, e.2))
    | .stack => s.stackStore site t addr whole cells
    | .none => s

/-- A store: checks, then its accesses one after another. -/
def State.issueStore (s : State) (i : Instr) (a : ThreadAt) (mk : Thread → StorePlan)
    (bad : Nat × Nat × Nat → Bool) : Out :=
  s.issue i a noEarly fun site c th =>
    let p := mk th
    match (addressFault p.pieces bad).or (c.storeFault p.pieces) with
    | some f => .error f
    | none =>
      let s1 := p.accesses.foldl (fun s q => s.storeAccess site a.t p.addr q.1 q.2) s
      .ok (s1.modThr site a.t Thread.retire)

/-! ## Scalar loads and stores (Table 3-8) -/

/-- address := ra + imm16 -/
def effAddr (th : Thread) (o : ImmOp) : W64 := th.rx o.ra + sext16 o.imm

def State.scalarLoad (s : State) (i : Instr) (t : ThreadAt) (o : ImmOp) (sh : LoadShape) : Out :=
  s.issueLoad i t (fun th => (sh, effAddr th o)) unaligned

def execLdB (t : ThreadAt) (o : ImmOp) (s : State) : Out := s.scalarLoad (.ldB t o) t o (.int 1 true o.rd)
def execLdBu (t : ThreadAt) (o : ImmOp) (s : State) : Out := s.scalarLoad (.ldBu t o) t o (.int 1 false o.rd)
def execLdH (t : ThreadAt) (o : ImmOp) (s : State) : Out := s.scalarLoad (.ldH t o) t o (.int 2 true o.rd)
def execLdHu (t : ThreadAt) (o : ImmOp) (s : State) : Out := s.scalarLoad (.ldHu t o) t o (.int 2 false o.rd)
def execLdW (t : ThreadAt) (o : ImmOp) (s : State) : Out := s.scalarLoad (.ldW t o) t o (.int 4 true o.rd)
def execLdWu (t : ThreadAt) (o : ImmOp) (s : State) : Out := s.scalarLoad (.ldWu t o) t o (.int 4 false o.rd)
def execLdD (t : ThreadAt) (o : ImmOp) (s : State) : Out := s.scalarLoad (.ldD t o) t o (.int 8 true o.rd)
def execFldS (t : ThreadAt) (o : ImmOp) (s : State) : Out := s.scalarLoad (.fldS t o) t o (.fp32 o.rd)
def execFldD (t : ThreadAt) (o : ImmOp) (s : State) : Out := s.scalarLoad (.fldD t o) t o (.fp64 o.rd)

def State.scalarStore (s : State) (i : Instr) (t : ThreadAt) (o : ImmOp) (n : Nat) (v : Thread → W64) : Out :=
  s.issueStore i t (fun th =>
    let a := effAddr th o
    { addr := a, pieces := [(0, a.toNat, n)], accesses := [(false, cellsAt a.toNat (leBytes n (v th).toNat))] }) unaligned

def execStB (t : ThreadAt) (o : ImmOp) (s : State) : Out := s.scalarStore (.stB t o) t o 1 (·.rx o.rd)
def execStH (t : ThreadAt) (o : ImmOp) (s : State) : Out := s.scalarStore (.stH t o) t o 2 (·.rx o.rd)
def execStW (t : ThreadAt) (o : ImmOp) (s : State) : Out := s.scalarStore (.stW t o) t o 4 (·.rx o.rd)
def execStD (t : ThreadAt) (o : ImmOp) (s : State) : Out := s.scalarStore (.stD t o) t o 8 (·.rx o.rd)
def execFstS (t : ThreadAt) (o : ImmOp) (s : State) : Out := s.scalarStore (.fstS t o) t o 4 (·.rf o.rd)
def execFstD (t : ThreadAt) (o : ImmOp) (s : State) : Out := s.scalarStore (.fstD t o) t o 8 (·.rf o.rd)

/-! ## Vector loads and stores (Table 4-5, R93) -/

/-- address := ra + sign-extended imm4 x 128. Log entry 26 (DEDUCED). -/
def vecAddr (th : Thread) (ra : BitVec 5) (imm : BitVec 4) : W64 :=
  th.rx ra + (imm.signExtend 57 ++ 0#7)

def execVld (t : ThreadAt) (o : VmOp) (s : State) : Out :=
  s.issueLoad (.vld t o) t (fun th => (.vec o.vd (th.rm' o.m), vecAddr th o.ra o.imm)) unalignedRow

def execVldsW (t : ThreadAt) (o : VmStr) (s : State) : Out :=
  s.issueLoad (.vldsW t o) t (fun th => (.strided o.vd (th.rm' o.m) 4 (th.rx o.rb), vecAddr th o.ra o.imm)) unaligned

def execVldsD (t : ThreadAt) (o : VmStr) (s : State) : Out :=
  s.issueLoad (.vldsD t o) t (fun th => (.strided o.vd (th.rm' o.m) 8 (th.rx o.rb), vecAddr th o.ra o.imm)) unaligned

def execVbcW (t : ThreadAt) (o : VmOp) (s : State) : Out :=
  s.issueLoad (.vbcW t o) t (fun th => (.bcast o.vd (th.rm' o.m) 4, vecAddr th o.ra o.imm)) unaligned

def execVbcD (t : ThreadAt) (o : VmOp) (s : State) : Out :=
  s.issueLoad (.vbcD t o) t (fun th => (.bcast o.vd (th.rm' o.m) 8, vecAddr th o.ra o.imm)) unaligned

/-- Cells of an element of a vector register. -/
def vecCells (v : V1024) (p : Nat × Nat × Nat) : List (Nat × Byte) := cellsAt p.2.1 (slice (vBytes v) p.1 p.2.2)

/-- VST: one write for each line that an active lane touches (R244). -/
def vstPlan (th : Thread) (o : VmOp) : StorePlan :=
  let a := vecAddr th o.ra o.imm
  let pcs := LoadShape.pieces (.vec o.vd (th.rm' o.m)) a
  let v := th.rv o.vd
  { addr := a, pieces := pcs
    accesses := (dedup (pcs.map fun p => p.2.1 / 64)).map fun l =>
      (o.m == 0, (pcs.filter fun p => p.2.1 / 64 == l).flatMap (vecCells v)) }

/-- Strided stores: one write for each active lane (R244). -/
def vstsPlan (th : Thread) (o : VmStr) (w : Nat) : StorePlan :=
  let a := vecAddr th o.ra o.imm
  let pcs := LoadShape.pieces (.strided o.vd (th.rm' o.m) w (th.rx o.rb)) a
  { addr := a, pieces := pcs, accesses := pcs.map fun p => (false, vecCells (th.rv o.vd) p) }

def execVst (t : ThreadAt) (o : VmOp) (s : State) : Out :=
  s.issueStore (.vst t o) t (vstPlan · o) unalignedRow
def execVstsW (t : ThreadAt) (o : VmStr) (s : State) : Out :=
  s.issueStore (.vstsW t o) t (vstsPlan · o 4) unaligned
def execVstsD (t : ThreadAt) (o : VmStr) (s : State) : Out :=
  s.issueStore (.vstsD t o) t (vstsPlan · o 8) unaligned

end Sys2Proof.Machine
end

