-- ==== Sys2Proof/Machine/Rows.lean ====
section
/-! DEFINITION. Matrix registers (R107 to R109, R113), the rows of tile operations as they end (R118), and the slot
arbiter, which serves waiting accesses of threads and of tile rows (R136 to R138, R142). -/

namespace Sys2Proof.Machine

/-! ## Matrix registers (R107, R108, R113) -/

/-- A matrix register after start: a tile carries format 1 and layout RM (R108). -/
def mreg0 (code : Nat) : MReg := if code < 8 then { fmt := 1 } else {}
def Core.mreg (c : Core) (code : BitVec 4) : MReg := c.mregs.at code.toNat (mreg0 code.toNat)
def Core.setMreg (c : Core) (code : BitVec 4) (m : MReg) : Core := { c with mregs := c.mregs.put code.toNat m }
def State.modMreg (s : State) (site : Nat) (code : BitVec 4) (f : MReg → MReg) : State :=
  s.modCore site fun c => c.setMreg code (f (c.mreg code))

/-- The thread owns a matrix register (R107, Table 5-12). -/
def Core.owns (c : Core) (t : BitVec 2) (code : BitVec 4) : Bool :=
  bits c.tileOwn.toNat (3 * code.toNat) 3 == 4 + t.toNat

/-- Offset of group q of logical row r (Table 5-3). -/
def groupOff (lay r q : Nat) : Nat :=
  match lay with
  | 1 => 64 * (8 * q + r / 4) + 16 * (r % 4)
  | 2 => 512 * q + 16 * r
  | _ => 128 * r + 16 * q

def isScale (code : BitVec 4) : Bool := 12 ≤ code.toNat

/-- The bytes of logical row r. -/
def MReg.row (m : MReg) (code : BitVec 4) (r : Nat) : List Byte :=
  if isScale code then Mem.readN m.bytes (8 * r) 8
  else (List.range 8).flatMap fun q => Mem.readN m.bytes (groupOff m.lay.toNat r q) 16

/-- The 32-bit words, by word offset in the register, that hold logical row r (R109). -/
def MReg.rowWords (m : MReg) (code : BitVec 4) (r : Nat) : List Nat :=
  if isScale code then [2 * r, 2 * r + 1]
  else (List.range 8).flatMap fun q => (List.range 4).map fun i => groupOff m.lay.toNat r q / 4 + i

/-- A word of row r fails its parity check (R109). -/
def MReg.badRow (m : MReg) (code : BitVec 4) (r : Nat) : Bool := (m.rowWords code r).any m.badWords.contains

/-- Writes logical row r under the register's layout: the parity of its words is good, its mask bit set. -/
def MReg.setRow (m : MReg) (code : BitVec 4) (r : Nat) (b : List Byte) : MReg :=
  let bytes := if isScale code then Mem.writeN m.bytes (8 * r) b
    else (List.range 8).foldl (fun l q => Mem.writeN l (groupOff m.lay.toNat r q) (slice b (16 * q) 16)) m.bytes
  { m with bytes := bytes, valid := m.valid ||| BitVec.ofNat 32 (2 ^ r)
           badWords := m.badWords.filter fun w => !(m.rowWords code r).contains w }

def allRows : List Nat := List.range 32
/-- Mask bits of rows. -/
def rowMask (rows : List Nat) : W32 := BitVec.ofNat 32 (rows.foldl (fun m r => m ||| 2 ^ r) 0)

/-- Writes every row anew. -/
def MReg.setAll (m : MReg) (code : BitVec 4) (rows : List (List Byte)) : MReg :=
  { (allRows.foldl (fun m r => m.setRow code r (rows.getD r [])) { m with bytes := [] }) with badWords := [] }

/-! ## Rows of tile operations (R118) -/

/-- A load's rows are written in row order; a faulting row ends the load (R118). Log entry 33 (DEDUCED). -/
def settleRows (op : TileOp) : List (Nat × RowSt) → MReg → Tab RowSt → MReg × Tab RowSt × Option (Nat × Nat)
  | [], m, done => (m, done, none)
  | (r, st) :: rest, m, done =>
    match st with
    | .written => settleRows op rest m (done ++ [(r, st)])
    | .arrived b => settleRows op rest (m.setRow op.reg r b) (done ++ [(r, .written)])
    | .faulted reason => (m, done, some (r, reason))
    | .pending => (m, done ++ (r, st) :: rest, none)
    | .lines _ _ => (m, done ++ (r, st) :: rest, none)
    | .slots _ => (m, done ++ (r, st) :: rest, none)

/-- Rows above a faulting one are discarded (R118). Log entry 33 (DEDUCED). -/
def dropAbove (rows : Tab RowSt) : Tab RowSt :=
  match rows.find? fun p => match p.2 with
    | .faulted _ => true
    | _ => false with
  | some p => rows.filter fun q => q.1 ≤ p.1
  | none => rows

def State.putTile (s : State) (site : Nat) (op : TileOp) : State :=
  s.modCore site fun c => { c with tileOps := c.tileOps.map fun o => if o.id = op.id then op else o }
def State.endTile (s : State) (site : Nat) (op : TileOp) : State :=
  s.modCore site fun c => { c with tileOps := c.tileOps.filter (·.id != op.id) }

/-- A tile operation after one of its rows has moved on. Log entry 33 (DEDUCED). -/
def State.settleTile (s : State) (site : Nat) (op : TileOp) : State :=
  if op.store then
    if op.rows.all fun p => p.2 == .written then s.endTile site op else s.putTile site op
  else
    let q := settleRows op (dropAbove op.rows) ((s.core site).mreg op.reg) []
    let s1 := s.modCore site fun c => c.setMreg op.reg q.1
    match q.2.2 with
    | some (r, reason) =>
      let s2 := (s1.endTile site op).modMreg site op.reg fun m =>
        { m with loading := false, rowFault := some (BitVec.ofNat 64 (op.rowAddr r)) }
      (s2.modThr site op.thread fun th => { th with tileFault :=
        { reg := op.reg, row := BitVec.ofNat 5 r, reason := BitVec.ofNat 3 reason } }).count Ev.tileRowfault site
    | none =>
      if q.2.1.all fun p => p.2 == .written then
        (s1.endTile site op).modMreg site op.reg fun m => { m with loading := false }
      else s1.putTile site { op with rows := q.2.1 }

/-- A row of an operation takes a new state. -/
def State.setRowSt (s : State) (site : Nat) (op : TileOp) (r : Nat) (st : RowSt) : State :=
  s.settleTile site { op with rows := op.rows.put r st }

/-! ## The slot arbiter (R136 to R138, R142) -/

/-- Of two waiting accesses, the one that goes first. -/
def firstWaiter (best : Option Waiter) (w : Waiter) : Option Waiter :=
  match best with
  | none => some w
  | some v => if w.before v then some w else some v

/-- The waiting access that the arbiter serves next: the first of those whose condition holds (R138). -/
def Core.nextServed (c : Core) (now : Nat) : Option Waiter :=
  ((c.waiters now).filter fun w => c.tagHolds w.kind w.slots).foldl firstWaiter none

/-- A row of a tile load reads its slots: its bytes arrive, or it faults with reason 1 (R118, R137). -/
def State.readRow (s : State) (site : Nat) (op : TileOp) (r : Nat) : State :=
  let q := s.padRead site (op.rowAddr r - padBase) op.rowSize
  q.1.setRowSt site op r (if q.2.2 then .faulted 1 else .arrived q.2.1)

/-- A waiting access is served: a thread's has its effect and waits to be woken (Table 6-7), a row reads its slots. -/
def State.serveWaiter (s : State) (site : Nat) (w : Waiter) : State :=
  match w.row with
  | some (id, r) =>
    match (s.core site).tileOps.find? (·.id == id) with
    | some op => s.readRow site op r
    | none => s
  | none =>
    match (s.thr site w.thread).block with
    | .tagged b => (s.tagDo site w.thread b.kind b.slots b.act).modThr site w.thread fun th => { th with block := .served }
    | _ => s

/-- At most n waiting accesses are served, one after another. -/
def State.arbitrateN (s : State) (site : Nat) : Nat → State
  | 0 => s
  | n + 1 =>
    match (s.core site).nextServed s.now with
    | none => s
    | some w => (s.serveWaiter site w).arbitrateN site n

/-- Tags have changed: the waiting accesses that they satisfy are served in the same arbitration (R138, R142). -/
def State.arbitrate (s : State) (site : Nat) : State := s.arbitrateN site ((s.core site).waiters s.now).length

/-- After an access of a kind that changes tags, the arbiter serves the accesses that they satisfy (R136, R138). -/
def State.tagChanged (s : State) (site kind : Nat) : State := if kind = 0 ∨ kind = 2 then s.arbitrate site else s

/-- A tagged access at issue: at once if the arbiter serves it, else the thread blocks (R136). -/
def State.tagIssue (s : State) (site : Nat) (t : BitVec 2) (kind : Nat) (slots : List Nat) (act : TagAct) : State :=
  let c := s.core site
  if c.serves s.now { classA := (c.thr t).cls == 1, order := c.waitOrder, kind := kind, slots := slots } then
    ((s.tagDo site t kind slots act).modThr site t Thread.retire).tagChanged site kind
  else s.blockTagged site t kind slots act

end Sys2Proof.Machine
end

