-- ==== Sys2Proof/Machine/Tag.lean ====
section
/-! DEFINITION. Tagged accesses and tag control (R136 to R142), volatile loads, atomics and WINV (R152, R153),
the arbiter's grant (R138), deposits (R139) and the scrubber (R144). -/

namespace Sys2Proof.Machine

/-! ## Tagged accesses (Table 6-3) -/

/-- address := ra + sign-extended off10 x 8 -/
def tagAddr (th : Thread) (o : TagOp) : W64 := th.rx o.ra + (o.off.signExtend 61 ++ 0#3)
def tagSize (o : TagOp) : Nat := if o.sz = 2 then 128 else 8

/-- How a tagged load fills its register. -/
def tagShape (o : TagOp) : LoadShape :=
  match o.sz.toNat with
  | 0 => .int 8 true o.r
  | 1 => .fp64 o.r
  | _ => .vec o.r (BitVec.allOnes 32)

/-- The bytes that a tagged store writes. -/
def tagBytes (th : Thread) (o : TagOp) : List Byte :=
  match o.sz.toNat with
  | 0 => leBytes 8 (th.rx o.r).toNat
  | 1 => leBytes 8 (th.rf o.r).toNat
  | _ => vBytes (th.rv o.r)

def notTagged (a : W64) : FaultRec := { cause := 0x32, addr := a }
def queueWrite (a : W64) : FaultRec := { cause := 0x31, addr := a }

/-- MISALIGNED_DATA, ADDRESS, QUEUEWRITE, NOTAGGED of a tagged access (R141, R154); else its slots. -/
def Core.tagCheck (c : Core) (a : W64) (n : Nat) : Except FaultRec (List Nat) :=
  if a.toNat % n ≠ 0 then .error { cause := Cause.misaligned, addr := a }
  else
    match placeOf a.toNat with
    | .none => .error { cause := Cause.address, addr := a }
    | .stack => .error (notTagged a)
    | .pad off =>
      if c.kindAt off = 2 then .error (queueWrite a)
      else if c.kindAt off = 1 then .ok (padSlots off n)
      else .error (notTagged a)

/-- A tagged access of one of the four kinds. -/
def State.tagAccess (s : State) (i : Instr) (t : ThreadAt) (o : TagOp) (kind : Nat) (act : Thread → W64 → TagAct) : Out :=
  s.issue i t noEarly fun site c th =>
    let a := tagAddr th o
    (c.tagCheck a (tagSize o)).map fun slots => s.tagIssue site t.t kind slots (act th a)

def execLde (t : ThreadAt) (o : TagOp) (s : State) : Out :=
  s.tagAccess (.lde t o) t o 0 fun _ a => .load (tagShape o) a
def execLdk (t : ThreadAt) (o : TagOp) (s : State) : Out :=
  s.tagAccess (.ldk t o) t o 1 fun _ a => .load (tagShape o) a
def execStf (t : ThreadAt) (o : TagOp) (s : State) : Out :=
  s.tagAccess (.stf t o) t o 2 fun th a => .store a (tagBytes th o)
def execStp (t : ThreadAt) (o : TagOp) (s : State) : Out :=
  s.tagAccess (.stp t o) t o 3 fun th a => .store a (tagBytes th o)

/-! ## Tag control (Table 6-4, R141, R142) -/

/-- rd[0] := tag, rd[2:1] := region kind; stack memory raises NOTAGGED, other addresses ADDRESS. -/
def execTprobe (t : ThreadAt) (o : RdRa) (s : State) : Out :=
  s.issue (.tprobe t o) t noEarly fun site c th =>
    let a := th.rx o.ra
    match placeOf a.toNat with
    | .none => .error { cause := Cause.address, addr := a }
    | .stack => .error (notTagged a)
    | .pad off =>
      let v := (if c.isFull (off / 64) then 1 else 0) + 2 * c.kindAt off
      .ok (s.setThr site t.t (th.wx o.rd (BitVec.ofNat 64 v)).retire)

/-- The slots of a tag-control instruction: first and number, after its checks in the order of R154. -/
def Core.rangeCheck (c : Core) (a n : W64) (plainToo : Bool) : Except FaultRec (Nat × Nat) :=
  match placeOf a.toNat with
  | .none => .error { cause := Cause.address, addr := a }
  | .stack => .error (notTagged a)
  | .pad off =>
    let lo := off / 64
    let hi := min (lo + n.toNat) 8192
    if n = 0 then .error { cause := 0x33, addr := n } else
    let kinds := ((List.range 64).filter fun r => decide (128 * r < hi ∧ lo < 128 * (r + 1))).map fun r =>
      (c.kinds.at r 0).toNat
    if kinds.contains 2 then .error (queueWrite a)
    else if !plainToo && kinds.contains 0 then .error (notTagged a)
    else if 8192 < n.toNat || 8192 < lo + n.toNat then .error { cause := 0x33, addr := n }
    else .ok (lo, n.toNat)

/-- Tags of n slots from lo. -/
def Core.tagRange (c : Core) (lo n : Nat) (on : Bool) : Core :=
  let f := c.full.filter fun k => !(lo ≤ k && k < lo + n)
  { c with full := if on then f ++ (List.range n).map (· + lo) else f }

def State.tagControl (s : State) (i : Instr) (t : ThreadAt) (o : RaRb) (plainToo : Bool)
    (f : Core → Nat → Nat → Core) : Out :=
  s.issue i t noEarly fun site c th =>
    (c.rangeCheck (th.rx o.ra) (th.rx o.rb) plainToo).map fun r =>
      ((s.modCore site fun c => f c r.1 r.2).modThr site t.t Thread.retire).arbitrate site

/-- Log entry 8 (DESIGN CHOICE). -/
def execTsete (t : ThreadAt) (o : RaRb) (s : State) : Out :=
  s.tagControl (.tsete t o) t o false fun c lo n => c.tagRange lo n false
def execTsetf (t : ThreadAt) (o : RaRb) (s : State) : Out :=
  s.tagControl (.tsetf t o) t o false fun c lo n => c.tagRange lo n true

/-- Zero bytes with good check bits, tags empty. -/
def Core.zeroSlots (c : Core) (lo n : Nat) : Core :=
  let out (w : Nat) : Bool := !(8 * lo ≤ w && w < 8 * (lo + n))
  { c.tagRange lo n false with
    pad := Mem.clear c.pad (64 * lo) (64 * n)
    padBad := c.padBad.filter out
    padFlip := c.padFlip.filter out }

/-- Log entry 8 (DESIGN CHOICE). -/
def execSzero (t : ThreadAt) (o : RaRb) (s : State) : Out :=
  s.tagControl (.szero t o) t o true fun c lo n => c.zeroSlots lo n

/-! ## Home access group (Table 6-6) -/

/-- MISALIGNED_DATA, then ADDRESS unless the address is in stack memory (R152). -/
def homeFault (a : W64) (n : Nat) : Option FaultRec :=
  if a.toNat % n ≠ 0 then some { cause := Cause.misaligned, addr := a }
  else if placeOf a.toNat == .stack then none
  else some { cause := Cause.address, addr := a }

/-- A volatile load: one line read at its home controller, past the window cache. -/
def State.volatileLoad (s : State) (i : Instr) (t : ThreadAt) (o : RdRa) (n : Nat) (sh : LoadShape) : Out :=
  s.issue i t noEarly fun site c th =>
    let a := th.rx o.ra
    match homeFault a n with
    | some f => .error f
    | none =>
      let s1 := s.awaitLoad site t.t sh a [] [a.toNat / 64] false
      let s2 := s1.request site t.t (.ldv c.nextId) 2 (a.toNat / 64 * 64) [0]
      .ok (s2.modThr site t.t Thread.retire)

def execLdvD (t : ThreadAt) (o : RdRa) (s : State) : Out := s.volatileLoad (.ldvD t o) t o 8 (.int 8 true o.rd)
def execLdvW (t : ThreadAt) (o : RdRa) (s : State) : Out := s.volatileLoad (.ldvW t o) t o 4 (.int 4 true o.rd)
def execLdvL (t : ThreadAt) (o : RdRa) (s : State) : Out := s.volatileLoad (.ldvL t o) t o 64 (.line o.rd)

/-- WINV's range as lines: xb = 0 names every line. -/
def winvHit (a n : Nat) (line : Nat) : Bool := n == 0 || (decide (64 * line < a + n) && decide (a < 64 * line + 64))

/-- Log entry 8 (DESIGN CHOICE). -/
def execWinv (t : ThreadAt) (o : RaRb) (s : State) : Out :=
  s.issue (.winv t o) t noEarly fun site _ th =>
    let hit := winvHit (th.rx o.ra).toNat (th.rx o.rb).toNat
    .ok ((s.modCore site fun c => c.wcInvalidate hit).modThr site t.t Thread.retire)

/-- An atomic: fn5, operand and compare value go to the home controller (Table 9-4); this core's copy of the
line is invalidated (R152). -/
def State.atomic (s : State) (i : Instr) (t : ThreadAt) (o : XOp) (fn : Nat) : Out :=
  s.issue i t noEarly fun site c th =>
    let a := th.rx o.ra
    match homeFault a 8 with
    | some f => .error f
    | none =>
      let pay := [BitVec.ofNat 8 fn] ++ List.replicate 7 0 ++ leBytes 8 (th.rx o.rb).toNat ++
        leBytes 8 (if fn = 0x19 then (th.rx o.rd).toNat else 0)
      let s1 := s.modCore site fun c => { c with wc := c.wc.filter fun e => e.2.line != a.toNat / 64 }
      let s2 := s1.awaitLoad site t.t (.int 8 true o.rd) a [] [a.toNat / 64] false
      let s3 := s2.request site t.t (.amo c.nextId) 6 a.toNat [bytesLine pay]
      .ok (s3.modThr site t.t Thread.retire)

def execAmoAdd (t : ThreadAt) (o : XOp) (s : State) : Out := s.atomic (.amoAdd t o) t o 0x10
def execAmoAnd (t : ThreadAt) (o : XOp) (s : State) : Out := s.atomic (.amoAnd t o) t o 0x11
def execAmoOr (t : ThreadAt) (o : XOp) (s : State) : Out := s.atomic (.amoOr t o) t o 0x12
def execAmoXor (t : ThreadAt) (o : XOp) (s : State) : Out := s.atomic (.amoXor t o) t o 0x13
def execAmoMin (t : ThreadAt) (o : XOp) (s : State) : Out := s.atomic (.amoMin t o) t o 0x14
def execAmoMax (t : ThreadAt) (o : XOp) (s : State) : Out := s.atomic (.amoMax t o) t o 0x15
def execAmoMinu (t : ThreadAt) (o : XOp) (s : State) : Out := s.atomic (.amoMinu t o) t o 0x16
def execAmoMaxu (t : ThreadAt) (o : XOp) (s : State) : Out := s.atomic (.amoMaxu t o) t o 0x17
def execAmoSwap (t : ThreadAt) (o : XOp) (s : State) : Out := s.atomic (.amoSwap t o) t o 0x18
def execAmoCas (t : ThreadAt) (o : XOp) (s : State) : Out := s.atomic (.amoCas t o) t o 0x19

/-! ## The arbiter -/

/-- A thread in BLOCK goes on: it runs again and its instruction retires. -/
def Thread.unblock (th : Thread) : Thread := { th with st := .run, block := .none }.retire

/-- A thread whose waiting access the arbiter has served is woken; one whose condition holds, and that goes first, is
served now and woken (R138, Table 6-7). -/
def execTaggedAccessGrant (t : ThreadAt) (s : State) : Out :=
  match s.siteOf t.row.toNat t.col.toNat with
  | none => .next s
  | some site =>
    let c := s.core site
    match (c.thr t.t).block with
    | .tagged w =>
      if !c.expired s.now t.t &&
          c.serves s.now { classA := (c.thr t.t).cls == 1, order := w.order, kind := w.kind, slots := w.slots } then
        .next (((s.tagDo site t.t w.kind w.slots w.act).modThr site t.t Thread.unblock).tagChanged site w.kind)
      else .next s
    | .served => .next (s.modThr site t.t Thread.unblock)
    | _ => .next s

/-- A slot is written with the code of the flit that carries it: uncorrectable words and words with a single-bit error
stay so (R143, R318). -/
def State.writeSlot (s : State) (site slot : Nat) (data : Line) (bad flip : BitVec 8) : State :=
  let words (m : BitVec 8) : List Nat := ((List.range 8).filter m.getLsbD).map (· + 8 * slot)
  (s.padWrite site (64 * slot) (lineBytes data)).modCore site fun c => { c with
    padBad := c.padBad ++ words bad, padFlip := c.padFlip ++ words flip }

/-- One slot of a deposit: refused at a full tagged slot, else written whole with its code (R139, R318). -/
def State.depositSlot (s : State) (site slot : Nat) (data : Line) (bad flip : BitVec 8) : State × Bool :=
  let c := s.core site
  let tagged := c.kindAt (64 * slot) = 1
  if tagged && c.isFull slot then (s.count Ev.spdDepositFull site, false)
  else
    let s1 := s.writeSlot site slot data bad flip
    let s2 := if tagged then s1.modCore site fun c => c.setTags [slot] true else s1
    (if tagged then s2.arbitrate site else s2, true)

/-- The first flit of a list that satisfies a test, and the others. -/
def takeFlit (p : Flit → Bool) : List Flit → Option (Flit × List Flit)
  | [] => none
  | f :: r => if p f then some (f, r) else (takeFlit p r).map fun q => (q.1, f :: q.2)

/-- A burst flit from a link reaches the scratchpad aperture: its slot is deposited (R223, R278); the last
one is acknowledged. Log entry 44 (DESIGN CHOICE). -/
def execDeposit (core : CoreAt) (s : State) : Out :=
  match s.siteOf core.row.toNat core.col.toNat with
  | none => .next s
  | some site =>
    match takeFlit (fun f => f.kind == 8) (s.core site).memIn with
    | none => .next s
    | some (f, rest) =>
      let s1 := s.modCore site fun c => { c with memIn := rest }
      let s2 := (s1.depositSlot site (f.addr.toNat % padSize / 64) f.payload f.bad f.flip).1
      if f.last then
        .next (s2.injectAt site (f.answer f.dst s.epNow 0 (leBytes 2 f.txn.toNat ++ [0])))
      else .next s2

/-! ## The scrubber (R144) -/

/-- A period begins at an epoch whose number is a multiple of scrub_epochs, once at each. Log entry 42 (DESIGN CHOICE). -/
def execScrubPeriodStart (core : CoreAt) (s : State) : Out :=
  match s.siteOf core.row.toNat core.col.toNat with
  | none => .next s
  | some site =>
    if s.epoch % s.boot.rs.scrubEpochs ≠ 0 || (s.core site).scrubAt == some s.epoch then .next s
    else
      let s1 := s.modCore site fun c => { c with scrubAt := some s.epoch }
      if (s.core site).scrubRun then
        .next ((s1.modCore site fun c => { c with scrubPending := true }).count Ev.spdScrubLate site)
      else .next (s1.modCore site fun c => { c with scrubRun := true, nextSlot := 0 })

/-- The scrubber reads its next slot: it corrects and counts, and changes no tag (R143, R144).
Log entry 42 (DESIGN CHOICE). -/
def execScrubSlotRead (core : CoreAt) (s : State) : Out :=
  match s.siteOf core.row.toNat core.col.toNat with
  | none => .next s
  | some site =>
    let c := s.core site
    if !c.scrubRun then .next s
    else
      let s1 := (s.padRead site (64 * c.nextSlot) 64).1
      .next (s1.modCore site fun c =>
        if c.nextSlot < 8191 then { c with nextSlot := c.nextSlot + 1 }
        else { c with nextSlot := 0, passes := c.passes + 1, scrubRun := c.scrubPending, scrubPending := false })

end Sys2Proof.Machine
end

