-- ==== Sys2Proof/Machine/Tile.lean ====
section
/-! DEFINITION. Tiles, scale tiles and accumulators: layouts, checks, the tile port, the MMA and the
accumulator group (chapter 5). -/

namespace Sys2Proof.Machine

/-! ## Checks at issue (R131) -/

/-- What a tile or matrix instruction has to pass. -/
structure TileCheck where
  address : Option W64 := none
  named : List (BitVec 4) := []
  /-- registers read, with the rows read -/
  reads : List (BitVec 4 × List Nat) := []
  align : Option W64 := none
  tag : Option W64 := none
  /-- format and layout tags that tiles must carry -/
  fmts : List (BitVec 4 × Nat) := []
  lays : List (BitVec 4 × Nat) := []
  queue : Option W64 := none

def codeAddr (code : BitVec 4) : W64 := code.zeroExtend 64

/-- The first fault in the order of R77, R131 and R154; a deferred TROW also names its register. -/
def Core.tileFault (c : Core) (t : BitVec 2) (k : TileCheck) : Option (FaultRec × Option (BitVec 4)) :=
  let plain (o : Option FaultRec) : Option (FaultRec × Option (BitVec 4)) := o.map fun f => (f, none)
  (plain (k.address.map fun a => { cause := Cause.address, addr := a })).or <|
  (plain ((k.named.find? fun r => !c.owns t r).map fun r => { cause := 0x25, addr := codeAddr r })).or <|
  (plain (k.reads.findSome? fun p => (p.2.find? ((c.mreg p.1).badRow p.1)).map fun r =>
    { cause := 0x26, addr := BitVec.ofNat 64 (p.1.toNat + 16 * r) })).or <|
  ((k.reads.findSome? fun p => (c.mreg p.1).rowFault.map fun a =>
    ({ cause := 0x24, addr := a, deferred := true }, some p.1))).or <|
  (plain ((k.reads.find? fun p => (c.mreg p.1).poisoned).map fun p =>
    { cause := 0x27, addr := BitVec.ofNat 64 (p.1.toNat % 4), deferred := true })).or <|
  (plain (k.align.map fun a => { cause := 0x20, addr := a })).or <|
  (plain (k.tag.map fun a => { cause := 0x28, addr := a })).or <|
  (plain ((k.fmts.find? fun p => (c.mreg p.1).fmt.toNat != p.2).map fun p => { cause := 0x21, addr := codeAddr p.1 })).or <|
  (plain ((k.lays.find? fun p => (c.mreg p.1).lay.toNat != p.2).map fun p => { cause := 0x22, addr := codeAddr p.1 })).or <|
  (plain ((k.reads.find? fun p => p.2.any fun r => !(c.mreg p.1).valid.getLsbD r).map fun p =>
    { cause := 0x23, addr := BitVec.ofNat 64 ((c.mreg p.1).valid.toNat + 2 ^ 32 * p.1.toNat) })).or <|
  plain (k.queue.map queueWrite)

/-- A tile or matrix instruction: its checks, then its effect; raising TROW clears the row fault (R118).
Log entry 31 (DEDUCED). -/
def State.issueTile (s : State) (i : Instr) (a : ThreadAt) (k : Core → Thread → TileCheck)
    (f : Nat → Core → Thread → State) : Out :=
  s.issue i a noEarly fun site c th =>
    match c.tileFault a.t (k c th) with
    | none => .ok ((f site c th).modThr site a.t Thread.retire)
    | some (r, none) => .error r
    | some (r, some code) => .ok ((s.modMreg site code fun m => { m with rowFault := none }).raise site a.t r)

/-! ## Loads and stores through the tile port (R115 to R121) -/

/-- Rows whose bytes do not all have an address that a thread reaches (R71, R115). -/
def badRowAddr (o : TileOp) (r : Nat) : Bool :=
  let a := o.rowAddr r
  placeOf a == .none || placeOf (a + o.rowSize - 1) == .none

/-- TALIGN of base and stride (R115, R121). Log entry 31 (DEDUCED). -/
def alignFault (base stride : W64) (unit low : Nat) : Option W64 :=
  if base.toNat % unit ≠ 0 then some base
  else if stride.toNat % unit ≠ 0 || 2 ^ 40 ≤ stride.toNat || stride.toNat < low then some stride
  else none

def opRows (o : TileOp) : List Nat := (List.range (o.nrow - o.first)).map (· + o.first)
def firstBadRow (o : TileOp) : Option W64 :=
  ((opRows o).find? (badRowAddr o)).map fun r => BitVec.ofNat 64 (o.rowAddr r)

/-- Address of the first row that touches a region of a kind. -/
def Core.rowInKind (c : Core) (o : TileOp) (kind : Nat) : Option W64 :=
  ((opRows o).find? fun r =>
    match placeOf (o.rowAddr r) with
    | .pad off => (padSlots off o.rowSize).any fun k => c.kindAt (64 * k) == kind
    | _ => false).map fun r => BitVec.ofNat 64 (o.rowAddr r)

/-- The lowest row whose mask bit is clear (R119). -/
def MReg.firstClear (m : MReg) : Nat := (allRows.find? fun r => !m.valid.getLsbD r).getD 32

/-- The tile operation of an instruction: rows first to nrow - 1 are still to be moved. -/
def Core.tileOp (c : Core) (t : BitVec 2) (reg : BitVec 4) (store : Bool)
    (base stride : W64) (first nrow : Nat) : TileOp :=
  let f := min first nrow
  { id := c.nextId, thread := t, reg := reg, store := store, base := base, stride := stride
    first := f, nrow := nrow, rows := ((List.range (nrow - f)).map (· + f)).map fun r => (r, .pending) }

def tldOp (o : TldOp) (t : BitVec 2) (c : Core) (th : Thread) : TileOp :=
  c.tileOp t o.tgt false (th.rx o.ra) (th.rx o.rb)
    (if o.resume then (c.mreg o.tgt).firstClear else 0) (o.nrow1.toNat + 1)

/-- The operation joins the tile port. -/
def State.startTile (s : State) (site : Nat) (op : TileOp) : State :=
  if op.rows.isEmpty then s
  else
    let s1 := s.modCore site fun c => { c with tileOps := c.tileOps ++ [op], nextId := c.nextId + 1 }
    if op.store then s1 else s1.modMreg site op.reg fun m => { m with loading := true }

/-- Tags and masks when a load issues (Table 5-5, R111): rows past nrow are zero and valid. Log entry 33 (DEDUCED). -/
def MReg.beginLoad (m : MReg) (code : BitVec 4) (fmt : BitVec 4) (lay : BitVec 2) (resume : Bool) (op : TileOp) : MReg :=
  if resume then { m with valid := m.valid &&& ~~~ rowMask (opRows op) }
  else
    let m1 := if code.toNat < 8 then { m with fmt := fmt, lay := lay } else m
    let rest := allRows.filter fun r => decide (op.nrow ≤ r)
    let m2 := { m1 with valid := m1.valid &&& ~~~ rowMask (opRows op) }
    rest.foldl (fun m r => m.setRow code r (List.replicate (if isScale code then 8 else 128) 0)) m2

def execTld (t : ThreadAt) (o : TldOp) (s : State) : Out :=
  s.issueTile (.tld t o) t
    (fun c th =>
      let op := tldOp o t.t c th
      let tags := o.resume && o.tgt.toNat < 8
      { address := firstBadRow op, named := [o.tgt], align := alignFault op.base op.stride 64 0
        fmts := if tags then [(o.tgt, o.fmt.toNat)] else []
        lays := if tags then [(o.tgt, o.lay.toNat)] else [] })
    (fun site c th =>
      let op := tldOp o t.t c th
      (s.modMreg site o.tgt fun m => m.beginLoad o.tgt o.fmt o.lay o.resume op).startTile site op)

def storeCheck (c : Core) (op : TileOp) (unit low : Nat) : TileCheck :=
  { address := firstBadRow op, named := [op.reg], reads := [(op.reg, opRows op)]
    align := alignFault op.base op.stride unit low, tag := c.rowInKind op 1, queue := c.rowInKind op 2 }

def tstOp (o : TstOp) (t : BitVec 2) (c : Core) (th : Thread) : TileOp :=
  c.tileOp t o.src true (th.rx o.ra) (th.rx o.rb) 0 (o.nrow1.toNat + 1)

def execTst (t : ThreadAt) (o : TstOp) (s : State) : Out :=
  s.issueTile (.tst t o) t (fun c th => storeCheck c (tstOp o t.t c th) 64 128)
    fun site c th => s.startTile site (tstOp o t.t c th)

def tldsOp (o : TldsOp) (t : BitVec 2) (c : Core) (th : Thread) : TileOp :=
  c.tileOp t (scCode o.sc) false (th.rx o.ra) (th.rx o.rb)
    (if o.resume then (c.mreg (scCode o.sc)).firstClear else 0) 32

def execTlds (t : ThreadAt) (o : TldsOp) (s : State) : Out :=
  s.issueTile (.tlds t o) t
    (fun c th =>
      let op := tldsOp o t.t c th
      { address := firstBadRow op, named := [scCode o.sc], align := alignFault op.base op.stride 8 0 })
    (fun site c th =>
      let op := tldsOp o t.t c th
      (s.modMreg site (scCode o.sc) fun m => m.beginLoad (scCode o.sc) 0 0 o.resume op).startTile site op)

/-- Log entry 32 (DEDUCED). -/
def tstsOp (o : TstsOp) (t : BitVec 2) (c : Core) (th : Thread) : TileOp :=
  c.tileOp t (scCode o.sc) true (th.rx o.ra) (th.rx o.rb) 0 32

/-- Base and stride are multiples of 8 and the stride at least 8, as for TLDS (R116, R121). Log entry 32 (DEDUCED). -/
def execTsts (t : ThreadAt) (o : TstsOp) (s : State) : Out :=
  s.issueTile (.tsts t o) t (fun c th => storeCheck c (tstsOp o t.t c th) 8 8)
    fun site c th => s.startTile site (tstsOp o t.t c th)

/-! ## The tile port (R116 to R118) -/

/-- Lines that a row touches. -/
def rowLines (op : TileOp) (r : Nat) : List Nat :=
  dedup [op.rowAddr r / 64, (op.rowAddr r + op.rowSize - 1) / 64]

/-- Bytes of a row from its lines. -/
def rowFrom (op : TileOp) (r : Nat) (got : Tab Line) : List Byte :=
  let a := op.rowAddr r
  let first := min op.rowSize (64 - a % 64)
  tabBytes got a first ++ tabBytes got (a + first) (op.rowSize - first)

/-- The port reads a row of a load: from the scratchpad, from the window cache, or by fills (R116). -/
def State.portLoad (s : State) (site : Nat) (op : TileOp) (r : Nat) : State :=
  let a := op.rowAddr r
  let c := s.core site
  match placeOf a with
  | .pad _ =>
    let slots := c.rowSlots a op.rowSize
    if !slots.isEmpty && !c.serves s.now { classA := (c.thr op.thread).cls == 1, order := c.waitOrder, kind := 1, slots := slots } then
      (s.modCore site fun c => { c with waitOrder := c.waitOrder + 1 }).setRowSt site op r (.slots c.waitOrder)
    else s.readRow site op r
  | _ =>
    let lines := rowLines op r
    let q := lines.foldl (fun (acc : State × Tab Line × List Nat) l =>
      let w := acc.1.wcLoad site l (lineWords l a op.rowSize)
      match w.2 with
      | some d => (w.1, acc.2.1.put l d, acc.2.2)
      | none => (w.1, acc.2.1, acc.2.2 ++ [l])) (s, [], [])
    if q.2.2.isEmpty then q.1.setRowSt site op r (.arrived (rowFrom op r q.2.1))
    else (q.1.requestFills site op.thread (.tileFill op.id r) q.2.2).setRowSt site op r (.lines q.2.2 q.2.1)

/-- One line of a TST burst (R218, R219): the burst of its 4 KiB block begins, goes on, or ends with it. -/
def State.burstLine (s : State) (site : Nat) (op : TileOp) (a : Nat) (data : Line) : State × TileOp :=
  let c := s.core site
  let lo := op.rowAddr 0
  let hi := lo + 128 * op.nrow
  let block := a / 4096
  let base := max lo (4096 * block)
  let cls := clsOf (c.thr op.thread).cls
  let dst := homeAddr a
  let fresh := (op.bursts.find block).isNone
  let txn := op.bursts.at block c.burstTxn.toNat
  let ep := match c.reqs.find? fun r => r.kind == .tstBurst (BitVec.ofNat 64 base) && r.txn == txn with
    | some r => BitVec.ofNat 3 r.epoch
    | none => s.epNow
  let f : Flit := { kind := 8, cls := clsBits cls, resp := false, ep := ep
                    index := BitVec.ofNat 6 ((a - base) / 64), last := a + 64 == min hi (4096 * (block + 1))
                    dst := dst, src := s.siteAddr site, txn := BitVec.ofNat 12 txn
                    addr := BitVec.ofNat 40 a, payload := data }
  if fresh then
    let r : Req := { txn := txn, kind := .tstBurst (BitVec.ofNat 64 base), thread := op.thread, line := base / 64
                     dst := dst.toNat, epoch := s.epoch, deadline := s.now + s.classTimeout cls
                     cells := cellsAt a (lineBytes data) }
    let s1 := s.injectRequest site dst.toNat [f]
    (s1.modCore site fun c => { c with burstTxn := c.burstTxn + 1, reqs := c.reqs ++ [r] },
      { op with bursts := op.bursts.put block txn })
  else
    let more (r : Req) : Req :=
      if r.kind == .tstBurst (BitVec.ofNat 64 base) && r.txn == txn then { r with cells := r.cells ++ cellsAt a (lineBytes data) }
      else r
    ((s.modCore site fun c => { c with reqs := c.reqs.map more }).injectMore site f, op)

/-- A line of a row to stack memory: part of a burst at stride 128, else a whole-line write (R219). -/
def State.portLine (s : State) (site : Nat) (op : TileOp) (a : Nat) (b : List Byte) : State × TileOp :=
  if op.rowSize = 8 then (s.stackStore site op.thread (BitVec.ofNat 64 a) false (cellsAt a b), op)
  else if op.stride = 128 then
    let s1 := s.wcStore site (a / 64) (cellsAt a b)
    s1.burstLine site op a (bytesLine b)
  else (s.stackStore site op.thread (BitVec.ofNat 64 a) true (cellsAt a b), op)

/-- The port stores a row. -/
def State.portStore (s : State) (site : Nat) (op : TileOp) (r : Nat) : State :=
  let a := op.rowAddr r
  let b := ((s.core site).mreg op.reg).row op.reg r
  match placeOf a with
  | .pad off => (s.padWrite site off b).setRowSt site op r .written
  | _ =>
    let q := s.portLine site op a (b.take 64)
    let q2 := if op.rowSize = 8 then q else q.1.portLine site q.2 (a + 64) (b.drop 64)
    q2.1.setRowSt site q2.2 r .written

/-- The next row of an operation that the port can serve; one that waits for its slots is the arbiter's (R137).
Log entry 37 (DEDUCED). -/
def TileOp.nextRow (op : TileOp) : Option Nat :=
  (op.rows.find? fun p => p.2 == .pending).map (·.1)

/-- The next row of a thread's operations, in issue order. -/
def Core.threadRow (c : Core) (t : BitVec 2) : Option (TileOp × Nat) :=
  (c.tileOps.filter (·.thread == t)).findSome? fun op => op.nextRow.map fun r => (op, r)

/-- The port serves a row of a class A thread first, and threads of one rank in rotation (R117).
Log entry 37 (DEDUCED). -/
def Core.portChoice (c : Core) : Option (TileOp × Nat) :=
  let rank (a : Bool) (last : BitVec 2) : Option (TileOp × Nat) :=
    ([1, 2, 3, 0] : List (BitVec 2)).findSome? fun d =>
      let t := last + d
      if ((c.thr t).cls == 1) == a then c.threadRow t else none
  (rank true c.tileLastA).or (rank false c.tileLastBC)

/-- The tile port moves one row. -/
def execTilePortRow (core : CoreAt) (s : State) : Out :=
  match s.siteOf core.row.toNat core.col.toNat with
  | none => .next s
  | some site =>
    match (s.core site).portChoice with
    | none => .next s
    | some (op, r) =>
      let s1 := s.modCore site fun c =>
        if (c.thr op.thread).cls == 1 then { c with tileLastA := op.thread } else { c with tileLastBC := op.thread }
      .next (if op.store then s1.portStore site op r else s1.portLoad site op r)

/-- A line of a row arrives, or its error (R118: reason 1 uncorrectable, 3 error response or deadline). -/
def State.rowLine (s : State) (site id r line : Nat) (data : Except Nat Line) : State :=
  match (s.core site).tileOps.find? (·.id == id) with
  | none => s
  | some op =>
    match op.rows.find r with
    | some (.lines want got) =>
      match data with
      | .error reason => s.setRowSt site op r (.faulted reason)
      | .ok d =>
        let got1 := got.put line d
        let want1 := want.filter (· != line)
        if want1.isEmpty then s.setRowSt site op r (.arrived (rowFrom op r got1))
        else s.setRowSt site op r (.lines want1 got1)
    | _ => s

/-! ## Scale tiles and tile moves (Table 5-9, R129, R130) -/

def vRow (v : V1024) : List Byte := vBytes v

/-- A column's byte of every row; the word that takes it has good parity. Log entry 119 (DESIGN CHOICE). -/
def execTscw (t : ThreadAt) (o : TscwOp) (s : State) : Out :=
  s.issueTile (.tscw t o) t (fun _ _ => { named := [scCode o.sc] }) fun site _ th =>
    let col := bits (th.rx o.rb).toNat 0 3
    let b := vRow (th.rv o.va)
    s.modMreg site (scCode o.sc) fun m => { m with
      bytes := allRows.foldl (fun l r => Mem.write l (8 * r + col) (b.getD r 0)) m.bytes
      valid := BitVec.allOnes 32
      badWords := m.badWords.filter fun w => w % 2 != col / 4 }

def execTscf (t : ThreadAt) (o : TscfOp) (s : State) : Out :=
  s.issueTile (.tscf t o) t (fun _ _ => { named := [scCode o.sc] }) fun site _ th =>
    let b : Byte := (th.rx o.ra).truncate 8
    s.modMreg site (scCode o.sc) fun m => m.setAll (scCode o.sc) (List.replicate 32 (List.replicate 8 b))

/-- Row index xb[4:0]. -/
def rowIndex (x : W64) : Nat := bits x.toNat 0 5

def execTwr (t : ThreadAt) (o : TwrOp) (s : State) : Out :=
  let code := tlCode o.td
  s.issueTile (.twr t o) t (fun _ _ => { named := [code] }) fun site _ th =>
    s.modMreg site code fun m =>
      let same := m.fmt == o.fmt && m.lay == o.lay
      let m1 := { m with fmt := o.fmt, lay := o.lay, valid := if same then m.valid else 0 }
      m1.setRow code (rowIndex (th.rx o.rb)) (vRow (th.rv o.va))

def execTrd (t : ThreadAt) (o : TrdOp) (s : State) : Out :=
  let code := tlCode o.ts
  s.issueTile (.trd t o) t (fun _ th => { named := [code], reads := [(code, [rowIndex (th.rx o.rb)])] }) fun site c th =>
    s.setThr site t.t (th.wv o.vd (ofVBytes ((c.mreg code).row code (rowIndex (th.rx o.rb)))))

def execTrl (t : ThreadAt) (o : TrlOp) (s : State) : Out :=
  let code := tlCode o.td
  s.issueTile (.trl t o) t (fun _ _ => { named := [code], reads := [(code, allRows)] }) fun site c _ =>
    let rows := allRows.map ((c.mreg code).row code)
    s.modMreg site code fun m => { m with lay := o.lay }.setAll code rows

def execTz (t : ThreadAt) (o : TzOp) (s : State) : Out :=
  let code := tlCode o.td
  s.issueTile (.tz t o) t (fun _ _ => { named := [code] }) fun site _ _ =>
    s.modMreg site code fun m => { m with
      bytes := [], fmt := o.fmt, lay := o.lay, valid := BitVec.allOnes 32, badWords := [] }

/-! ## The MMA (R122 to R124, R127, R128) -/

def mmaCheck (o : MmaOp) : TileCheck :=
  let acc := acCode o.acd
  let ta := tlCode o.ta
  let tb := tlCode o.tb
  let sc := if o.mx then [scCode o.sa, scCode o.sb] else []
  { named := [acc, ta, tb] ++ sc
    reads := ((if o.zero then [] else [acc]) ++ [ta, tb] ++ sc).map fun r => (r, allRows)
    fmts := [(ta, o.fmt.toNat), (tb, o.fmt.toNat)]
    lays := [(ta, 1), (tb, 2)] }

/-- The MMA issues and holds the engine until it completes. -/
def execMma (t : ThreadAt) (o : MmaOp) (s : State) : Out :=
  s.issueTile (.mma t o) t (fun _ _ => mmaCheck o) fun site _ _ =>
    s.modCore site fun c => { c with mma := some { thread := t.t, op := o } }

/-- Elements of a group of 16 bytes. -/
def groupElems (fmt : Nat) (b : List Byte) : List Nat :=
  let w := elemBits fmt
  let v := leNat b
  (List.range (128 / w)).map fun i => bits v (w * i) w

/-- Value of an element of an operand; an MXINT8 element k stands for k x 2^-6 (R122). -/
def mmaVal (fmt : Nat) (mx : Bool) (v : Nat) : FVal :=
  if mx && fmt == 9 then scaleVal (-6) (elemVal 9 v) else elemVal fmt v

/-- The exact sum of products, with the invalid cases of R123; a zero sum is +0. Log entry 36 (DEDUCED). -/
def groupSum (ps : List FRes) : FRes :=
  let fl := ps.foldl (fun f p => f ||| p.2) 0
  let inf (n : Bool) := ps.any fun p => p.1 == .inf n
  if inf false && inf true then (.nan false, fl ||| fNV)
  else if ps.any (·.1.isNan) then (.nan false, fl)
  else if inf false then (.inf false, fl)
  else if inf true then (.inf true, fl)
  else (ps.foldl (fun a p => (fAdd .nearestEven a p.1).1) (.fin false 0 0), fl)

/-- A group value times its two E8M0 scales; code 0xFF is a NaN (R122, R123). -/
def scaleGroup (g : FRes) (sa sb : Nat) : FRes :=
  if sa = 255 || sb = 255 then (.nan false, g.2)
  else (scaleVal ((sa : Int) - 127 + ((sb : Int) - 127)) g.1, g.2)

/-- One operand row decoded, group by group. -/
def opGroups (fmt : Nat) (mx : Bool) (row : List Byte) : List (List FVal) :=
  (List.range 8).map fun q => (groupElems fmt (slice row (16 * q) 16)).map (mmaVal fmt mx)

/-- Scale byte of group q of a row (R120). -/
def scaleOf (fmt : Nat) (row : List Byte) (q : Nat) : Nat :=
  (row.getD (if elemBits fmt = 4 then q else q / 2) 0).toNat

/-- One element of the result in a floating-point form. Log entry 36 (DEDUCED). -/
def mmaElem (fmt : Nat) (mx : Bool) (acc : Nat) (a b : List (List FVal)) (sa sb : List Byte) : Nat × Flags :=
  (List.range 8).foldl (fun (st : Nat × Flags) q =>
    let g := groupSum (List.zipWith fMul (a.getD q []) (b.getD q []))
    let g := if mx then scaleGroup g (scaleOf fmt sa q) (scaleOf fmt sb q) else g
    let r := binary32.finish .nearestEven (fAdd .nearestEven (binary32.decode st.1) g.1)
    (r.1, st.2 ||| g.2 ||| r.2)) (acc, 0)

/-- Signed elements of an integer operand row. -/
def intElems (fmt : Nat) (row : List Byte) : List Int :=
  ((List.range 8).flatMap fun q => groupElems fmt (slice row (16 * q) 16)).map (toSigned (elemBits fmt))

/-- INT32 accumulation modulo 2^32 (R122). -/
def mmaInt (acc : Nat) (a b : List Int) : Nat :=
  ofSigned 32 ((acc : Int) + (List.zipWith (· * ·) a b).foldl (· + ·) 0)

/-- Words of an accumulator row, and back. -/
def rowWords (b : List Byte) : List Nat := (List.range 32).map fun i => field b (4 * i) 4
def wordsRow (l : List Nat) : List Byte := l.flatMap (leBytes 4)

/-- The rows of a matrix register. -/
def Core.rowsOf (c : Core) (code : BitVec 4) : List (List Byte) := allRows.map ((c.mreg code).row code)

/-- The accumulator rows and the flags that an MMA leaves (R122, R123). -/
def Core.mmaRun (c : Core) (o : MmaOp) : List (List Byte) × Flags :=
  let fmt := o.fmt.toNat
  let rowsA := c.rowsOf (tlCode o.ta)
  let rowsB := c.rowsOf (tlCode o.tb)
  let acc := if o.zero then List.replicate 32 (List.replicate 32 0) else (c.rowsOf (acCode o.acd)).map rowWords
  if !o.mx && (fmt == 9 || fmt == 10) then
    let ia := rowsA.map (intElems fmt)
    let ib := rowsB.map (intElems fmt)
    (allRows.map fun m => wordsRow (allRows.map fun n =>
      mmaInt ((acc.getD m []).getD n 0) (ia.getD m []) (ib.getD n [])), 0)
  else
    let ga := rowsA.map (opGroups fmt o.mx)
    let gb := rowsB.map (opGroups fmt o.mx)
    let sa := c.rowsOf (scCode o.sa)
    let sb := c.rowsOf (scCode o.sb)
    let res := allRows.map fun m => allRows.map fun n =>
      mmaElem fmt o.mx ((acc.getD m []).getD n 0) (ga.getD m []) (gb.getD n []) (sa.getD m []) (sb.getD n [])
    (res.map fun l => wordsRow (l.map (·.1)), res.foldl (fun f l => l.foldl (fun f p => f ||| p.2) f) 0)

/-- The MMA ends: result, flags, and with chk a mismatch poisons the accumulator (R124, R128); any instruction but the next
MMA awaits the accumulator for six more steps (Table 5-6). -/
def State.endMma (s : State) (site : Nat) (m : MmaRun) (mismatch : Bool) : State :=
  let c := s.core site
  let r := c.mmaRun m.op
  let code := acCode m.op.acd
  let bad := m.op.chk && mismatch
  let s1 := (s.modCore site fun c => { c with
    mma := none, lateMat := renew c.steps c.lateMat [(code, c.steps + 6, true)] }).modMreg site code fun a =>
    { (a.setAll code r.1) with poisoned := bad, told := false }
  let s2 := s1.modThr site m.thread fun th => th.orFlags r.2
  if bad then s2.count Ev.tileCheck site else s2

/-- Log entry 35 (DEDUCED). -/
def execMmaComplete (core : CoreAt) (mismatch : Bool) (s : State) : Out :=
  match s.siteOf core.row.toNat core.col.toNat with
  | none => .next s
  | some site =>
    match (s.core site).mma with
    | none => .next s
    | some m => .next (s.endMma site m mismatch)

/-! ## The accumulator group (Table 5-7, R126) -/

/-- Writes an accumulator whole from rows of words. Log entry 34 (DEDUCED). -/
def State.putAcc (s : State) (site : Nat) (code : BitVec 4) (rows : List (List Nat)) : State :=
  s.modMreg site code fun m => m.setAll code (rows.map wordsRow)

def execAzero (t : ThreadAt) (o : AccOp) (s : State) : Out :=
  let code := acCode o.acd
  s.issueTile (.azero t o) t (fun _ _ => { named := [code] }) fun site _ _ =>
    s.modMreg site code fun m => { m with
      bytes := [], valid := BitVec.allOnes 32, badWords := [], poisoned := false, told := false }

/-- Log entry 34 (DEDUCED). -/
def execAcopy (t : ThreadAt) (o : AccAcc) (s : State) : Out :=
  s.issueTile (.acopy t o) t
    (fun _ _ => { named := [acCode o.acd, acCode o.acs], reads := [(acCode o.acs, allRows)] }) fun site c _ =>
    s.modMreg site (acCode o.acd) fun m => m.setAll (acCode o.acd) (c.rowsOf (acCode o.acs))

/-- AMAX, AMIN: elementwise, under R88. -/
def State.accPair (s : State) (i : Instr) (t : ThreadAt) (o : AccAcc) (isMax : Bool) : Out :=
  let d := acCode o.acd
  let e := acCode o.acs
  s.issueTile i t (fun _ _ => { named := [d, e], reads := [(d, allRows), (e, allRows)] }) fun site c _ =>
    let res := List.zipWith (List.zipWith (binary32.minMax isMax))
      ((c.rowsOf d).map rowWords) ((c.rowsOf e).map rowWords)
    let fl := res.foldl (fun f l => l.foldl (fun f p => f ||| p.2) f) 0
    (s.putAcc site d (res.map fun l => l.map (·.1))).modThr site t.t fun th => th.orFlags fl

def execAmax (t : ThreadAt) (o : AccAcc) (s : State) : Out := s.accPair (.amax t o) t o true
def execAmin (t : ThreadAt) (o : AccAcc) (s : State) : Out := s.accPair (.amin t o) t o false

def execArd (t : ThreadAt) (o : ArdOp) (s : State) : Out :=
  let code := acCode o.acs
  s.issueTile (.ard t o) t (fun _ th => { named := [code], reads := [(code, [rowIndex (th.rx o.rb)])] }) fun site c th =>
    s.setThr site t.t (th.wv o.vd (ofVBytes ((c.mreg code).row code (rowIndex (th.rx o.rb)))))

def execAwr (t : ThreadAt) (o : AwrOp) (s : State) : Out :=
  let code := acCode o.acd
  s.issueTile (.awr t o) t (fun _ _ => { named := [code] }) fun site _ th =>
    s.modMreg site code fun m => m.setRow code (rowIndex (th.rx o.rb)) (vRow (th.rv o.va))

/-- ARMAX, ARMIN: lane r reduces row r from the canonical NaN (R88, R126). -/
def State.accReduce (s : State) (i : Instr) (t : ThreadAt) (o : AredOp) (isMax : Bool) : Out :=
  let code := acCode o.acs
  s.issueTile i t (fun _ _ => { named := [code], reads := [(code, allRows)] }) fun site c th =>
    let res := (c.rowsOf code).map fun b => (rowWords b).foldl (fun (a : Nat × Flags) v =>
      let r := binary32.minMax isMax a.1 v
      (r.1, a.2 ||| r.2)) (binary32.nan, 0)
    let fl := res.foldl (fun f p => f ||| p.2) 0
    s.setThr site t.t ((th.wv o.vd (ofVBytes (wordsRow (res.map (·.1))))).orFlags fl)

def execArmax (t : ThreadAt) (o : AredOp) (s : State) : Out := s.accReduce (.armax t o) t o true
def execArmin (t : ThreadAt) (o : AredOp) (s : State) : Out := s.accReduce (.armin t o) t o false

/-- ASCR, ASUBR: every value of row r with lane r of va, under roundTiesToEven (R126). -/
def State.accLane (s : State) (i : Instr) (t : ThreadAt) (o : AvecOp) (f : Nat → Nat → Nat × Flags) : Out :=
  let code := acCode o.acd
  s.issueTile i t (fun _ _ => { named := [code], reads := [(code, allRows)] }) fun site c th =>
    let v := rowWords (vBytes (th.rv o.va))
    let res := List.zipWith (fun b x => (rowWords b).map (f · x)) (c.rowsOf code) v
    let fl := res.foldl (fun f l => l.foldl (fun f p => f ||| p.2) f) 0
    (s.putAcc site code (res.map fun l => l.map (·.1))).modThr site t.t fun th => th.orFlags fl

def execAscr (t : ThreadAt) (o : AvecOp) (s : State) : Out := s.accLane (.ascr t o) t o (binary32.mul .nearestEven)
def execAsubr (t : ThreadAt) (o : AvecOp) (s : State) : Out := s.accLane (.asubr t o) t o (binary32.sub .nearestEven)

end Sys2Proof.Machine
end

