-- ==== Sys2Proof/Machine/Resp.lean ====
section
/-! DEFINITION. What ends a core's requests and waits: fills, tile rows, other responses, deadlines (R72, R118,
R148, R211), FENCE (R75) and the timer compare (R55, R56). -/

namespace Sys2Proof.Machine

/-! ## Responses -/

/-- The kind of flit that answers a request (Table 8-5). -/
def ReqKind.answer : ReqKind → BitVec 4
  | .fill _ => 3
  | .tileFill _ _ => 3
  | .ldv _ => 3
  | .amo _ => 7
  | .store _ => 5
  | .tstBurst _ => 9

def ReqKind.isFill : ReqKind → Bool
  | .fill _ => true
  | _ => false
def ReqKind.isTileFill : ReqKind → Bool
  | .tileFill _ _ => true
  | _ => false

/-- The request that a response flit answers. -/
def Core.reqOf (c : Core) (f : Flit) : Option Req :=
  c.reqs.find? fun r => r.txn == f.txn.toNat && r.kind.answer == f.kind

/-- Tag of a response (Table 9-4): a commit acknowledgement carries its burst's txn in the header too. -/
def Core.answers (c : Core) (p : ReqKind → Bool) (f : Flit) : Bool :=
  match c.reqOf f with
  | some r => p r.kind
  | none => false

/-- Takes the first flit of the core's memory responses that passes a test. -/
def State.popMem (s : State) (site : Nat) (p : Flit → Bool) : Option (Flit × State) :=
  (takeFlit p (s.core site).memIn).map fun q => (q.1, s.modCore site fun c => { c with memIn := q.2 })

def State.dropReq (s : State) (site : Nat) (r : Req) : State :=
  let fill := r.kind.isFill || r.kind.isTileFill
  s.modCore site fun c => { c with
    reqs := c.reqs.erase r
    fills := if fill then c.fills.filter (·.txn != r.txn) else c.fills }

/-- Status of a response (R210, Table 9-4). -/
def respStatus (f : Flit) : Nat :=
  let b := lineBytes f.payload
  let at0 := (b.getD 0 0).toNat
  if f.kind = 5 then at0
  else if f.kind = 9 then (b.getD 2 0).toNat
  else if f.index = 63 then at0
  else if f.kind = 7 then (b.getD 8 0).toNat
  else 0

/-- A response carries data that the requester may use: status OK and no uncorrectable payload word. -/
def respGood (f : Flit) : Bool := respStatus f == 0 && f.bad == 0

/-- A line arrives for a fill: it is installed, with the stores that left the core meanwhile, unless WINV or a
plan switch named it or an earlier fill installed it (R148, R151, R153). Log entry 40 (DEDUCED). -/
def Core.takeFill (c : Core) (r : Req) (data : Line) : Core :=
  match c.fills.find? fun f => f.txn == r.txn with
  | none => c
  | some f =>
    if f.noInstall || (c.wcFind f.line).isSome then c
    else c.wcInstall f.line (overlay data f.line (f.early ++ f.stores)) f.cls

/-- The line that a fill gives its load: with the stores that had left the core before it (R147). -/
def Core.fillData (c : Core) (r : Req) (data : Line) : Line :=
  match c.fills.find? fun f => f.txn == r.txn with
  | some f => overlay data f.line f.early
  | none => data

/-- A fill arrives, serves its load and is installed; one with an error poisons its load (R72, R148). -/
def execWindowCacheFill (core : CoreAt) (s : State) : Out :=
  match s.siteOf core.row.toNat core.col.toNat with
  | none => .next s
  | some site =>
    match s.popMem site ((s.core site).answers ReqKind.isFill) with
    | none => .next s
    | some (f, s1) =>
      match (s.core site).reqOf f with
      | some r =>
        match r.kind with
        | .fill id =>
          let good := respGood f
          let s2 := if good then s1.modCore site fun c => c.takeFill r f.payload else s1
          .next ((s2.dropReq site r).loadLine site id r.line (if good then some ((s.core site).fillData r f.payload) else none))
        | _ => .next s1
      | none => .next s1

/-- A tile row's line or its error arrives (R116, R118). -/
def execTileRowResponse (core : CoreAt) (s : State) : Out :=
  match s.siteOf core.row.toNat core.col.toNat with
  | none => .next s
  | some site =>
    match s.popMem site ((s.core site).answers ReqKind.isTileFill) with
    | none => .next s
    | some (f, s1) =>
      match (s.core site).reqOf f with
      | some r =>
        match r.kind with
        | .tileFill op row =>
          let good := respGood f
          let s2 := if good then s1.modCore site fun c => c.takeFill r f.payload else s1
          let reason := if respStatus f = 0 || respStatus f = 2 then 1 else 3
          .next ((s2.dropReq site r).rowLine site op row r.line (if good then .ok ((s.core site).fillData r f.payload) else .error reason))
        | _ => .next s1
      | none => .next s1

/-- A store, write or burst of a thread is acknowledged with an error: a FENCE will raise it (R211). -/
def Thread.noteStoreErr (th : Thread) (a : W64) : Thread :=
  { th with storeErr := th.storeErr.or (some a) }

/-- What ends a request other than a fill. -/
def State.endReq (s : State) (site : Nat) (r : Req) (f : Option Flit) : State :=
  let good := match f with
    | some f => respGood f
    | none => false
  let s1 := s.dropReq site r
  match r.kind with
  | .fill id => s1.loadLine site id r.line none
  | .tileFill op row => s1.rowLine site op row r.line (.error 3)
  | .ldv id => s1.loadLine site id r.line (if good then f.map (·.payload) else none)
  | .amo id =>
    let old := (f.map fun f => slice (lineBytes f.payload) 0 8).getD []
    let addr := ((s.core site).loads.find? (·.id == id)).map fun o => o.addr.toNat % 64
    s1.loadLine site id r.line (if good then some (bytesLine (putBytes [] (addr.getD 0) old)) else none)
  | .store a => if good then s1 else s1.modThr site r.thread fun th => th.noteStoreErr a
  | .tstBurst a => if good then s1 else s1.modThr site r.thread fun th => th.noteStoreErr a

/-- A spill burst of the core that waits for the acknowledgement in a flit (R165). -/
def Core.spillOf (c : Core) (f : Flit) : Option SpillWait :=
  if f.kind = 9 then c.spillWaits.find? (·.burst == f.txn.toNat) else none

/-- A line of a spilled entry comes back, or an error in its place (R166). -/
def Core.refillLine (c : Core) (txn : Nat) (got : Option (Line × BitVec 8)) : Core :=
  let put (x : RefillRead) : RefillRead := if x.txn = txn && x.got.isNone then { x with got := some got } else x
  { c with refills := c.refills.map fun r => { r with reads := r.reads.map put } }

/-- A volatile load's, an atomic's, a write's, a TST burst's or a refill read's response; one that answers nothing is
discarded (R211). -/
def execMemoryResponse (core : CoreAt) (s : State) : Out :=
  match s.siteOf core.row.toNat core.col.toNat with
  | none => .next s
  | some site =>
    let c := s.core site
    match s.popMem site (fun f => f.kind != 8 && (c.spillOf f).isNone && !c.answers (fun k => k.isFill || k.isTileFill) f) with
    | none => .next s
    | some (f, s1) =>
      match c.reqOf f with
      | some r => .next (s1.endReq site r (some f))
      | none =>
        let got := if respGood f then some (f.payload, f.flip) else none
        .next (if f.kind = 3 then s1.modCore site fun c => c.refillLine f.txn.toNat got else s1)

/-- A stream command of a blocked thread ends with DATA (R211, R231). -/
def Thread.streamLost (th : Thread) : Thread := { th with strmResp := 0, strmStat := 5 }.unblock

def ReqKind.isBurst : ReqKind → Bool
  | .tstBurst _ => true
  | _ => false

/-- A request's deadline passes with no response (R211).  A request is named by its txn, the stream command of
thread t by 4096 + t, a burst by 8192 + txn.  A spill burst that is not acknowledged in time is lost (R165), and a refill
read ends as one that came back with an error. Log entries 5 (DESIGN CHOICE), 43 (DEDUCED), 123 (DESIGN CHOICE). -/
def execRequestDeadline (core : CoreAt) (req : Nat) (s : State) : Out :=
  match s.siteOf core.row.toNat core.col.toNat with
  | none => .next s
  | some site =>
    let c := s.core site
    match c.reqs.find? fun r => (if r.kind.isBurst then 8192 + r.txn else r.txn) == req with
    | some r => .next ((s.advanceTo r.deadline).endReq site r none)
    | none =>
      let t := BitVec.ofNat 2 (req - 4096)
      if 8192 ≤ req then
        match c.spillWaits.find? fun w => 8192 + w.burst == req with
        | some w =>
          let late (x : SpillWait) : SpillWait := if x.burst = w.burst then { x with lost := true } else x
          .next ((s.advanceTo w.deadline).modCore site fun c => { c with spillWaits := c.spillWaits.map late })
        | none => .next s
      else if req < 4096 then
        match (c.refills.flatMap (·.reads)).find? fun x => x.txn == req && x.got.isNone with
        | some x => .next ((s.advanceTo x.deadline).modCore site fun c => c.refillLine req none)
        | none => .next s
      else if 4100 ≤ req then .next s
      else
        match (c.thr t).block with
        | .stream k => .next ((s.advanceTo k.deadline).modThr site t Thread.streamLost)
        | _ => .next s

/-! ## FENCE (R75) -/

/-- The matrix registers of a thread. -/
def Core.ownRegs (c : Core) (t : BitVec 2) : List (BitVec 4) :=
  ((List.range 16).map (BitVec.ofNat 4)).filter (c.owns t)

/-- The deferred fault that a FENCE raises, and the state with what told of it cleared (R72, R118, R128, R211).
Log entry 30 (DEDUCED). -/
def State.deferred (s : State) (site : Nat) (t : BitVec 2) : Option (FaultRec × State) :=
  let c := s.core site
  let th := c.thr t
  match th.poison.find? fun p => !p.2.2 with
  | some p => some ({ cause := Cause.dataError, addr := p.2.1, deferred := true }, s)
  | none =>
    match th.storeErr with
    | some a => some ({ cause := Cause.dataError, addr := a, deferred := true },
        s.modThr site t fun th => { th with storeErr := none })
    | none =>
      let regs := c.ownRegs t
      match regs.findSome? fun r => (c.mreg r).rowFault.map fun a => (r, a) with
      | some (r, a) => some ({ cause := 0x24, addr := a, deferred := true },
          s.modMreg site r fun m => { m with rowFault := none })
      | none =>
        (regs.find? fun r => (c.mreg r).poisoned && !(c.mreg r).told).map fun r =>
          ({ cause := 0x27, addr := BitVec.ofNat 64 (r.toNat % 4), deferred := true },
            s.modMreg site r fun m => { m with told := true })

/-- A FENCE raises a deferred fault that stands, else its thread waits for its earlier loads and stores.
Log entries 21 (DEDUCED), 30 (DEDUCED), 34 (DEDUCED). -/
def execFence (t : ThreadAt) (s : State) : Out :=
  s.issue (.fence t) t noEarly fun site _ _ =>
    match s.deferred site t.t with
    | some (f, s1) => .ok (s1.raise site t.t f)
    | none => .ok (s.modThr site t.t fun th => { th with st := .block, block := .fence })

/-- Every earlier load and store of the thread has ended. -/
def Core.quiet (c : Core) (t : BitVec 2) : Bool :=
  !(c.loads.any (·.thread == t)) && !(c.reqs.any (·.thread == t)) && !(c.tileOps.any (·.thread == t))

/-- The fenced thread leaves BLOCK, raising any deferred fault. Log entry 30 (DEDUCED). -/
def execFenceComplete (t : ThreadAt) (s : State) : Out :=
  match s.siteOf t.row.toNat t.col.toNat with
  | none => .next s
  | some site =>
    let c := s.core site
    if (c.thr t.t).block == .fence && c.quiet t.t then
      match s.deferred site t.t with
      | some (f, s1) => .next (s1.raise site t.t f)
      | none => .next (s.modThr site t.t Thread.unblock)
    else .next s

/-! ## Timer compare (R55, R56, R137, R168) -/

/-- Rows of a thread's tile loads that wait for tags fault with reason 2 (R137). -/
def State.timeoutRows (s : State) (site : Nat) (t : BitVec 2) : State :=
  ((s.core site).tileOps.filter (·.thread == t)).foldl (fun s op =>
    match op.rows.find? fun p => match p.2 with
      | .slots _ => true
      | _ => false with
    | some p => s.setRowSt site op p.1 (.faulted 2)
    | none => s) s

/-- Chip time reaches THR_TCMP: a sleeper wakes, a blocked tagged access or SEND ends with its fault.
Log entries 20 (DESIGN CHOICE), 46 (DEDUCED). -/
def execTimerCompareMatch (t : ThreadAt) (s : State) : Out :=
  match s.siteOf t.row.toNat t.col.toNat with
  | none => .next s
  | some site =>
    let th := s.thr site t.t
    if th.tcmp = tcmpOff then .next s
    else
      let s1 := (s.advanceTo th.tcmp.toNat).timeoutRows site t.t
      if th.st == .sleep then .next (s1.modThr site t.t fun th => { th with st := .run })
      else
        match th.block with
        | .tagged w =>
          let a := BitVec.ofNat 64 (padBase + 64 * w.slots.headD 0)
          .next ((s1.count Ev.spdTagTimeout site).raise site t.t { cause := Cause.tagTimeout, addr := a })
        | .send o => .next (s1.raise site t.t { cause := 0x40, addr := th.rx o.ra })
        | _ => .next s1

end Sys2Proof.Machine
end

