-- ==== Sys2Proof/Machine/Scion.lean ====
section
/-! DEFINITION. Scions: sending, offers and responses, arrival, queues, spilling and dispatch (chapter 7). -/

namespace Sys2Proof.Machine

/-! ## The scion header (Table 7-2) -/

def hdrHandler (b : List Byte) : Nat := bits (field b 0 4) 0 8
def hdrClass (b : List Byte) : Nat := bits (field b 0 4) 8 2
def hdrLength (b : List Byte) : Nat := bits (field b 0 4) 10 9
def hdrVersion (b : List Byte) : Nat := bits (field b 0 4) 20 4
def hdrSkip (b : List Byte) : Nat := bits (field b 0 4) 24 4
def hdrSeq (b : List Byte) : Nat := field b 4 4
def hdrViaLink (b : List Byte) : Bool := bitAt (field b 8 8) 30

/-- Slots of a scion: 1 if inline, else the header and its payload slots (R156). -/
def slotNeed (len : Nat) : Nat := if len ≤ 32 then 1 else 1 + (len + 63) / 64
/-- Payload slots of a scion. -/
def payloadSlots (len : Nat) : Nat := (len + 63) / 64

/-- Reserved header fields are zero. -/
def hdrReserved (b : List Byte) : Bool :=
  bits (field b 0 4) 28 4 == 0 && bits (field b 8 8) 36 28 == 0 &&
  bits (field b 16 8) 29 35 == 0 && bits (field b 24 8) 40 24 == 0

/-- Fields of the send unit and of the ingress link adapter are zero in an image (R157). -/
def hdrUnset (b : List Byte) : Bool :=
  bits (field b 0 4) 8 2 == 0 && !bitAt (field b 0 4) 19 && bits (field b 0 4) 24 4 == 0 &&
  field b 4 4 == 0 && field b 8 8 == 0 && field b 16 8 == 0

/-! ## Logical position of a site -/

/-- Row and column of the core on a site. -/
def State.posOf (s : State) (site : Nat) : Nat × Nat := (blkCoreOf (s.routes s.epoch) site).getD (0, 0)

/-! ## Inbound queues (R160, R161) -/

def qIdx : Cls → Fin 3
  | .a => 0
  | .b => 1
  | .c => 2
def Core.queue (c : Core) (k : Cls) : Queue := c.queues[(qIdx k).val]
def Core.setQueue (c : Core) (k : Cls) (q : Queue) : Core := { c with queues := c.queues.set (qIdx k).val q }
def State.modQueue (s : State) (site : Nat) (k : Cls) (f : Queue → Queue) : State :=
  s.modCore site fun c => c.setQueue k (f (c.queue k))

/-- Base slot, depth and slots per entry of a queue (R160, SCN_QCFG). -/
def Core.qBase (c : Core) (k : Cls) : Nat := bits (c.qcfg[(qIdx k).val]).toNat 0 13
def Core.qDepth (c : Core) (k : Cls) : Nat := bits (c.qcfg[(qIdx k).val]).toNat 13 9
def Core.qSlots (c : Core) (k : Cls) : Nat := bits (c.qcfg[(qIdx k).val]).toNat 22 3
def Core.qFree (c : Core) (k : Cls) : Bool := decide ((c.queue k).live.length < c.qDepth k)
/-- First slot of an entry. -/
def Core.qSlot (c : Core) (k : Cls) (e : Nat) : Nat := c.qBase k + e * c.qSlots k

/-- The entry whose first slot is at an address, claimed by a thread. -/
def Core.claimedAt (c : Core) (t : BitVec 2) (a : W64) : Option (Cls × Nat) :=
  match placeOf a.toNat with
  | .pad off =>
    if off % 64 ≠ 0 then none
    else [Cls.a, Cls.b, Cls.c].findSome? fun k =>
      ((c.queue k).live.find? fun e => c.qSlot k e.idx == off / 64 && e.st == .claimed t).map fun e => (k, e.idx)
  | _ => none

/-! ## SEND (R167, R168, Table 7-6) -/

def destNode (d : W64) : Nat := bits d.toNat 0 18
def destRow (d : W64) : Nat := bits d.toNat 18 5
def destCol (d : W64) : Nat := bits d.toNat 23 5

/-- A span names cores of the grid, and xb its first core (R200). -/
def State.spanOk (s : State) (sp d : W64) : Bool :=
  let v := sp.toNat
  let kind := bits v 0 2
  let rl := bits v 2 5
  let rh := bits v 7 5
  let cl := bits v 12 5
  let ch := bits v 17 5
  kind != 0 && bits v 22 42 == 0 && decide (rl ≤ rh) && decide (cl ≤ ch) && s.inShape rh ch &&
  (kind != 1 || rl == rh) && (kind != 2 || cl == ch) && destRow d == rl && destCol d == cl

/-- The destination word and the span of a SEND (Table 7-6). -/
def State.destOk (s : State) (d : W64) (span : Option W64) : Bool :=
  let here := destNode d == s.boot.rs.node
  bits d.toNat 28 36 == 0 && (!here || s.inShape (destRow d) (destCol d)) &&
  (match span with
   | none => true
   | some sp => here && s.spanOk sp d)

/-- The faults of a SEND, in the order of R77 and R182; an image that is the thread's own entry is forwarded with the
fields that its header holds, which the send unit writes anew (R175). Log entry 124 (DEDUCED). -/
def State.sendFault (s : State) (c : Core) (t : BitVec 2) (th : Thread) (o : SendOp) : Option FaultRec :=
  let a := th.rx o.ra
  if a.toNat % 64 ≠ 0 then some { cause := Cause.misaligned, addr := a }
  else
    match placeOf a.toNat with
    | .pad off =>
      let h := Mem.readN c.pad off 64
      let need := slotNeed (hdrLength h)
      if padSize < off + 64 * need then some { cause := Cause.address, addr := a }
      else if o.cls.toNat < th.cls.toNat then some { cause := 0x43, addr := o.cls.zeroExtend 64 }
      else if !s.destOk (th.rx o.rb) (if o.rc = 0 then none else some (th.rx o.rc)) then
        some { cause := 0x41, addr := th.rx o.rb }
      else if !((hdrUnset h || (c.claimedAt t a).isSome) && hdrReserved h && hdrVersion h == 1 && decide (hdrLength h ≤ 256)) ||
          (List.range need).any (fun i => c.kindAt (off + 64 * i) == 1) then
        some { cause := 0x42, addr := a }
      else none
    | _ => some { cause := Cause.address, addr := a }

/-- Send entries of a class (R168). -/
def sendCap : Cls → Nat
  | .a => 4
  | .b => 16
  | .c => 16
def Core.sendCount (c : Core) (cls : Cls) : Nat := (c.sends.filter (·.cls == cls)).length
def Core.sendRoom (c : Core) (cls : Cls) : Bool := decide (c.sendCount cls < sendCap cls)

/-- The image with the send unit's fields and zero padding; of the inline area, a longer scion keeps dest_offset
(R156, R157, Table 7-2). -/
def sendImage (b : List Byte) (cls : BitVec 2) (seq : W32) (node row col t : Nat) (d : W64) (mcast : Bool) : List Byte :=
  let len := hdrLength b
  let w0 := hdrHandler b + 256 * cls.toNat + 1024 * len + 2 ^ 20 * hdrVersion b
  let w1 := node % 2 ^ 18 + row % 32 * 2 ^ 18 + col % 32 * 2 ^ 23 + t % 4 * 2 ^ 28
  let w2 := bits d.toNat 0 28 + (if mcast then 2 ^ 28 else 0)
  let head := leBytes 4 w0 ++ leBytes 4 seq.toNat ++ leBytes 8 w1 ++ leBytes 8 w2 ++ slice b 24 8
  let tail := if len ≤ 32 then slice (slice b 32 len) 0 32
    else slice (slice b 32 4) 0 32 ++ slice (slice b 64 len) 0 (64 * payloadSlots len)
  head ++ tail

/-- The first free entry number of a class. -/
def Core.freeSend (c : Core) (cls : Cls) : Nat :=
  ((List.range 16).find? fun i => !(c.sends.any fun e => e.cls == cls && e.slot == i)).getD 0

/-- A SEND takes an entry: the image is read, corrected and counted as scratchpad reads are, and copied with its
uncorrectable words as they are (R143, R316); rd := send_seq, and the thread goes on. -/
def State.takeSend (s0 : State) (site : Nat) (t : BitVec 2) (o : SendOp) : State :=
  let th := (s0.core site).thr t
  let off := (th.rx o.ra).toNat - padBase
  let need := slotNeed (hdrLength (Mem.readN (s0.core site).pad off 64))
  let s := (s0.padCheck site (padWords off (64 * need))).1
  let c := s.core site
  let b := Mem.readN c.pad off (64 * need)
  let pos := s.posOf site
  let span := if o.rc = 0 then none else some (th.rx o.rc)
  let cls := clsOf o.cls
  let e : SendEntry :=
    { slot := c.freeSend cls, cls := cls
      image := sendImage b o.cls th.sendSeq s.boot.rs.node pos.1 pos.2 t.toNat (th.rx o.rb) span.isSome
      bad := (c.padBad.filter fun w => off / 8 ≤ w && w < off / 8 + 8 * need).map (· - off / 8)
      dest := th.rx o.rb, span := span, thread := t, seq := th.sendSeq }
  (s.modCore site fun c => { c with sends := c.sends ++ [e] }).modThr site t fun th =>
    { (th.wx o.rd (th.sendSeq.zeroExtend 64)) with sendSeq := th.sendSeq + 1 }

def execSend (t : ThreadAt) (o : SendOp) (s : State) : Out :=
  s.issue (.send t o) t noEarly fun site c th =>
    match s.sendFault c t.t th o with
    | some f => .error f
    | none =>
      if c.sendRoom (clsOf o.cls) then .ok ((s.takeSend site t.t o).modThr site t.t Thread.retire)
      else .ok (s.modThr site t.t fun th => { th with st := .block, block := .send o })

/-- A blocked SEND completes once an entry of its class is free. Log entries 20 (DESIGN CHOICE), 46 (DEDUCED). -/
def execSendResume (t : ThreadAt) (s : State) : Out :=
  match s.siteOf t.row.toNat t.col.toNat with
  | none => .next s
  | some site =>
    let c := s.core site
    match (c.thr t.t).block with
    | .send o =>
      if c.sendRoom (clsOf o.cls) then .next ((s.takeSend site t.t o).modThr site t.t Thread.unblock)
      else .next s
    | _ => .next s

/-! ## Offers (R169 to R172) -/

/-- A link is UP. -/
def State.linkUp (s : State) (k : Nat) : Bool := k < 24 && (s.links.at k {}).st == 4

/-- Link on which a message for a node leaves, under a route block (R267, R268). -/
def State.linkRoute (s : State) (b : List Byte) (node : Nat) : Option Nat :=
  let e := if node / 256 ≠ s.boot.rs.node / 256 then blkGroupRoute b (node / 256) else blkMemberRoute b (node % 256)
  if !bitAt e 10 then none
  else if s.linkUp (bits e 0 5) then some (bits e 0 5)
  else if s.linkUp (bits e 5 5) then some (bits e 5 5)
  else none

/-- Edge stop of a link port (Table 8-3). -/
def linkStop (k : Nat) : Nat := if k < 12 then 1 + k else 41 + k

/-- Cores that a span names. -/
def spanSize (sp : W64) : Nat :=
  (bits sp.toNat 7 5 - bits sp.toNat 2 5 + 1) * (bits sp.toNat 17 5 - bits sp.toNat 12 5 + 1)

/-- Ring destination of an entry, if it has one. -/
def State.sendDst (s : State) (e : SendEntry) : Option (BitVec 12) :=
  if destNode e.dest = s.boot.rs.node then some (coreAddr (destRow e.dest) (destCol e.dest))
  else (s.linkRoute (s.routes s.epoch) (destNode e.dest)).map fun k => edgeAddr (linkStop k)

/-- Flits of an offer (R156, R169): retries carry retried and skip_mask. -/
def State.offerFlits (s : State) (site : Nat) (e : SendEntry) (txn : Nat) (dst : BitVec 12) : List Flit :=
  let w0 := field e.image 0 4 + (if e.retries = 0 then 0 else 2 ^ 19) + e.skip.toNat * 2 ^ 24
  let img := putBytes e.image 0 (leBytes 4 w0)
  let sp := (e.span.getD 0).toNat
  let n := img.length / 64
  (List.range n).map fun i =>
    { kind := 0, cls := clsBits e.cls, resp := false, ep := s.epNow
      index := BitVec.ofNat 6 i, last := i + 1 == n, dst := dst, src := s.siteAddr site
      mkind := BitVec.ofNat 2 (bits sp 0 2)
      rowLo := BitVec.ofNat 5 (bits sp 2 5), rowHi := BitVec.ofNat 5 (bits sp 7 5)
      colLo := BitVec.ofNat 5 (bits sp 12 5), colHi := BitVec.ofNat 5 (bits sp 17 5)
      txn := BitVec.ofNat 12 txn, payload := bytesLine (slice img (64 * i) 64)
      bad := BitVec.ofNat 8 (((List.range 8).filter fun w => e.bad.contains (8 * i + w)).foldl (fun m w => m + 2 ^ w) 0)
      hops := BitVec.ofNat 6 s.boot.rs.maxHops }

def State.putSend (s : State) (site : Nat) (e : SendEntry) : State :=
  s.modCore site fun c => { c with sends := c.sends.map fun x => if x.cls == e.cls && x.slot == e.slot then e else x }
def State.freeSendEntry (s : State) (site : Nat) (e : SendEntry) : State :=
  s.modCore site fun c => { c with sends := c.sends.filter fun x => !(x.cls == e.cls && x.slot == e.slot) }

/-- A scion, or a copy of a multicast, ends with a final code: the bounce record and EV_SCN_BOUNCE (R170, R172). -/
def State.bounceSend (s : State) (site : Nat) (e : SendEntry) (code : Nat) (dest : W64) : State :=
  let w0 := field e.image 0 4 + (if e.retries = 0 then 0 else 2 ^ 19) + e.skip.toNat * 2 ^ 24
  let r : Bounce :=
    { handler := BitVec.ofNat 8 (hdrHandler e.image), code := BitVec.ofNat 4 code, cls := clsBits e.cls
      thread := e.thread, seq := e.seq, dest := dest
      header := putBytes (e.image.take 64) 0 (leBytes 4 w0) }
  (s.modCore site fun c => { c with bounce := some r }).count Ev.scnBounce site

/-- The class may inject now: B and C share injection in rotation (R171). -/
def Core.sendTurn (c : Core) (cls : Cls) : Bool :=
  let waits (k : Cls) : Bool := c.sends.any fun e => e.cls == k && e.st == .waiting
  match cls with
  | .a => true
  | .b => !(waits .c && c.sendLastBC == .b)
  | .c => !(waits .b && c.sendLastBC == .c)

/-- The send unit offers the oldest waiting scion of a class; with no route it ends with NOROUTE (R268). -/
def execScionInject (core : CoreAt) (cls : Cls) (s : State) : Out :=
  match s.siteOf core.row.toNat core.col.toNat with
  | none => .next s
  | some site =>
    let c := s.core site
    match c.sends.find? fun e => e.cls == cls && e.st == .waiting with
    | none => .next s
    | some e =>
      if !c.sendTurn cls then .next s
      else
        let s1 := if cls == .a then s else s.modCore site fun c => { c with sendLastBC := cls }
        match s.sendDst e with
        | none => .next ((s1.bounceSend site e 14 e.dest).freeSendEntry site e)
        | some dst =>
          let txn := c.newTag
          let e1 := { e with
            st := .offered txn (s.now + s.classTimeout cls), toStop := dst.toNat, epoch := s.epoch
            await := (e.span.map spanSize).getD 1 }
          let s2 := s1.injectRequest site dst.toNat (s.offerFlits site e txn dst) e.span
          .next ((s2.modCore site fun c => { c with nextTxn := (txn + 1) % 4096 }).putSend site e1)

/-- Steps before retry n (R169). -/
def retryDelay (n row col seq : Nat) : Nat := 64 * 2 ^ min (n - 1) 7 + 4 * ((32 * row + col + seq) % 16)

def Core.retryMax (c : Core) (cls : Cls) : Nat :=
  match cls with
  | .a => c.retryLimit[0].toNat
  | .b => c.retryLimit[1].toNat
  | .c => c.retryLimit[2].toNat

/-- What a response does to the entry of its offer; a class A scion is never retried (R173). -/
def State.sendAnswer (s : State) (site : Nat) (e : SendEntry) (code mask row col : Nat) : State :=
  let good := code = 0 || code = 1
  if e.span.isSome then
    let d := BitVec.ofNat 64 (destNode e.dest + row * 2 ^ 18 + col * 2 ^ 23)
    let s1 := if good then s else s.bounceSend site e code d
    if e.await ≤ 1 then s1.freeSendEntry site e else s1.putSend site { e with await := e.await - 1 }
  else if good then s.freeSendEntry site e
  else if (code = 2 || code = 3) && e.cls != .a && e.retries < (s.core site).retryMax e.cls then
    let pos := s.posOf site
    s.putSend site { e with
      st := .delay (retryDelay (e.retries + 1) pos.1 pos.2 e.seq.toNat)
      skip := if code = 3 then ~~~ BitVec.ofNat 4 mask else e.skip }
  else (s.bounceSend site e code e.dest).freeSendEntry site e

/-- A response reaches the send unit; one that answers no offer is discarded. -/
def execScionResponse (core : CoreAt) (s : State) : Out :=
  match s.siteOf core.row.toNat core.col.toNat with
  | none => .next s
  | some site =>
    match (s.core site).respIn with
    | [] => .next s
    | f :: rest =>
      let s1 := s.modCore site fun c => { c with respIn := rest }
      let b := lineBytes f.payload
      let hit := (s.core site).sends.find? fun e =>
        match e.st with
        | .offered txn _ => txn == f.txn.toNat
        | _ => false
      match hit with
      | none => .next s1
      | some e =>
        if f.bad != 0 then .next s1
        else .next (s1.sendAnswer site e (bits (b.getD 4 0).toNat 0 4) (bits (b.getD 4 0).toNat 4 4)
          (bits (field b 5 2) 0 5) (bits (field b 5 2) 5 5))

/-- The delay of a refused scion is over: it waits to be offered again, retried set (R169). -/
def execScionRetry (core : CoreAt) (cls : Cls) (entry : Nat) (s : State) : Out :=
  match s.siteOf core.row.toNat core.col.toNat with
  | none => .next s
  | some site =>
    match (s.core site).sends.find? fun e => e.cls == cls && e.slot == entry with
    | none => .next s
    | some e =>
      match e.st with
      | .delay _ =>
        .next ((s.putSend site { e with st := .waiting, retries := e.retries + 1 }).count Ev.scnRetry site)
      | _ => .next s

/-- An offer has no response within its class timeout: it ends with TIMEOUT, each unanswered copy once. -/
def execScionOfferTimeout (core : CoreAt) (cls : Cls) (entry : Nat) (s : State) : Out :=
  match s.siteOf core.row.toNat core.col.toNat with
  | none => .next s
  | some site =>
    match (s.core site).sends.find? fun e => e.cls == cls && e.slot == entry with
    | none => .next s
    | some e =>
      match e.st with
      | .offered _ deadline =>
        let s1 := (s.advanceTo deadline).bounceSend site e 13 e.dest
        .next ((s1.countN Ev.scnBounce site (e.await - 1)).freeSendEntry site e)
      | _ => .next s

/-! ## Arrival (R161 to R165, R431) -/

/-- Places of a class's spill partition (R165). -/
def Core.spillSize (c : Core) : Cls → Nat
  | .a => 0
  | .b => c.spillB
  | .c => 4096 - c.spillB

def Core.handler (c : Core) (h : Nat) : Nat := (c.handlers.at h 0).toNat
def hEntry (v : Nat) : BitVec 13 := BitVec.ofNat 13 (bits v 2 13)
def hValid (v : Nat) : Bool := bitAt v 15
def hAccepts (v : Nat) (k : Cls) : Bool := bitAt v (16 + clsNum k)
def hLocal (v : Nat) : Bool := bitAt v 19
def hDirect (v : Nat) : Bool := bitAt v 20
def hMax (v : Nat) : Nat := bits v 21 3

/-- A core's response to an offer (R164). -/
def State.respond (s : State) (site : Nat) (f : Flit) (seq code mask : Nat) : State :=
  let pos := s.posOf site
  s.injectAt site (f.answer (s.siteAddr site) s.epNow 0 (scionAnswer seq code mask pos.1 pos.2 s.boot.rs.node))

/-- A refusal: counted, and answered (R163). -/
def State.refuse (s : State) (site : Nat) (f : Flit) (seq code mask : Nat) : State :=
  let s1 := s.count Ev.scnRefused site
  let s2 := if code = 8 then s1.count Ev.scnMalformed site
    else if code = 4 then s1.count Ev.scnAfull site else s1
  s2.respond site f seq code mask

/-- What the arrival checks answer: a refusal, or what becomes of the scion. -/
inductive Verdict where
  | refuse (code : Nat)
  | queue
  | spill
  | direct (off : Nat)

/-- DIRECT: length, dest_offset, other inline bits, and regions (R159, Table 7-5). -/
def Core.targetOk (c : Core) (b : List Byte) : Bool :=
  let len := hdrLength b
  let off := bits (field b 32 4) 0 19
  [64, 128, 192, 256].contains len && off % 64 == 0 && bits (field b 32 4) 19 13 == 0 && zeroBytes b 36 28 &&
  decide (off + len ≤ padSize) && (List.range (len / 64)).all fun i => c.kindAt (off + 64 * i) != 2

/-- The checks of Table 7-5 that a header flit meets. -/
def Core.arrivalCheck (c : Core) (f : Flit) (b : List Byte) : Verdict :=
  let len := hdrLength b
  let k := clsOf (BitVec.ofNat 2 (hdrClass b))
  let h := c.handler (hdrHandler b)
  let slots := if hDirect h then payloadSlots len else slotNeed len
  if !hdrReserved b || hdrVersion b != 1 || hdrClass b == 0 || decide (256 < len) || f.index != 0 ||
      hdrClass b != f.cls.toNat || f.last != (slotNeed len == 1) then .refuse 8
  else if !hValid h then .refuse 5
  else if !hAccepts h k || (!hDirect h && c.qDepth k == 0) then .refuse 6
  else if hLocal h && hdrViaLink b then .refuse 9
  else if hMax h < slots || (!hDirect h && c.qSlots k < slots) then .refuse 7
  else if hDirect h then (if c.targetOk b then .direct (bits (field b 32 4) 0 19) else .refuse 10)
  else if k == .a then (if c.qFree .a then .queue else .refuse 4)
  else if c.qFree k && !(c.queue k).spilling then .queue
  else if (c.queue k).spill.length < c.spillSize k then .spill
  else .refuse 2

/-- The state of a queue entry changes. -/
def Queue.setEntry (q : Queue) (idx : Nat) (st : EntrySt) : Queue :=
  { q with live := q.live.map fun e => if e.idx = idx then { e with st := st } else e }
/-- Released entries become FREE in ring order (R161). -/
def Queue.reclaim (q : Queue) : Queue := { q with live := q.live.dropWhile (·.st == .released) }

/-- A scion takes the next entry of its queue, FILLING. -/
def State.takeEntry (s : State) (site : Nat) (k : Cls) (handler : Nat) : State × Nat :=
  let c := s.core site
  let q := c.queue k
  (s.modCore site fun c => c.setQueue k { q with
    live := q.live ++ [{ idx := q.next, st := .filling, handler := BitVec.ofNat 8 handler }]
    next := (q.next + 1) % max 1 (c.qDepth k) }, q.next)

/-- A place of the spill partition is taken. -/
def State.takeSpill (s : State) (site : Nat) (k : Cls) : State × Nat :=
  let c := s.core site
  let q := c.queue k
  (s.modCore site fun c => c.setQueue k { q with
    spilling := true, tail := (q.tail + 1) % max 1 (c.spillSize k), spill := q.spill ++ [{ idx := q.tail, st := .coming }] },
    q.tail)

/-- A flit is of a scion that is arriving, whatever class it claims (R431). -/
def Arrival.is (a : Arrival) (f : Flit) : Bool := a.src == f.src && a.txn == f.txn

def Arrival.same (a x : Arrival) : Bool := x.src == a.src && x.txn == a.txn

/-- Log entry 45 (DEDUCED). -/
def State.putArrival (s : State) (site : Nat) (a : Arrival) : State :=
  s.modCore site fun c => { c with arrivals := (c.arrivals.filter (fun x => !(a.same x))) ++ [a] }
def State.dropArrival (s : State) (site : Nat) (a : Arrival) : State :=
  s.modCore site fun c => { c with arrivals := c.arrivals.filter (fun x => !(a.same x)) }

/-- The slots of a scion are written into its entry, each with its code (R161, R318). -/
def State.writeEntry (s : State) (site slot : Nat) (got : List Flit) : State :=
  (got.foldl (fun (a : State × Nat) f => (a.1.writeSlot site a.2 f.payload f.bad f.flip, a.2 + 1)) (s, slot)).1

/-- Local address of a place of a core's spill ring (R209). -/
def spillAddr (row col place : Nat) : Nat :=
  let n := 32 * row + col
  0x5A00000000 + n % 8 * 0xC0000000 + 0x62000000 + n / 8 * 0x140000 + 320 * place

/-- A place's index within the whole ring: class B first. -/
def Core.spillPlace (c : Core) (k : Cls) (idx : Nat) : Nat := if k == .b then idx else c.spillB + idx

/-- A spilled scion leaves for its place as one burst of five flits in its class, each word with the code it came with,
unused bytes zero (R165, R209, R219). -/
def State.sendSpill (s : State) (site : Nat) (k : Cls) (idx : Nat) (got : List Flit) (f : Flit) (seq : W32) : State :=
  let c := s.core site
  let pos := s.posOf site
  let a := spillAddr pos.1 pos.2 (c.spillPlace k idx)
  let dst := homeAddr a
  let burst := c.burstTxn
  let flits : List Flit := (List.range 5).map fun i =>
    let g := got[i]?
    { kind := 8, cls := clsBits k, resp := false, ep := s.epNow, index := BitVec.ofNat 6 i, last := i == 4
      dst := dst, src := s.siteAddr site, txn := burst, addr := BitVec.ofNat 40 (a + 64 * i)
      payload := (g.map (·.payload)).getD 0, bad := (g.map (·.bad)).getD 0, flip := (g.map (·.flip)).getD 0 }
  let w : SpillWait := { cls := k, idx := idx, src := f.src, txn := f.txn, seq := seq, burst := burst.toNat
                         dst := dst.toNat, epoch := s.epoch, deadline := s.now + s.classTimeout k }
  (s.injectRequest site dst.toNat flits).modCore site fun c => { c with
    burstTxn := burst + 1, spillWaits := c.spillWaits ++ [w] }

/-- The last flit of a scion is in: its entry is written and READY in one arbitration, its deposit is answered, or its
spill burst leaves (R161, R165). -/
def State.endArrival (s : State) (site : Nat) (a : Arrival) (f : Flit) : State :=
  let s1 := s.dropArrival site a
  let k := clsOf a.cls
  match a.kind with
  | .queue e got =>
    ((s1.writeEntry site ((s1.core site).qSlot k e) got).modQueue site k fun q => q.setEntry e .ready).respond
      site f a.seq.toNat 0 0
  | .direct _ _ refused =>
    if refused = 0 then s1.respond site f a.seq.toNat 0 0 else s1.refuse site f a.seq.toNat 3 refused.toNat
  | .spill idx got => s1.sendSpill site k idx got f a.seq
  | .discard => s1

/-- One flit of an arriving scion is taken; a deposit writes its slot (R159, R161, R164). -/
def State.arriveFlit (s : State) (site : Nat) (a : Arrival) (f : Flit) : State × Arrival :=
  let i := a.next
  let a1 := { a with next := i + 1 }
  match a.kind with
  | .queue e got => (s, { a1 with kind := .queue e (got ++ [f]) })
  | .direct off skip refused =>
    if i = 0 || skip.getLsbD (i - 1) then (s, a1)
    else
      let r := s.depositSlot site (off / 64 + (i - 1)) f.payload f.bad f.flip
      (r.1, { a1 with kind := .direct off skip (if r.2 then refused else refused ||| BitVec.ofNat 4 (2 ^ (i - 1))) })
  | .spill idx got => (s, { a1 with kind := .spill idx (got ++ [f]) })
  | .discard => (s, a1)

/-- A flit is written, and the scion ends with its last one. Log entry 45 (DEDUCED). -/
def State.takeScionFlit (s : State) (site : Nat) (a : Arrival) (f : Flit) : State :=
  let r := s.arriveFlit site a f
  if f.last then r.1.endArrival site r.2 f else r.1.putArrival site r.2

/-- A scion is discarded: its later flits are dropped. Log entry 45 (DEDUCED). -/
def State.discardRest (s : State) (site : Nat) (f : Flit) : State :=
  if f.last then s
  else s.putArrival site { src := f.src, cls := f.cls, txn := f.txn, next := f.index.toNat + 1, total := 0, seq := 0, kind := .discard }

/-- A header flit meets the arrival checks (R163). -/
def execScionArrival (core : CoreAt) (s : State) : Out :=
  match s.siteOf core.row.toNat core.col.toNat with
  | none => .next s
  | some site =>
    let c := s.core site
    match takeFlit (fun f => !c.arrivals.any (·.is f)) c.scionIn with
    | none => .next s
    | some (f, rest) =>
      let s1 := s.modCore site fun c => { c with scionIn := rest }
      let b := lineBytes f.payload
      if f.bad != 0 && f.index == 0 then
        .next (((s1.count Ev.scnRefused site).count Ev.spdUe site).discardRest site f)
      else
        let seq := if f.index = 0 then hdrSeq b else 0
        let k := clsOf f.cls
        let a (kind : ArrKind) : Arrival := { src := f.src, cls := f.cls, txn := f.txn, next := 0
                                              total := slotNeed (hdrLength b), seq := BitVec.ofNat 32 seq, kind := kind }
        match c.arrivalCheck f b with
        | .refuse code => .next ((s1.refuse site f seq code 0).discardRest site f)
        | .queue =>
          let q := s1.takeEntry site k (hdrHandler b)
          .next (q.1.takeScionFlit site (a (.queue q.2 [])) f)
        | .direct off => .next (s1.takeScionFlit site (a (.direct off (BitVec.ofNat 4 (hdrSkip b)) 0)) f)
        | .spill =>
          let q := s1.takeSpill site k
          .next (q.1.takeScionFlit site (a (.spill q.2 [])) f)

/-- Void places at the head are passed over; an empty partition ends spilling (R165). -/
def Queue.trimSpill (q : Queue) (size : Nat) : Queue :=
  let n := (q.spill.takeWhile (·.st == .void)).length
  let rest := q.spill.drop n
  { q with spill := rest, head := (q.head + n) % max 1 size, spilling := q.spilling && !rest.isEmpty }

def Queue.setSpill (q : Queue) (idx : Nat) (st : SpillSt) : Queue :=
  { q with spill := q.spill.map fun r => if r.idx = idx then { r with st := st } else r }

/-- What a scion held is given up when its flits disagree (R431): its entry is released, its spill place is void. -/
def State.abortArrival (s : State) (site : Nat) (a : Arrival) : State :=
  let k := clsOf a.cls
  let s1 := s.dropArrival site a
  match a.kind with
  | .queue e _ => s1.modQueue site k fun q => (q.setEntry e .released).reclaim
  | .spill idx _ => s1.modQueue site k fun q => (q.setSpill idx .void).trimSpill ((s.core site).spillSize k)
  | .direct _ _ _ => s1
  | .discard => s1

/-- A later flit of a scion is written; one out of sequence makes the scion MALFORMED (R431). -/
def execScionFlitWrite (core : CoreAt) (s : State) : Out :=
  match s.siteOf core.row.toNat core.col.toNat with
  | none => .next s
  | some site =>
    let c := s.core site
    match takeFlit (fun f => c.arrivals.any (·.is f)) c.scionIn with
    | none => .next s
    | some (f, rest) =>
      let s1 := s.modCore site fun c => { c with scionIn := rest }
      match c.arrivals.find? (·.is f) with
      | none => .next s1
      | some a =>
        if a.kind == .discard then .next (if f.last then s1.dropArrival site a else s1)
        else if f.cls == a.cls && f.index.toNat = a.next && f.last == (a.next + 1 == a.total) then
          .next (s1.takeScionFlit site a f)
        else .next (((s1.abortArrival site a).refuse site f a.seq.toNat 8 0).discardRest site f)

/-! ## Spill and refill (R165, R166, R209) -/

/-- The home controller's answer to the core's spill burst of a class, or its deadline, ends the spill: committed, its scion is
answered SPILLED; else SPILLFULL (R165). -/
def execSpillCommit (core : CoreAt) (cls : Cls) (s : State) : Out :=
  match s.siteOf core.row.toNat core.col.toNat with
  | none => .next s
  | some site =>
    let c := s.core site
    let ends (s : State) (w : SpillWait) (committed : Bool) : State :=
      let s1 := s.modCore site fun c => { c with spillWaits := c.spillWaits.erase w }
      let f : Flit := { kind := 0, cls := clsBits w.cls, resp := false, ep := 0, index := 0, last := true
                        dst := 0, src := w.src, txn := w.txn }
      if committed then
        ((s1.modQueue site w.cls fun q => q.setSpill w.idx .held).count Ev.scnSpilled site).respond site f w.seq.toNat 1 0
      else
        (s1.modQueue site w.cls fun q => (q.setSpill w.idx .void).trimSpill (c.spillSize w.cls)).refuse
          site f w.seq.toNat 2 0
    match s.popMem site fun f => (c.spillOf f).any (·.cls == cls) with
    | some (f, s1) =>
      match c.spillOf f with
      | some w => .next (ends s1 w (respGood f))
      | none => .next s1
    | none =>
      match c.spillWaits.find? fun w => w.lost && w.cls == cls with
      | some w => .next (ends s w false)
      | none => .next s

/-- FREE entries of a queue. -/
def Core.qRoom (c : Core) (k : Cls) : Nat := c.qDepth k - (c.queue k).live.length

/-- The spilled entry that the engine reads next: the oldest of class B that has a FREE entry to go to, then of class C,
while at most one is being read (R166). -/
def Core.refillNext (c : Core) : Option (Cls × Nat) :=
  if 2 ≤ c.refills.length then none
  else [Cls.b, Cls.c].findSome? fun k =>
    let mine := (c.refills.filter (·.cls == k)).map (·.idx)
    match (c.queue k).spill.find? fun r => r.st != .void && !mine.contains r.idx with
    | some r => if r.st == .held && decide (mine.length < c.qRoom k) then some (k, r.idx) else none
    | none => none

/-- Five line reads of a spilled entry leave in the class of its partition (R166). -/
def State.startRefill (s : State) (site : Nat) (k : Cls) (idx : Nat) : State :=
  let pos := s.posOf site
  let a := spillAddr pos.1 pos.2 ((s.core site).spillPlace k idx)
  let s1 := s.modCore site fun c => { c with
    refills := c.refills ++ [{ cls := k, idx := idx, dst := (homeAddr a).toNat, reads := [] }] }
  (List.range 5).foldl (fun s i =>
    let txn := (s.core site).newTag
    let x : RefillRead := { txn := txn, epoch := s.epoch, deadline := s.now + s.classTimeout k }
    let add (r : Refill) : Refill := if r.cls == k && r.idx == idx then { r with reads := r.reads ++ [x] } else r
    (s.sendHome site 2 k txn (a + 64 * i) [0] fun _ => BitVec.ofNat 40 (a + 64 * i)).modCore site fun c =>
      { c with nextTxn := (txn + 1) % 4096, refills := c.refills.map add }) s1

/-- The oldest entry of a class that is being read has come back whole. -/
def Core.refillDone (c : Core) : Option Refill :=
  [Cls.b, Cls.c].findSome? fun k =>
    (c.refills.find? (·.cls == k)).filter fun r => r.reads.all (·.got.isSome)

/-- A spilled entry has come back: it goes into a FREE entry, or is dropped where a line came back with an error. -/
def State.endRefill (s : State) (site : Nat) (r : Refill) : State :=
  let c := s.core site
  let s1 := (s.modCore site fun c => { c with refills := c.refills.erase r }).modQueue site r.cls fun q =>
    (q.setSpill r.idx .void).trimSpill (c.spillSize r.cls)
  let lines := r.reads.filterMap fun x => x.got.join
  if lines.length < r.reads.length then s1.count Ev.scnSpillLost site
  else
    let b := lines.flatMap fun x => lineBytes x.1
    let q := s1.takeEntry site r.cls (hdrHandler b)
    let slot := c.qSlot r.cls q.2
    let s2 := ((List.range (slotNeed (hdrLength b))).zip lines).foldl (fun s x =>
      s.writeSlot site (slot + x.1) x.2.1 0 x.2.2) q.1
    s2.modQueue site r.cls fun x => x.setEntry q.2 .ready

/-- The refill engine moves the oldest spilled entry of a class into a FREE entry, or drops it, once its lines are back;
else it begins to read the next one. Log entry 123 (DESIGN CHOICE). -/
def execRefillEntry (core : CoreAt) (s : State) : Out :=
  match s.siteOf core.row.toNat core.col.toNat with
  | none => .next s
  | some site =>
    match (s.core site).refillDone with
    | some r => .next (s.endRefill site r)
    | none =>
      match (s.core site).refillNext with
      | some (k, idx) => .next (s.startRefill site k idx)
      | none => .next s

/-! ## Dispatch (R174 to R176, Table 7-10) -/

def Core.dmaskOf (c : Core) (t : BitVec 2) : Nat := bits c.dmask.toNat (3 * t.toNat) 3

/-- The entry that a class offers: its oldest unclaimed one, if READY (R174). -/
def Queue.offer (q : Queue) : Option QEntry :=
  (q.live.find? fun e => e.st == .filling || e.st == .ready).filter fun e => e.st == .ready

/-- The class and entry that a DISPATCH claims. -/
def Core.claim (c : Core) (t : BitVec 2) (cmask : BitVec 3) : Option (Cls × QEntry) :=
  [Cls.a, Cls.b, Cls.c].findSome? fun k =>
    if cmask.getLsbD (clsNum k) && bitAt (c.dmaskOf t) (clsNum k) then
      (c.queue k).offer.map fun e => (k, e)
    else none

def execDispatch (t : ThreadAt) (o : DispatchOp) (s : State) : Out :=
  s.issue (.dispatch t o) t noEarly fun site c th =>
    match c.claim t.t o.cmask with
    | none => .ok (s.setThr site t.t (th.wx o.rd 0).retire)
    | some (k, e) =>
      let h := c.handler e.handler.toNat
      let stale := !hValid h || !hAccepts h k || hDirect h
      let target := (if stale then c.staleEntry else hEntry h) ++ 0#2
      let a := BitVec.ofNat 64 (padBase + 64 * c.qSlot k e.idx)
      let link := (th.pc + 4).zeroExtend 64
      let s1 := s.modQueue site k fun q => q.setEntry e.idx (.claimed t.t)
      let s2 := s1.setThr site t.t (((th.wx o.rd a).wx 31 link).transfer target)
      .ok (if stale then s2.count Ev.scnStale site else s2)

def execQdone (t : ThreadAt) (o : RaOp) (s : State) : Out :=
  s.issue (.qdone t o) t noEarly fun site c th =>
    match c.claimedAt t.t (th.rx o.ra) with
    | none => .error { cause := 0x44, addr := th.rx o.ra }
    | some (k, e) =>
      .ok ((s.modQueue site k fun q => (q.setEntry e .released).reclaim).modThr site t.t Thread.retire)

def Queue.readyCount (q : Queue) : Nat := (q.live.filter (·.st == .ready)).length
def Queue.spilledCount (q : Queue) : Nat := (q.spill.filter (·.st == .held)).length

/-- The queue status word (Table 7-4). -/
def Core.qstat (c : Core) : Nat :=
  let b := c.queue .b
  let k := c.queue .c
  (c.queue .a).readyCount + b.readyCount * 2 ^ 7 + k.readyCount * 2 ^ 16 +
  b.spilledCount * 2 ^ 25 + k.spilledCount * 2 ^ 38 +
  (if b.spilling then 2 ^ 51 else 0) + (if k.spilling then 2 ^ 52 else 0)

def execQstat (t : ThreadAt) (o : RdOp) (s : State) : Out :=
  s.issue (.qstat t o) t noEarly fun site c th =>
    .ok (s.setThr site t.t (th.wx o.rd (BitVec.ofNat 64 c.qstat)).retire)

def execHent (t : ThreadAt) (o : RdRa) (s : State) : Out :=
  s.issue (.hent t o) t noEarly fun site c th =>
    .ok (s.setThr site t.t (th.wx o.rd (BitVec.ofNat 64 (c.handler (bits (th.rx o.ra).toNat 0 8)))).retire)

/-- SCN_SEND (Table 7-13). -/
def Core.sndstat (c : Core) : Nat :=
  let waits := (c.sends.filter fun e => match e.st with
    | .delay _ => true
    | _ => false).length
  (4 - c.sendCount .a) + (16 - c.sendCount .b) * 2 ^ 3 + (16 - c.sendCount .c) * 2 ^ 8 + waits * 2 ^ 13

def execSndstat (t : ThreadAt) (o : RdOp) (s : State) : Out :=
  s.issue (.sndstat t o) t noEarly fun site c th =>
    .ok (s.setThr site t.t (th.wx o.rd (BitVec.ofNat 64 c.sndstat)).retire)

end Sys2Proof.Machine
end

