-- ==== Sys2Proof/Machine/Stack.lean ====
section
/-! DEFINITION. Stack controllers (chapter 9): requests (R210), class service (R215), transfers (R212 to R214),
atomics (R217), bursts (R218 to R222), and channel isolation and relocation (R224 to R226). -/

namespace Sys2Proof.Machine

/-! ## Parts -/

def State.stack (s : State) (k : Nat) : Stack := s.memStacks.at k {}
def State.modStack (s : State) (k : Nat) (f : Stack → Stack) : State :=
  { s with memStacks := s.memStacks.put k (f (s.stack k)) }
def Stack.chan (k : Stack) (c : Nat) : Chan := k.chans.at c {}
def Stack.setChan (k : Stack) (c : Nat) (h : Chan) : Stack := { k with chans := k.chans.put c h }
def State.modChan (s : State) (k c : Nat) (f : Chan → Chan) : State :=
  s.modStack k fun st => st.setChan c (f (st.chan c))

/-! ## Places of lines (R206 to R208, R225) -/

/-- Offset of an address within its stack: plan memory, then the stack's reserved area (R206). -/
def stackOffset (a : Nat) : Nat :=
  if a < planEnd then a / 2 ^ 15 * 4096 + a % 4096 else 45 * 2 ^ 30 + (a - planEnd) % 0xC0000000
/-- Channel of a line (R207). -/
def chanOf (line : Nat) : Nat := bits (stackOffset (64 * line)) 8 5

/-- Lines of a channel that lie in the relocation area, and below it (Table 9-3, R225). -/
def areaLines : Nat := 786432
def areaStart : Nat := 23592960

/-- Position of a line among its own channel's lines outside the relocation area, in the order in which they are
copied. Log entry 53 (DEDUCED). -/
def lineIndex (line : Nat) : Nat :=
  let x := stackOffset (64 * line)
  let i := x / 8192 * 4 + x / 64 % 4
  if i < areaStart then i else i - areaLines

/-- The place in the relocation area of a line of a channel: another channel, and the position among that channel's
relocated lines; which one is open (R225). Log entry 52 (DESIGN CHOICE). -/
def areaPlace (k c line : Nat) : Nat × Nat :=
  let p := Config.relocPlace k c (lineIndex line) % (31 * areaLines)
  let d := p / areaLines
  (if d < c then d else d + 1, p % areaLines)

/-- The channel that serves a line now, and the line's position in the copying order of that channel: each entry of the
relocation map that names the channel sends the line on, the one under way if the line has been copied (R225).
Log entries 52 (DESIGN CHOICE), 53 (DEDUCED). -/
def Stack.place (st : Stack) (k line : Nat) : Nat × Nat :=
  let go (p : Nat × Nat) (m : ChanMove × Bool) : Nat × Nat :=
    let copied := match st.reloc with
      | some r => !m.2 || decide (p.2 < r.copied)
      | none => true
    if p.1 = m.1.chan && copied then
      match m.1.spare with
      | some c => (c, p.2)
      | none =>
        let q := areaPlace k m.1.chan line
        (q.1, (1488 * 16384) + q.2)
    else p
  let n := st.moves.length
  ((List.range n).zip st.moves).foldl (fun p m => go p (m.2, m.1 + 1 == n)) (chanOf line, lineIndex line)

/-- The channel that serves a line now. -/
def State.chanNow (s : State) (k line : Nat) : Nat := ((s.stack k).place k line).1

/-- The die owes the warden a report (R411). -/
def State.report (s : State) (r : ReportKind) : State := { s with reports := s.reports ++ [r] }

/-- A line of stack memory is marked uncorrectable, or healed (R212, R213). -/
def State.markLine (s : State) (line : Nat) (bad : Bool) : State :=
  let l := s.memBad.filter (· != line)
  { s with memBad := if bad then line :: l else l }

def State.writeLine (s : State) (line : Nat) (d : Line) : State :=
  { (s.markLine line false) with mem := Mem.writeN s.mem (64 * line) (lineBytes d) }

/-! ## Answers (R210) -/

def stOk : Byte := 0
def stAddress : Byte := 1
def stData : Byte := 2
def stForm : Byte := 3
def stFailed : Byte := 4

/-- The controller of stack k sends its answer to a request flit. -/
def State.stackAnswer (s : State) (k : Nat) (f : Flit) (index : BitVec 6) (payload : List Byte) : State :=
  s.injectEdge (stackPort k) (f.answer (edgeAddr (stackPort k)) s.epNow index payload)

/-- An answer with an error status. -/
def State.stackError (s : State) (k : Nat) (f : Flit) (status : Byte) : State :=
  s.stackAnswer k f 63 (errPayload f status)

/-- A malformed request: FORM, and EV_STK_MALFORMED counts it. -/
def State.stackForm (s : State) (k : Nat) (f : Flit) : State :=
  (s.count Ev.stkMalformed k).stackError k f stForm

/-- The request buffer of a class at a stack port. -/
def stackKey (k : Nat) (cls : Cls) : Nat := portKey (stackPort k) (clsNum cls) 0

/-- Takes the flit at the head of a stack port's request buffer of one class. Log entry 49 (DESIGN CHOICE). -/
def State.popPort (s : State) (k : Nat) (cls : Cls) (p : Flit → Bool) : Option (Flit × State) :=
  match s.rings.ports.at (stackKey k cls) [] with
  | [] => none
  | f :: r =>
    if p f then some (f, { s with rings := { s.rings with ports := s.rings.ports.put (stackKey k cls) r } }) else none

/-- The line of a request lies in memory of this stack; only units of the die name a reserved area (R205). -/
def homeAt (k : Nat) (f : Flit) : Bool := decide (f.addr.toNat < reservedEnd) && homeStack f.addr.toNat == k

/-- A good request is queued on its channel; a FAILED channel's lines give errors at once (R226). -/
def State.queueRequest (s : State) (k : Nat) (f : Flit) (flits : List Flit) : State :=
  let line := f.addr.toNat / 64
  let c := s.chanNow k line
  if ((s.stack k).chan c).st == .failed then s.stackError k f stFailed
  else s.modChan k c fun h => { h with queue := h.queue ++ [{ cls := clsOf f.cls, line := line, flits := flits }] }

/-- Faults of a request that rank before its queueing: FORM, then ADDRESS. -/
def State.admitRequest (s : State) (k : Nat) (f : Flit) (form : Bool) (align : Nat) (flits : List Flit) : State :=
  if !form || f.addr.toNat % align ≠ 0 then s.stackForm k f
  else if !homeAt k f then s.stackError k f stAddress
  else s.queueRequest k f flits

/-! ## Requests at the stack port -/

/-- A read request, or a request of a kind that no controller serves, which is malformed. -/
def execControllerRead (stack : Nat) (cls : Cls) (s : State) : Out :=
  match s.popPort stack cls fun f => f.kind != 4 && f.kind != 6 && f.kind != 8 with
  | none => .next s
  | some (f, s1) =>
    let form := f.kind == 2 && f.index == 0 && f.last && f.payload == 0
    .next (s1.admitRequest stack f form 64 [f])

/-- The flit that a two-flit write began with. -/
def Stack.partOf (k : Stack) (f : Flit) : Option Flit :=
  k.parts.find? fun p => p.src == f.src && p.txn == f.txn && p.cls == f.cls

/-- A write is complete: an uncorrectable payload word refuses it with DATA (R318). -/
def State.takeWrite (s : State) (k : Nat) (f : Flit) (form : Bool) (flits : List Flit) : State :=
  if form && flits.any (·.bad != 0) then (s.count Ev.stkUe k).stackError k f stData
  else s.admitRequest k f form 64 flits

/-- A write of one flit is a whole line; of two, the mask comes first (Table 9-4). -/
def execControllerWrite (stack : Nat) (cls : Cls) (s : State) : Out :=
  match s.popPort stack cls fun f => f.kind == 4 with
  | none => .next s
  | some (f, s1) =>
    let part := (s1.stack stack).partOf f
    let rest (st : Stack) : List Flit := st.parts.filter fun p => some p != part
    if f.index = 0 && f.last then .next (s1.takeWrite stack f true [f])
    else if f.index = 0 then
      .next (s1.modStack stack fun st => { st with parts := rest st ++ [f] })
    else
      let s2 := s1.modStack stack fun st => { st with parts := rest st }
      match part with
      | none => .next (s2.stackForm stack f)
      | some m =>
        let form := f.index == 1 && f.last && f.addr == m.addr && zeroBytes (lineBytes m.payload) 8 56
        .next (s2.takeWrite stack f form [m, f])

/-- The payload of an atomic names nothing outside Table 9-4. -/
def atomicForm (f : Flit) : Bool :=
  let b := lineBytes f.payload
  let fn := field b 0 1
  f.index == 0 && f.last && decide (0x10 ≤ fn) && decide (fn ≤ 0x19) && zeroBytes b 1 7 &&
    zeroBytes b 24 40 && (fn == 0x19 || zeroBytes b 16 8)

def execControllerAtomic (stack : Nat) (cls : Cls) (s : State) : Out :=
  match s.popPort stack cls fun f => f.kind == 6 with
  | none => .next s
  | some (f, s1) =>
    if f.bad != 0 then .next ((s1.count Ev.stkUe stack).stackError stack f stData)
    else .next (s1.admitRequest stack f (atomicForm f) 8 [f])

/-! ## Class service (R215) -/

/-- The transaction that a slot goes to: class A first; else B and C alternate. -/
def chanPick (l : List Trans) (lastBC : Cls) : Option Trans :=
  let first (k : Cls) : Option Trans := l.find? (·.cls == k)
  (first .a).or (if lastBC == .b then (first .c).or (first .b) else (first .b).or (first .c))

def dropTrans (t : Trans) : List Trans → List Trans
  | [] => []
  | u :: r => if u = t then r else u :: dropTrans t r

/-- A line of a committed burst that is still in its staging buffer (R220). -/
def Burst.holds (b : Burst) (line : Nat) : Bool :=
  b.committed && decide (b.base / 64 ≤ line) && decide (line < b.base / 64 + b.lines.length)

/-- One line of a committed burst has been written; the buffer is freed with the last (R220).  Committed bursts are
numbered in the order of their commits. -/
def State.burstWritten (s : State) (k n line : Nat) (failed : Bool) : State :=
  let later := (s.stack k).bursts.any fun b => decide (n < b.serial) && b.holds line
  let s1 := if failed then (if later then s else s.markLine line true).count Ev.stkUe k else s
  s1.modStack k fun st => { st with
    bursts := (st.bursts.map fun b => if b.serial = n then { b with left := b.left - 1 } else b).filter
      fun b => !(b.committed && b.left == 0) }

/-- A transaction of a channel that has FAILED is answered with that status (R226). -/
def State.failTrans (s : State) (k : Nat) (t : Trans) : State :=
  match t.burst, t.flits.getLast? with
  | some n, _ => s.burstWritten k n t.line false
  | none, some f => s.stackError k f stFailed
  | none, none => s

/-- A slot of a channel goes to a transaction of a class. -/
def Chan.takeSlot (h : Chan) (cls : Cls) : Chan :=
  { h with slot := h.slot + 1, lastBC := if cls == .a then h.lastBC else cls }

/-- One slot of a channel's service cycle: a refresh, or the next transaction. -/
def execChannelSlot (stack : Nat) (chan : Nat) (refresh : Bool) (s : State) : Out :=
  let h := (s.stack stack).chan chan
  if h.running.isSome then .next s
  else if refresh then .next (s.modChan stack chan fun h => { h with slot := h.slot + 1 })
  else
    match chanPick h.queue h.lastBC with
    | none => .next s
    | some t =>
      let s1 := s.modChan stack chan fun h => { (h.takeSlot t.cls) with queue := dropTrans t h.queue, repeats := 0 }
      if h.st == .failed then .next (s1.failTrans stack t)
      else .next (s1.modChan stack chan fun h => { h with running := some t })

/-! ## Atomics (R217) -/

/-- New value of a word under an atomic of Table 6-6. Log entry 55 (DEDUCED). -/
def amoApply (fn : Nat) (old x cmp : W64) : W64 :=
  if fn = 0x10 then old + x
  else if fn = 0x11 then old &&& x
  else if fn = 0x12 then old ||| x
  else if fn = 0x13 then old ^^^ x
  else if fn = 0x14 then (if old.slt x then old else x)
  else if fn = 0x15 then (if old.slt x then x else old)
  else if fn = 0x16 then (if old < x then old else x)
  else if fn = 0x17 then (if old < x then x else old)
  else if fn = 0x18 then x
  else if old = cmp then x else old

/-! ## Transfers (R212 to R214) -/

/-- A corrected error counts against its channel (R224). -/
def State.corrected (s : State) (k c : Nat) : State :=
  (s.count Ev.stkCe k).modChan k c fun h =>
    let n := h.corrected + 1
    { h with corrected := n, due := h.due || decide (s.boot.rs.retireThreshold < n) }

/-- What a request comes to: the state, and the index and payload of its answer. -/
abbrev Done := State × (BitVec 6 × List Byte)

/-- A request on an uncorrectable line, or whose transfers failed: counted, and answered DATA. -/
def State.dataError (s : State) (k : Nat) (f : Flit) : Done := (s.count Ev.stkUe k, (63, errPayload f stData))

/-- A read takes effect; a line found uncorrectable stays so, and one in a staging buffer is served from it. -/
def State.doRead (s : State) (k : Nat) (t : Trans) (f : Flit) (r : Transfer) : Done :=
  let staged := (s.stack k).bursts.any (·.holds t.line)
  let s1 := if r == .uncorrectable && !staged then s.markLine t.line true else s
  if s1.memBad.contains t.line || (r == .crcFail && !staged) then s1.dataError k f
  else (s1, (0, lineBytes (Mem.line s1.mem (64 * t.line))))

/-- The bytes of a masked write over a line. -/
def maskLine (old new : Line) (mask : Nat) : Line :=
  bytesLine ((List.range 64).map fun i =>
    if mask.testBit i then (lineBytes new).getD i 0 else (lineBytes old).getD i 0)

/-- A write takes effect: a whole line heals, a part of an uncorrectable line is refused (R213); a transfer
that fails marks the line (R212). -/
def State.doWrite (s : State) (k : Nat) (t : Trans) (f : Flit) (r : Transfer) : Done :=
  let mask := match t.flits with
    | m :: _ :: _ => field (lineBytes m.payload) 0 8
    | _ => 2 ^ 64 - 1
  if r == .crcFail then (s.markLine t.line true).dataError k f
  else if mask = 2 ^ 64 - 1 then (s.writeLine t.line f.payload, (0, [stOk]))
  else
    let s1 := if r == .uncorrectable then s.markLine t.line true else s
    if s1.memBad.contains t.line then s1.dataError k f
    else (s1.writeLine t.line (maskLine (Mem.line s1.mem (64 * t.line)) f.payload mask), (0, [stOk]))

/-- An atomic takes effect in one access; on an uncorrectable line it changes nothing. Log entry 55 (DEDUCED). -/
def State.doAtomic (s : State) (k : Nat) (t : Trans) (f : Flit) (r : Transfer) : Done :=
  let s1 := if r == .uncorrectable then s.markLine t.line true else s
  if r == .crcFail || s1.memBad.contains t.line then s1.dataError k f
  else
    let b := lineBytes f.payload
    let a := f.addr.toNat
    let old := leNat (Mem.readN s1.mem a 8)
    let new := amoApply (field b 0 1) (BitVec.ofNat 64 old) (BitVec.ofNat 64 (field b 8 8))
      (BitVec.ofNat 64 (field b 16 8))
    ({ s1 with mem := Mem.writeN s1.mem a (leBytes 8 new.toNat) }, (0, leBytes 8 old ++ [stOk]))

/-- A request takes effect. -/
def State.perform (s : State) (k : Nat) (t : Trans) (f : Flit) (r : Transfer) : Done :=
  if f.kind = 2 then s.doRead k t f r
  else if f.kind = 4 then s.doWrite k t f r
  else s.doAtomic k t f r

/-- A transaction takes effect at one moment, with its transfer or before a burst that came after it (R214). -/
def State.transEffect (s : State) (k : Nat) (t : Trans) (r : Transfer) : State :=
  match t.burst, t.flits.getLast? with
  | some n, _ => s.burstWritten k n t.line (r == .crcFail)
  | none, some f =>
    let d : Done := match t.done with
      | some a => if r == .crcFail then s.dataError k f else (s, a)
      | none => s.perform k t f r
    d.1.stackAnswer k f d.2.1 d.2.2
  | none, none => s

/-- Four transfers in a row that failed on different lines isolate the channel (R224). -/
def Chan.transferEnd (h : Chan) (line : Nat) (failed : Bool) : Chan :=
  let run := if !failed then [] else if h.failRun.contains line then h.failRun else line :: h.failRun
  { h with running := none, repeats := 0, failRun := run, due := h.due || decide (4 ≤ run.length) }

/-- A transfer of the running transaction ends: a CRC mismatch repeats it up to 3 times. -/
def execChannelTransferDone (stack : Nat) (chan : Nat) (result : Transfer) (s : State) : Out :=
  let h := (s.stack stack).chan chan
  match h.running with
  | none => .next s
  | some t =>
    if result == .crcFail && decide (h.repeats < 3) then
      .next ((s.count Ev.stkCrc stack).modChan stack chan fun h => { h with repeats := h.repeats + 1 })
    else
      let s1 := s.modChan stack chan fun h => h.transferEnd t.line (result == .crcFail)
      if h.st == .failed then .next (s1.failTrans stack t)
      else
        let s2 := if result == .corrected then s1.corrected stack chan else s1
        .next (s2.transEffect stack t result)

/-! ## Accesses of the die's own units (R208, R215)

The stream-table engines reach the lines of descriptors and slot headers as transactions of one slot each, in the class
of the stream. Log entry 56 (DESIGN CHOICE). -/

/-- How an access of a unit ends: the line may be used, it is uncorrectable, or its channel has FAILED. -/
inductive AccessEnd where
  | good
  | data
  | failed
  deriving DecidableEq, Repr

/-- The next slot of a channel would go to a transaction of a class that arrives now: nothing runs, nothing of its class
waits, and no class goes before it. -/
def Chan.turn (h : Chan) (cls : Cls) : Bool :=
  h.running.isNone && !(h.queue.any (·.cls == cls)) &&
    (chanPick (h.queue ++ [{ cls := cls, line := 0 }]) h.lastBC).any (·.cls == cls)

/-- One access of a unit to a line; none while its channel's slot goes to another transaction. -/
def State.unitAccess (s : State) (k line : Nat) (cls : Cls) (write : Bool) (a : Access) : Option (State × AccessEnd) :=
  let c := s.chanNow k line
  let h := (s.stack k).chan c
  if h.st == .failed then some (s, .failed)
  else if !h.turn cls then none
  else
    let failed := a.result == .crcFail
    let s1 := s.countN Ev.stkCrc k (if failed then 3 else a.repeats.toNat)
    let s2 := s1.modChan k c fun h => (h.takeSlot cls).transferEnd line failed
    let s3 := if a.result == .corrected then s2.corrected k c else s2
    let s4 := if (if write then failed else a.result == .uncorrectable) then s3.markLine line true else s3
    if failed || (!write && s4.memBad.contains line) then some (s4.count Ev.stkUe k, .data) else some (s4, .good)

/-- Accesses of a unit one after another; the first that does not end well tells how they end. -/
def State.unitAccesses (s : State) (k : Nat) (cls : Cls) (write : Bool) : List (Nat × Access) → Option (State × AccessEnd)
  | [] => some (s, .good)
  | x :: l =>
    (s.unitAccess k x.1 cls write x.2).bind fun r =>
      (r.1.unitAccesses k cls write l).map fun q => (q.1, if r.2 = .good then q.2 else r.2)

/-! ## Bursts (R218 to R222) -/

/-- Staging buffers of a class (R220). -/
def stagingOf : Cls → Nat
  | .a => 8
  | .b => 28
  | .c => 28

def Stack.stagedOf (k : Stack) (cls : Cls) : Nat := (k.bursts.filter fun b => clsOf b.cls == cls).length
def Stack.bufferFree (k : Stack) (cls : Cls) : Bool := decide (k.stagedOf cls < stagingOf cls)

/-- A flit joins its burst, which it may break (R218). -/
def Burst.take (b : Burst) (k : Nat) (f : Flit) : Burst :=
  let a := f.addr.toNat
  let ok := f.index.toNat == b.lines.length && f.cls == b.cls && f.ep == b.ep &&
    a == b.base + 64 * f.index.toNat && b.base % 64 == 0 && decide (a < reservedEnd) && homeStack a == k &&
    (decide (planEnd ≤ b.base) || a / 4096 == b.base / 4096)
  { b with lines := b.lines ++ [f.payload], broken := b.broken || !ok, bad := b.bad || f.bad != 0, whole := f.last }

/-- Status of a whole burst: FORM or ADDRESS, DATA, FAILED_CHANNEL, or OK (R205, R218, R226). Log entry 54 (DEDUCED). -/
def Burst.status (b : Burst) (k : Nat) (st : Stack) : Byte :=
  if reservedEnd ≤ b.base then stAddress
  else if b.broken then stForm
  else if b.bad then stData
  else if (List.range b.lines.length).any fun i => (st.chan (st.place k (b.base / 64 + i)).1).st == .failed then stFailed
  else stOk

/-- The lines of a burst, written in one controller step. -/
def State.putLines (s : State) (line : Nat) : List Line → State
  | [] => s
  | d :: r => (s.writeLine line d).putLines (line + 1) r

/-- Transactions that write a committed burst's lines to the stack. -/
def State.queueLines (s : State) (k : Nat) (b : Burst) : List Nat → State
  | [] => s
  | line :: r =>
    (s.modChan k (s.chanNow k line) fun h => { h with
      queue := h.queue ++ [{ cls := clsOf b.cls, line := line, burst := some b.serial }] }).queueLines k b r

def State.setBurst (s : State) (k : Nat) (b : Burst) : State :=
  s.modStack k fun st => { st with bursts := st.bursts.map fun x => if x.serial = b.serial then b else x }
def State.dropBurst (s : State) (k n : Nat) : State :=
  s.modStack k fun st => { st with bursts := st.bursts.filter (·.serial != n) }

/-- The acknowledgement of a burst (Table 9-4). -/
def State.burstAck (s : State) (k : Nat) (b : Burst) (status : Byte) : State :=
  let f : Flit := { kind := 8, cls := b.cls, resp := false, ep := b.ep, index := 0, last := true
                    dst := edgeAddr (stackPort k), src := b.src, txn := b.txn }
  s.stackAnswer k f (if status = 0 then 0 else 63) (errPayload f status)

/-- A request of the burst's class to one of its lines arrived before it, and has not taken effect. -/
def Trans.before (t : Trans) (b : Burst) : Bool :=
  t.burst.isNone && t.done.isNone && t.cls == clsOf b.cls && decide (b.base / 64 ≤ t.line) &&
    decide (t.line < b.base / 64 + b.lines.length)

/-- Requests of a list that arrived before a burst take effect, and keep their answers for their own transfers. -/
def State.performAll (s : State) (k : Nat) (b : Burst) : List Trans → State × List Trans
  | [] => (s, [])
  | t :: l =>
    let r := if t.before b then
        match t.flits.getLast? with
        | some f =>
          let d := s.perform k t f .good
          (d.1, { t with done := some d.2 })
        | none => (s, t)
      else (s, t)
    let q := r.1.performAll k b l
    (q.1, r.2 :: q.2)

/-- What a channel still holds of the burst's class for its lines takes effect before the burst does: commit waits for
no channel, and accesses of one class to one line take effect in the order of their arrival (R214, R220).
Log entry 54 (DEDUCED). -/
def State.settleBefore (s : State) (k : Nat) (b : Burst) : List Nat → State
  | [] => s
  | c :: l =>
    let h := (s.stack k).chan c
    let r := s.performAll k b h.running.toList
    let q := r.1.performAll k b h.queue
    (q.1.modChan k c fun h => { h with running := r.2.head?, queue := q.2 }).settleBefore k b l

/-- A whole burst commits in one step, or is refused (R218, R220); commits are numbered in their order.
Log entry 54 (DEDUCED). -/
def State.finishBurst (s : State) (k : Nat) (b : Burst) : State :=
  let status := b.status k (s.stack k)
  if status = stOk then
    let lines := (List.range b.lines.length).map (b.base / 64 + ·)
    let s0 := s.settleBefore k b (dedup (lines.map (s.chanNow k)))
    let n := (s0.stack k).nextBurst
    let b1 := { b with serial := n, committed := true, left := b.lines.length }
    let s1 := (s0.putLines (b.base / 64) b.lines).modStack k fun st => { st with
      bursts := (st.bursts.filter (·.serial != b.serial)) ++ [b1], nextBurst := n + 1 }
    let s2 := (s1.queueLines k b1 lines).modStack k fun st => { st with commits := st.commits.put b.src.toNat b.txn }
    s2.burstAck k b1 stOk
  else
    let s1 := if status = stFailed then s else s.count Ev.stkBurstRefused k
    (s1.dropBurst k b.serial).burstAck k b status

/-- The staged burst that a flit goes on. -/
def Stack.burstOf (k : Stack) (f : Flit) : Option Burst :=
  k.bursts.find? fun b => b.src == f.src && b.txn == f.txn && !b.committed && !b.whole

/-- A flit of a burst that has no staging buffer waits at the stack port, and the requests of its class that came after
it wait behind it; flits of bursts that have one pass it (R218, R220). Log entry 54 (DEDUCED). -/
def State.popBurst (s : State) (k : Nat) (cls : Cls) : Option (Flit × State) :=
  match s.popPort k cls fun f => f.kind == 8 && ((s.stack k).bufferFree cls || ((s.stack k).burstOf f).isSome) with
  | some r => some r
  | none =>
    match s.rings.ports.at (stackKey k cls) [] with
    | [] => none
    | f :: _ =>
      if f.kind == 8 then
        (takeFlit (fun x => x.kind == 8 && ((s.stack k).burstOf x).isSome) (s.rings.ports.at (stackKey k cls) [])).map fun q =>
          (q.1, { s with rings := { s.rings with ports := s.rings.ports.put (stackKey k cls) q.2 } })
      else none

/-- A burst flit fills its staging buffer: a first flit takes the buffer. -/
def State.stageFlit (s : State) (k : Nat) (f : Flit) : State :=
  let st := s.stack k
  let fresh : Burst := { serial := st.nextBurst, src := f.src, txn := f.txn, cls := f.cls, ep := f.ep
                         epoch := s.flitEpoch f.ep, base := f.addr.toNat, broken := f.index != 0 }
  let old := st.burstOf f
  let b := (old.getD fresh).take k f
  let s2 := s.modStack k fun st =>
    if old.isSome then st else { st with bursts := st.bursts ++ [fresh], nextBurst := st.nextBurst + 1 }
  let s3 := s2.setBurst k b
  if b.whole then s3.finishBurst k b else s3

/-! ## Abandoned bursts (R221) -/

/-- Flits at a stack port that begin a burst: a first flit, or the first of a burst that is not staged. -/
def waitingBursts (st : Stack) : List Flit → List Flit
  | [] => []
  | f :: l => (if f.kind == 8 && (st.burstOf f).isNone then [f] else []) ++
      (waitingBursts st l).filter fun x => x.kind != f.kind || x.src != f.src || x.txn != f.txn

/-- Flits of a class that wait at a stack port and pass a test are discarded. -/
def State.dropPortFlits (s : State) (k : Nat) (p : Flit → Bool) : State :=
  { s with rings := { s.rings with ports := ([Cls.a, .b, .c] : List Cls).foldl (fun t cls =>
      t.put (stackKey k cls) ((t.at (stackKey k cls) []).filter fun f => !p f)) s.rings.ports } }

/-- Bursts that have not committed and meet a test are abandoned, staged or waiting: their buffers are freed and their
flits at the stack port discarded (R221). -/
def State.abandonBursts (s : State) (k : Nat) (p : BitVec 12 → Nat → Bool) : State :=
  let st := s.stack k
  let mine (f : Flit) : Bool := f.kind == 8 && p f.src (s.flitEpoch f.ep)
  let gone := st.bursts.filter fun b => !b.committed && p b.src b.epoch
  let waits := (waitingBursts st (([Cls.a, .b, .c] : List Cls).flatMap fun cls => s.rings.ports.at (stackKey k cls) [])).filter mine
  ((s.dropPortFlits k mine).modStack k fun st => { st with
    bursts := st.bursts.filter fun b => b.committed || !p b.src b.epoch }).countN Ev.stkBurstAbandon k
      (gone.length + waits.length)

/-- Bursts of the second epoch before the present one, or of one before that. -/
def State.abandonAged (s : State) (k : Nat) : State := s.abandonBursts k fun _ e => decide (e + 2 ≤ s.epoch)

/-- A burst flit arrives at its controller and fills its staging buffer, or waits for one; no burst commits past its
second boundary, and none after the pace has tripped (R40, R221). -/
def execBurstFlit (stack : Nat) (cls : Cls) (s : State) : Out :=
  if s.pace.tripped then .next s
  else
    let s0 := s.abandonAged stack
    match s0.popBurst stack cls with
    | none => .next s0
    | some (f, s1) => .next (s1.stageFlit stack f)

/-- The burst whose first flit waits at the head of the request buffer takes a freed buffer of its class. -/
def execBurstStagingGrant (stack : Nat) (cls : Cls) (s : State) : Out :=
  if s.pace.tripped then .next s
  else
    let s0 := s.abandonAged stack
    match s0.popPort stack cls fun f =>
        f.kind == 8 && (s0.stack stack).bufferFree cls && ((s0.stack stack).burstOf f).isNone with
    | none => .next s0
    | some (f, s1) => .next (s1.stageFlit stack f)

/-- A link port reports that its link has dropped. -/
def execBurstAbandonLink (stack : Nat) (link : Nat) (s : State) : Out :=
  if !s.drops.contains (32 * stack + link) then .next s
  else
    .next ({ s with drops := s.drops.filter (· != 32 * stack + link) }.abandonBursts stack
      fun src _ => src == edgeAddr (linkStop link))

def execBurstAbandonAge (stack : Nat) (s : State) : Out := .next (s.abandonAged stack)

/-! ## Channels (R224 to R226) -/

/-- Channels of a stack that are in a state. -/
def Stack.inSt (k : Stack) (st : ChanSt) : List Nat := (List.range 32).filter fun c => (k.chan c).st == st

/-- A relocation may start (R225). Log entry 53 (DEDUCED). -/
def Stack.room (k : Stack) : Bool :=
  k.reloc.isNone && (!(k.inSt .spare).isEmpty || ((k.inSt .retired).isEmpty && (k.inSt .failed).isEmpty))

/-- Lines of a channel outside the relocation area, and with the relocated lines that sit on it (R225). -/
def relocLines (areaUsed : Bool) : Nat := (if areaUsed then 1536 else 1488) * 16384

/-- A channel is isolated: with room its lines are relocated, without it is FAILED. Log entry 53 (DEDUCED). -/
def State.isolate (s : State) (k c : Nat) : State :=
  let st := s.stack k
  let s1 := (s.count Ev.stkIsolate k).report (.stackChannel k c)
  if st.room then
    s1.modStack k fun st =>
      let st1 := match st.inSt .spare with
        | sp :: _ => st.setChan sp { (st.chan sp) with st := .inService }
        | [] => st
      { (st1.setChan c { (st1.chan c) with st := .isolated, due := false }) with
        reloc := some { chan := c, total := relocLines st.areaUsed }
        moves := st.moves ++ [{ chan := c, spare := (st.inSt .spare).head? }]
        areaUsed := st.areaUsed || (st.inSt .spare).isEmpty }
  else
    (((s1.modChan k c fun h => { h with st := .failed, due := false }).count Ev.stkFailed k).report
      .stackDegraded).assertCorr

/-- A channel with a cause of isolation is isolated. -/
def execChannelIsolate (stack : Nat) (chan : Nat) (s : State) : Out :=
  let h := (s.stack stack).chan chan
  if h.due && h.st == .inService then .next (s.isolate stack chan) else .next s

/-- One more line is copied, in a slot of the isolated channel that no waiting transaction claims; with the last line
the channel is RETIRED (R215, R225). Log entry 53 (DEDUCED). -/
def execRelocationCopy (stack : Nat) (s : State) : Out :=
  match (s.stack stack).reloc with
  | none => .next s
  | some r =>
    let h := (s.stack stack).chan r.chan
    if h.running.isSome || !h.queue.isEmpty then .next s
    else
      let s1 := s.modChan stack r.chan fun h => { h with slot := h.slot + 1 }
      if r.copied + 1 < r.total then
        .next (s1.modStack stack fun st => { st with reloc := some { r with copied := r.copied + 1 } })
      else
        .next ((s1.modStack stack fun st =>
          { (st.setChan r.chan { (st.chan r.chan) with st := .retired }) with reloc := none }).count Ev.stkRetire stack)

/-! ## What a controller does at an epoch boundary -/

/-- Corrected-error counts start again, and first flits of writes whose rest is lost are dropped (R194, R224). -/
def State.stackBoundary (s : State) (k : Nat) : State :=
  s.modStack k fun st => { st with
    chans := st.chans.map fun e => (e.1, { e.2 with corrected := 0 })
    parts := st.parts.filter fun f => s.flitEpoch f.ep + 2 > s.epoch }

end Sys2Proof.Machine
end

