-- ==== Sys2Proof/Machine/Pace.lean ====
section
/-! DEFINITION. Pace monitors, thermal sensors, sense points, the pace alarm and the trip (R36 to R40, R428,
R429), and the heartbeat duty (R80). -/

namespace Sys2Proof.Machine

/-- The die is powered and out of reset. -/
def State.alive (s : State) : Bool := s.boot.powered && !s.boot.inReset

/-- When an event that comes at each multiple of n ns comes next: the first multiple that chip time has not passed and
that is later than the event's last moment, so that events due at one moment all come at it.
Log entries 5 (DESIGN CHOICE), 113 (DEDUCED). -/
def State.nextMultiple (s : State) (n last : Nat) : Nat := max ((s.now + (n - 1)) / n * n) ((last / n + 1) * n)

/-- The pace alarm is raised: EV_PACE_ALARM counts it, MOD_ERR_CORR_N is asserted, and the warden is told
(R37, R39, Table 2-4). -/
def State.raiseAlarm (s : State) : State :=
  if s.pace.alarm then s
  else ({ s with pace := { s.pace with alarm := true }
                 reports := s.reports ++ [ReportKind.paceAlarm] }.count Ev.paceAlarm 0).assertCorr

/-- The trip: issue stops, link frames stop, MOD_ERR_FATAL_N is asserted, MOD_HB holds its level, and every burst that
has not committed is abandoned (R40, R80). -/
def State.trip (s0 : State) : State :=
  let s := (List.range 8).foldl (fun s k => s.abandonBursts k fun _ _ => true) s0
  { s with
    pace := { s.pace with tripped := true }
    errFatal := true
    hb := { s.hb with toggling := false, bootRate := false } }

/-- A condition of R39 failed in this epoch. -/
def State.unclean (s : State) (bad : Bool) : State :=
  if bad then { s with pace := { s.pace with clean := false } } else s

/-- Index and value of the first least element. Log entry 11 (DEDUCED). -/
def firstMin : List Nat → Option (Nat × Nat)
  | [] => none
  | v :: r =>
    match firstMin r with
    | none => some (0, v)
    | some (i, m) => if v ≤ m then some (0, v) else some (i + 1, m)

/-- Index and value of the first greatest signed element. Log entry 11 (DEDUCED). -/
def firstMax : List Int → Option (Nat × Int)
  | [] => none
  | v :: r =>
    match firstMax r with
    | none => some (0, v)
    | some (i, m) => if m ≤ v then some (0, v) else some (i + 1, m)

/-- Every pace monitor's window ends; its counts are judged against pace_threshold (R37, R39, R428).
Log entries 5 (DESIGN CHOICE), 11 (DEDUCED). -/
def execPaceWindowEnd (counts : List Nat) (s : State) : Out :=
  if !s.alive || counts.length != 16 then .next s
  else
    let due := s.nextMultiple 1024 s.pace.windowAt
    let s0 := s.advanceTo due
    let s1 := { s0 with pace := { s0.pace with windowAt := due } }
    if s1.pace.windowVoid then .next { s1 with pace := { s1.pace with windowVoid := false } }
    else
      let thr := s1.boot.rs.paceThreshold
      let m := (firstMin counts).getD (0, 0)
      let s2 := { s1 with pace := { s1.pace with
        minCount := BitVec.ofNat 12 (min m.2 4095), minMonitor := BitVec.ofNat 4 m.1 } }
      let s3 := s2.unclean (counts.any (· < thr + 16))
      .next (if counts.any (· < thr) then s3.raiseAlarm else s3)

/-- Sensor readings are signed, in units of 0.125 degrees (Table 2-11). -/
def degrees (n : Nat) : Int := 8 * n

/-- Excursions above 95 degrees that begin with these readings (R38). -/
def newExcursions (prev : Tab (BitVec 12)) (temps : List (BitVec 12)) : Nat :=
  ((List.range temps.length).filter fun i =>
    decide (degrees 95 < (temps.getD i 0).toInt) &&
    (match prev.find i with
     | none => true
     | some p => decide (p.toInt ≤ degrees 95))).length

/-- The sensors' readings as the previous ones of the next conversion. -/
def keepTemps (temps : List (BitVec 12)) : Tab (BitVec 12) :=
  (List.range temps.length).map fun i => (i, temps.getD i 0)

/-- All thirty-two sensors convert (R429): excursions, alarm, clear conditions and trip (R37 to R40). -/
def execThermalConversion (temps : List (BitVec 12)) (s : State) : Out :=
  if !s.alive || temps.length != 32 then .next s
  else
    let due := s.nextMultiple 10000 s.pace.convAt
    let s0 := s.advanceTo due
    let s1 := { s0 with pace := { s0.pace with convAt := due } }
    let t := temps.map (·.toInt)
    let m := (firstMax t).getD (0, 0)
    let s2 := s1.countN Ev.thermWarn 0 (newExcursions s1.pace.prevTemp temps)
    let s3 := { s2 with pace := { s2.pace with
      prevTemp := keepTemps temps
      maxTemp := BitVec.ofInt 12 m.2
      maxSensor := BitVec.ofNat 5 m.1 } }
    let s4 := s3.unclean (t.any (degrees 100 < ·))
    let s5 := if t.any (degrees 105 < ·) then s4.raiseAlarm else s4
    .next (if t.any (degrees 115 < ·) then s5.trip else s5)

/-- The timekeeper samples the four sense points (R429, R37, R39, R40). -/
def execSensePointSample (points : List SenseReading) (s : State) : Out :=
  if !s.alive || points.length != 4 then .next s
  else
    let due := s.nextMultiple 250 s.pace.sampleAt
    let s0 := s.advanceTo due
    let s1 := { s0 with pace := { s0.pace with sampleAt := due } }
    let s2 := s1.unclean (points.any (!·.atLeast073))
    let s3 := if points.any (·.below072) then s2.raiseAlarm else s2
    .next (if points.any (·.below062) then s3.trip else s3)

/-! ## The heartbeat (R80) -/

/-- A heartbeat thread of the plan in force. -/
def State.isHbThread (s : State) (a : ThreadAt) : Bool :=
  match s.boot.plan with
  | none => false
  | some p => p.heartbeat.contains { row := a.row.toNat, col := a.col.toNat, thread := a.t.toNat }

/-- How long one arming lasts: 100 ms of chip time. -/
def hbSpan : Nat := 100000000

/-- The heartbeat is armed for 100 ms from now: toggling resumes and lapsed clears. -/
def State.armHb (s : State) : State :=
  { s with hb := { s.hb with
    expiry := BitVec.ofNat 64 (s.now + hbSpan), toggling := true, lapsed := false, bootRate := false } }

/-- Arm the heartbeat; PRIVILEGED from a thread that is not a heartbeat thread. -/
def execHbarm (t : ThreadAt) (s : State) : Out :=
  s.issue (.hbarm t) t
    (fun _ => if s.isHbThread t then none
      else some { cause := Cause.privileged, addr := (encodeWord (.hbarm t)).zeroExtend 64 })
    fun site _ th => .ok (s.armHb.setThr site t.t th.retire)

/-- Chip time reaches the heartbeat expiry: MOD_HB holds its level, lapsed is set, EV_HB_LAPSE counts. -/
def execHeartbeatExpiry (s : State) : Out :=
  if s.running && s.hb.toggling then
    let s1 := s.advanceTo s.hb.expiry.toNat
    .next ({ s1 with hb := { s1.hb with toggling := false, lapsed := true } }.count Ev.hbLapse 0)
  else .next s

/-- MOD_HB toggles: at the start rate until the threads start, at the 5 ms rate while chip time is below
the expiry, and not after a trip. -/
def execModHbToggle (s : State) : Out :=
  if s.alive && !s.pace.tripped && (s.hb.bootRate || (s.hb.toggling && decide (s.now < s.hb.expiry.toNat))) then
    .next { s with hb := { s.hb with level := !s.hb.level } }
  else .next s

end Sys2Proof.Machine
end

