-- ==== Sys2Proof/Machine/Stream.lean ====
section
/-! DEFINITION. The stream table: descriptors (R228, R229), the stream cache (R232) and its shadow (R233), IDs
(R230), stream commands (R231), and HARVEST with the slot headers it writes (R314, R380 to R383). -/

namespace Sys2Proof.Machine

/-! ## Descriptors -/

def descAddr (id : Nat) : Nat := planEnd + id % 8 * 0xC0000000 + 0x60000000 + id / 8 * 128

/-- A number with the w bits from lo up replaced. -/
def setBits (v lo w x : Nat) : Nat := v - (bits v lo w <<< lo) + ((x % 2 ^ w) <<< lo)

/-- A field of a record: w bits from bit lo of the 8 B word at offset o. -/
def recGet (d : List Byte) (o lo w : Nat) : Nat := bits (field d o 8) lo w
def recSet (d : List Byte) (o lo w v : Nat) : List Byte := putBytes d o (leBytes 8 (setBits (field d o 8) lo w v))

namespace Desc
def cls (d : List Byte) : Nat := recGet d 0 0 2
def st (d : List Byte) : Nat := recGet d 0 2 3
def position (d : List Byte) : Nat := recGet d 0 8 22
def limit (d : List Byte) : Nat := recGet d 0 30 22
def gen (d : List Byte) : Nat := recGet d 0 52 12
def period (d : List Byte) : Nat := recGet d 24 0 32
def nextDue (d : List Byte) : Nat := recGet d 32 0 64
def home (d : List Byte) : Nat := recGet d 40 0 22
def handler (d : List Byte) : Nat := recGet d 40 22 8
def harvestBase (d : List Byte) : Nat := recGet d 48 0 40
def harvestSlots (d : List Byte) : Nat := recGet d 48 40 16
def slotLog2 (d : List Byte) : Nat := recGet d 48 56 4
def harvestNext (d : List Byte) : Nat := recGet d 56 0 16
def ownerNode (d : List Byte) : Nat := recGet d 64 0 18
def ownerLink (d : List Byte) : Nat := recGet d 64 18 5
def late (d : List Byte) : Nat := recGet d 80 0 32
def results (d : List Byte) : Nat := recGet d 80 32 32
def setSt (d : List Byte) (v : Nat) : List Byte := recSet d 0 2 3 v
end Desc

/-- Stream states (Table 9-8). -/
def stFree : Nat := 0
def stOpen : Nat := 1
def stFull : Nat := 2
def stClosing : Nat := 3
def stMigrating : Nat := 4
def stFailedStream : Nat := 5

/-- A descriptor rebuilt from the shadow (R233). -/
def Shadow.desc (h : Shadow) : List Byte :=
  let z := List.replicate 128 (0 : Byte)
  if h.free then recSet z 0 52 12 h.gen.toNat
  else
    let d := recSet (recSet (recSet z 0 0 2 h.cls.toNat) 0 2 3 stFailedStream) 0 52 12 h.gen.toNat
    recSet (recSet d 64 0 18 h.node.toNat) 64 18 5 h.link.toNat

def State.shadow (s : State) (id : Nat) : Shadow := s.strm.shadow.at id {}

/-- The class of a stream's commands; an ID that is FREE has none, and its commands are class C.
Log entry 57 (DEDUCED). -/
def State.streamCls (s : State) (id : Nat) : Cls :=
  let h := s.shadow id
  if h.free then .c else clsOf h.cls

/-! ## The stream cache (R232) -/

def cacheSet (id : Nat) : Nat := id / 8 % 256

def Stack.cacheFind (k : Stack) (id : Nat) : Option (Nat × CacheWay) :=
  k.cache.find? fun e => e.2.id == id

/-- The descriptor of an ID, if its engine's cache holds it. -/
def State.cached (s : State) (id : Nat) : Option (List Byte) :=
  ((s.stack (id % 8)).cacheFind id).map (·.2.desc)

/-- A stream command that a thread has sent and that has not been answered. -/
structure SentCmd where
  site : Nat
  t : BitVec 2
  cmd : StrmCmd
  deriving DecidableEq, Repr

def Core.streamCmds (site : Nat) (c : Core) : List SentCmd :=
  ([0, 1, 2, 3] : List (BitVec 2)).filterMap fun t =>
    match (c.thr t).block with
    | .stream k => some { site := site, t := t, cmd := k }
    | _ => none

def State.streamCmds (s : State) : List SentCmd := s.cores.flatMap fun e => e.2.streamCmds e.1

/-- A way's descriptor has a command in progress, or a fill that waited has been given the way (R232). -/
def State.wayBusy (s : State) (id key : Nat) : Bool :=
  s.streamCmds.any (·.cmd.id == id) || (s.stack (id % 8)).fillWaits.any fun f => f.way == some (key % 8) && cacheSet f.id == key / 8

/-- The way that a fill takes: the one that it waited for; else, from the victim pointer on, the first with no command in
progress (R232). -/
def State.fillWay (s : State) (id : Nat) : Option Nat :=
  let k := s.stack (id % 8)
  let p := k.victim.at (cacheSet id) 0
  match k.fillWaits.find? (·.id == id) with
  | some f => f.way
  | none => (List.range 8).map (fun i => (p + i) % 8) |>.find? fun w =>
    match k.cache.find (8 * cacheSet id + w) with
    | some e => !s.wayBusy e.id (8 * cacheSet id + w)
    | none => true

/-- Lines of a descriptor, with the accesses that reach them. -/
def descLines (id : Nat) (a b : Access) : List (Nat × Access) := [(descAddr id / 64, a), (descAddr id / 64 + 1, b)]

/-- A dirty victim is written back, both of its lines; none while their channel's slots go to others (R232).  A line of
a FAILED channel keeps nothing (R226). -/
def State.writeBack (s : State) (e : CacheWay) (cls : Cls) (a b : Access) : Option State :=
  if !e.dirty then some s
  else
    let k := e.id % 8
    let put (t : State) (r : AccessEnd) (line at' : Nat) : State :=
      if r = .good then t.writeLine line (bytesLine (slice e.desc at' 64)) else t
    let l := descAddr e.id / 64
    (s.unitAccess k l cls true a).bind fun x =>
      ((put x.1 x.2 l 0).unitAccess k (l + 1) cls true b).map fun y => put y.1 y.2 (l + 1) 64

/-- Reads a descriptor's two lines, in one scheduling of their channel; one with an uncorrectable line, or whose channel
has FAILED, is rewritten from the shadow (R231, R233). Log entry 125 (DEDUCED). -/
def State.readDesc (s : State) (id : Nat) (cls : Cls) (a b : Access) : Option (State × CacheWay) :=
  (s.unitAccesses (id % 8) cls false (descLines id a b)).map fun r =>
    if r.2 = .good then (r.1, { id := id, desc := Mem.readN s.mem (descAddr id) 128 })
    else (r.1.count Ev.strmDescLost (id % 8), { id := id, desc := (s.shadow id).desc, dirty := true })

/-- A fill of the stream cache into a way, after the victim's write-back: the accesses are those of the lines written
back, then of the lines read; none while a channel's slots go to others. -/
def State.fillInto (s : State) (id w : Nat) (acc : List Access) : Option State :=
  let set := cacheSet id
  let key := 8 * set + w
  let cls := s.streamCls id
  let victim := (s.stack (id % 8)).cache.find key
  let n := if victim.any (·.dirty) then 2 else 0
  let a (i : Nat) : Access := acc.getD i {}
  let kept : Option State := match victim with
    | some e => s.writeBack e cls (a 0) (a 1)
    | none => some s
  kept.bind fun s1 => (s1.readDesc id cls (a n) (a (n + 1))).map fun r =>
    r.1.modStack (id % 8) fun k => { k with
      cache := k.cache.put key r.2, victim := k.victim.put set ((w + 1) % 8)
      fillWaits := k.fillWaits.filter (·.id != id) }

/-- A fill of the stream cache; while every way of its set has a command in progress it waits for the first of them to be
answered (R232). -/
def State.fillDesc (s : State) (id : Nat) (acc : List Access) : Option State :=
  match s.fillWay id with
  | some w => s.fillInto id w acc
  | none =>
    if (s.stack (id % 8)).fillWaits.any (·.id == id) then none
    else some (s.modStack (id % 8) fun k => { k with fillWaits := k.fillWaits ++ [{ id := id }] })

/-- A command on a descriptor has been answered: the fill of its set that has waited longest takes the way (R232). -/
def Stack.giveWay (k : Stack) (id : Nat) : Stack :=
  match k.cacheFind id with
  | none => k
  | some (key, _) =>
    match k.fillWaits.find? fun f => f.way.isNone && cacheSet f.id == key / 8 with
    | some f => { k with fillWaits := k.fillWaits.map fun x => if x.id = f.id then { x with way := some (key % 8) } else x }
    | none => k

/-- The engine changes a descriptor: the cache is write-back. -/
def State.putDesc (s : State) (id : Nat) (d : List Byte) : State :=
  s.modStack (id % 8) fun k => { k with
    cache := k.cache.map fun e => if e.2.id = id then (e.1, { e.2 with desc := d, dirty := true }) else e }

/-! ## Turns (R231) -/

/-- A command is the oldest of its stream. -/
def State.oldest (s : State) (c : StrmCmd) : Bool :=
  s.streamCmds.all fun k => k.cmd.id != c.id || decide (c.order ≤ k.cmd.order)

/-- A command of an engine could be served now, but for the order of the engine's commands: its descriptor is cached and
it is the oldest of its stream. -/
def State.readyAt (s : State) (stack : Nat) (k : SentCmd) : Bool :=
  k.cmd.id % 8 == stack && (s.cached k.cmd.id).isSome && s.oldest k.cmd

/-- A stream's turn at its engine, for a command of a number in the order of arrival: the commands of class A streams go
first, and the others in that order (R231, R302). -/
def State.engineTurn (s : State) (id order : Nat) : Bool :=
  s.streamCmds.all fun k => !s.readyAt (id % 8) k ||
    (if s.streamCls k.cmd.id == .a then s.streamCls id == .a && decide (order ≤ k.cmd.order)
     else s.streamCls id == .a || decide (order ≤ k.cmd.order))

/-- A command's turn: the oldest of its stream, and the first of its engine's. -/
def State.streamTurn (s : State) (c : StrmCmd) : Bool := s.oldest c && s.engineTurn c.id c.order

/-! ## The engine's turn for a host or MIGRATE message (R374) -/

/-- The engine takes up a message that has arrived now: the stream has no command that came before, and none goes first
at the engine.  The descriptor is in the cache, or the message waits for it. Log entry 58 (DEDUCED). -/
def State.loadDesc (s : State) (id : Nat) : Option (State × List Byte) :=
  if s.streamCmds.any (·.cmd.id == id) || !s.engineTurn id s.strm.order then none
  else (s.cached id).map fun d =>
    ({ s with strm :=
        if s.strm.filled.contains id then { s.strm with filled := s.strm.filled.filter (· != id) }
        else { s.strm with hits := s.strm.hits + 1 } }, d)

/-- A descriptor is read into the cache for a command of a thread, or, where none waits for it, for a message that
does; the miss is counted once. Log entry 56 (DESIGN CHOICE). -/
def State.cacheFill (s : State) (id : Nat) (acc : List Access) (message : Bool) : State :=
  if (s.cached id).isSome then s
  else
    let miss (t : State) : State := { t with strm := { t.strm with misses := t.strm.misses + 1 } }
    match s.streamCmds.find? fun k => k.cmd.id == id && s.oldest k.cmd with
    | some k =>
      match s.fillDesc id acc with
      | none => s
      | some s1 =>
        if k.cmd.missed then s1
        else miss (s1.modThr k.site k.t fun th => { th with block := .stream { k.cmd with missed := true } })
    | none =>
      if !message then s
      else
        match s.fillDesc id acc with
        | none => s
        | some s1 =>
          if s.strm.filled.contains id then s1
          else miss { s1 with strm := { s1.strm with filled := id :: s1.strm.filled } }

/-! ## Answers -/

/-- The engine answers a thread's command: STRM_RESP and STRM_STAT are set, the thread leaves BLOCK, and a fill that waits
for a way of the set takes this one. -/
def State.streamAnswer (s : State) (site : Nat) (t : BitVec 2) (c : StrmCmd) (code : BitVec 3) (resp : W64) : State :=
  let s1 := (s.modThr site t fun th => { th with strmResp := resp, strmStat := code }.unblock).modStack (c.id % 8) fun k =>
    k.giveWay c.id
  let s2 := if code = 0 then s1 else s1.count Ev.strmRefused (c.id % 8)
  if c.missed then s2 else { s2 with strm := { s2.strm with hits := s2.strm.hits + 1 } }

/-- What a command does to a descriptor: the state, and a code that refuses it or the descriptor and STRM_RESP; none
while it waits for an access to memory. -/
abbrev StrmOp := State → List Byte → Option (State × Except (BitVec 3) (List Byte × W64))

/-- A thread's command is served: NOSTREAM, then STATE, then the command's own codes (R231).
Log entry 56 (DESIGN CHOICE). -/
def State.serveStream (s : State) (a : ThreadAt) (code : Nat) (allowed : List Nat) (op : StrmCmd → StrmOp) : Out :=
  match s.siteOf a.row.toNat a.col.toNat with
  | none => .next s
  | some site =>
    match (s.thr site a.t).block with
    | .stream c =>
      match s.cached c.id with
      | none => .next s
      | some d =>
        if c.code ≠ code || !s.streamTurn c then .next s
        else if Desc.st d = stFree then .next (s.streamAnswer site a.t c 1 0)
        else if !allowed.contains (Desc.st d) then .next (s.streamAnswer site a.t c 2 0)
        else
          match op c s d with
          | none => .next s
          | some (s1, .error e) => .next (s1.streamAnswer site a.t c e 0)
          | some (s1, .ok (d1, r)) => .next ((if d1 = d then s1 else s1.putDesc c.id d1).streamAnswer site a.t c 0 r)
    | _ => .next s

def openStates : List Nat := [stOpen, stFull, stClosing]

/-! ## Commands (Table 9-9) -/

def execStreamRead (t : ThreadAt) (s : State) : Out :=
  s.serveStream t 1 [1, 2, 3, 4, 5, 6, 7] fun c s d =>
    some (s, .ok (d, BitVec.ofNat 64 (field d (8 * (c.arg.toNat % 16)) 8)))

def execStreamAdvance (t : ThreadAt) (s : State) : Out :=
  s.serveStream t 2 [stOpen] fun c s d =>
    let n := bits c.arg.toNat 0 22
    let p := Desc.position d + n
    if n = 0 || 2097152 < n then some (s, .error 4)
    else if Desc.limit d < p then some (s, .error 3)
    else
      let d1 := recSet d 0 8 22 p
      some (s, .ok (if p = Desc.limit d then Desc.setSt d1 stFull else d1, BitVec.ofNat 64 p))

def execStreamSetdue (t : ThreadAt) (s : State) : Out :=
  s.serveStream t 3 openStates fun c s d => some (s, .ok (recSet d 32 0 64 c.arg.toNat, 0))

def execStreamLate (t : ThreadAt) (s : State) : Out :=
  s.serveStream t 4 openStates fun _ s d =>
    let n := (Desc.late d + 1) % 2 ^ 32
    some (s, .ok (recSet d 80 0 32 n, BitVec.ofNat 64 n))

def execStreamFail (t : ThreadAt) (s : State) : Out :=
  s.serveStream t 6 openStates fun _ s d => some (s, .ok (Desc.setSt d stFailedStream, 0))

/-! ## Harvest slots (Table 17-5) -/

namespace Slot
def st (h : List Byte) : Nat := recGet h 0 0 2
def late (h : List Byte) : Nat := recGet h 0 2 1
def trailer (h : List Byte) : Nat := recGet h 0 3 1
def length (h : List Byte) : Nat := recGet h 0 4 13
def result (h : List Byte) : Nat := recGet h 0 32 32
def takeCount (h : List Byte) : Nat := field h 8 4
def expired (h : List Byte) : Nat := field h 12 4
def fillEpoch (h : List Byte) : Nat := field h 16 6 % 2 ^ 44
/-- An EMPTY header: expired and fill_epoch are kept (R380). -/
def clear (h : List Byte) : List Byte := putBytes h 0 (List.replicate 12 0)
def isEmpty (h : List Byte) : Bool := zeroBytes h 0 12
end Slot

/-- Address of slot i of a stream (R380). -/
def slotAddr (d : List Byte) (i : Nat) : Nat := (Desc.harvestBase d + i * 2 ^ Desc.slotLog2 d) % 2 ^ 40

/-- The expiry of a slot header, and whether it was applied (R383). -/
def State.expireSlot (s : State) (h : List Byte) : List Byte × Bool :=
  if Slot.st h ≠ 0 && decide (Slot.fillEpoch h + s.boot.rs.harvestRetention ≤ s.epoch) then
    (putBytes (Slot.clear h) 12 (leBytes 4 (Slot.expired h + 1)), true)
  else (h, false)

/-- One access of a class to a slot header's line at its home controller, a read that may write (R214, R380, R381); a line
that is uncorrectable or whose channel has FAILED gives none. Log entry 58 (DEDUCED). -/
def State.readHeader (s : State) (a : Nat) (cls : Cls) (acc : Access) : Option (State × Option (List Byte)) :=
  (s.unitAccess (homeStack a) (a / 64) cls false acc).map fun r =>
    (r.1, if r.2 = .good then some (Mem.readN s.mem (a / 64 * 64) 64) else none)

def State.writeHeader (s : State) (a : Nat) (h : List Byte) : State :=
  { s with mem := Mem.writeN s.mem (a / 64 * 64) h }

/-- HARVEST: the next slot, if it is EMPTY, becomes FILLING; lateness is judged against next_due (R314, R381).
A header line that is uncorrectable answers DATA. Log entry 58 (DEDUCED). -/
def execStreamHarvest (t : HarvestAt) (s : State) : Out :=
  s.serveStream t.toThreadAt 5 openStates fun c s d =>
    let a := slotAddr d (Desc.harvestNext d)
    (s.readHeader a (s.streamCls c.id) t.acc).map fun r =>
    match r with
    | (s1, none) => (s1, .error 5)
    | (s1, some h0) =>
      let h := (s.expireSlot h0).1
      if !Slot.isEmpty h then (s1, .error 2)
      else
        let late := Desc.period d ≠ 0 && decide (Desc.nextDue d < s.now)
        let word := 1 + (if late then 4 else 0) + Desc.results d * 2 ^ 32
        let h1 := putBytes (putBytes h 0 (leBytes 8 word)) 16 (leBytes 6 (s.epoch % 2 ^ 44))
        let d1 := recSet d 80 32 32 (Desc.results d + 1)
        let d2 := recSet d1 56 0 16 ((Desc.harvestNext d + 1) % max 1 (Desc.harvestSlots d))
        let d3 := if Desc.period d = 0 then d2 else recSet d2 32 0 64 (Desc.nextDue d + Desc.period d)
        let d4 := if late then recSet d3 80 0 32 (Desc.late d + 1) else d3
        let s2 := s1.writeHeader a h1
        let s3 := if late then s2.count Ev.strmLate (c.id % 8) else s2
        (s3, .ok (d4, BitVec.ofNat 64 (a / 64 * 64 + (if late then 1 else 0))))

/-! ## IDs (R230) -/

/-- A freed ID becomes available at the second boundary after it was freed. -/
def execStreamIdAvailable (stack : Nat) (s : State) : Out :=
  match s.strm.freed.find? fun f => f.id % 8 == stack && !f.avail && decide (f.epoch + 2 ≤ s.epoch) with
  | none => .next s
  | some f => .next { s with strm := { s.strm with
      freed := s.strm.freed.map fun x => if x = f then { x with avail := true } else x } }

def streamIds : Nat := 2097152

/-- The next available ID: those never used, lowest first, then freed ones in the order of their freeing. -/
def State.takeId (s : State) : Option (Nat × State) :=
  if s.strm.fresh < streamIds then
    some (s.strm.fresh, { s with strm := { s.strm with fresh := s.strm.fresh + 1 } })
  else
    (s.strm.freed.find? (·.avail)).map fun f =>
      (f.id, { s with strm := { s.strm with freed := s.strm.freed.erase f } })

/-- Open streams of a class, module total. -/
def Streams.opened (m : Streams) : Cls → Nat
  | .a => m.openA
  | .b => m.openB
  | .c => m.openC
def Streams.setOpened (m : Streams) (k : Cls) (n : Nat) : Streams :=
  match k with
  | .a => { m with openA := n }
  | .b => { m with openB := n }
  | .c => { m with openC := n }

/-- A descriptor is written at admission or at a move; the shadow follows and the stream counts as open. -/
def State.openStream (s : State) (id : Nat) (d : List Byte) : State :=
  let k := clsOf (BitVec.ofNat 2 (Desc.cls d))
  let h : Shadow := { free := false, cls := BitVec.ofNat 2 (Desc.cls d), gen := BitVec.ofNat 12 (Desc.gen d)
                      node := BitVec.ofNat 18 (Desc.ownerNode d), link := BitVec.ofNat 5 (Desc.ownerLink d) }
  { (s.putDesc id d) with strm := { (s.strm.setOpened k (s.strm.opened k + 1)) with
      shadow := s.strm.shadow.put id h } }

/-- A stream returns to FREE: its generation is kept, its ID waits for the second boundary. -/
def State.freeStream (s : State) (id : Nat) (d : List Byte) : State :=
  let k := clsOf (BitVec.ofNat 2 (Desc.cls d))
  let h : Shadow := { gen := BitVec.ofNat 12 (Desc.gen d) }
  { (s.putDesc id h.desc) with strm := { (s.strm.setOpened k (s.strm.opened k - 1)) with
      shadow := s.strm.shadow.put id h
      freed := s.strm.freed ++ [{ id := id, epoch := s.epoch }] } }

/-- A thread writes STRM_CMD: it goes to BLOCK until the engine answers; a reserved code is answered at once,
NOSTREAM before ARG (R231). Log entries 56 (DESIGN CHOICE), 57 (DEDUCED). -/
def State.sendStream (s : State) (site : Nat) (t : BitVec 2) (code : Nat) : State :=
  let th := s.thr site t
  let id := th.strmArg0.toNat
  if 1 ≤ code && code ≤ 6 then
    let c : StrmCmd := { id := id, code := code, arg := th.strmArg1
                         deadline := s.now + s.classTimeout (s.streamCls id), order := s.strm.order }
    { (s.setThr site t { th with st := .block, block := .stream c }) with
      strm := { s.strm with order := s.strm.order + 1 } }
  else
    (s.setThr site t { th with strmResp := 0, strmStat := if (s.shadow id).free then 1 else 4 }.retire).count
      Ev.strmRefused (id % 8)

end Sys2Proof.Machine
end

