-- ==== Sys2Proof/Machine/Link.lean ====
section
/-! DEFINITION. Link ports (chapter 11): frames (R255 to R258), link flits and virtual channels (R259, R260),
retry (R262), credits (R263, R264), the fill order of frames (R266), lanes (R252 to R254), and the link state
machine with its drops (R271 to R273). -/

namespace Sys2Proof.Machine

/-! ## Parts -/

def State.link (s : State) (k : Nat) : Link := s.links.at k {}
def State.setLink (s : State) (k : Nat) (l : Link) : State := { s with links := s.links.put k l }
def State.modLink (s : State) (k : Nat) (f : Link → Link) : State := s.setLink k (f (s.link k))
def State.modSess (s : State) (k : Nat) (f : Sess → Sess) : State :=
  s.modLink k fun l => { l with sess := f l.sess }
def Sess.vc (m : Sess) (v : Nat) : Vc := if h : v < 8 then m.vcs[v] else {}
def Sess.setVc (m : Sess) (v : Nat) (c : Vc) : Sess := if h : v < 8 then { m with vcs := m.vcs.set v c } else m

/-- UP or RETRAINING: the link holds a session. -/
def Link.live (l : Link) : Bool := l.st == 4 || l.st == 5

/-- The state of a link changes. -/
def State.enterLink (s : State) (k st : Nat) : State :=
  s.modLink k fun l => { l with st := st, since := s.now }

/-- Receive buffers of a module's port (Table 11-7). -/
def vcBuffer (v : Nat) : Nat := if v < 2 then 64 else if v < 6 then 1024 else if v = 6 then 8 else 32

/-! ## Link flits (Tables 11-6 and 11-7) -/

def LFlit.bytes (f : LFlit) : List Byte :=
  leBytes 8 (f.kind.toNat + f.cls.toNat * 2 ^ 4 + (if f.resp then 2 ^ 6 else 0) + f.index.toNat * 2 ^ 7 +
    (if f.last then 2 ^ 13 else 0) + f.dst.toNat * 2 ^ 14 + f.src.toNat * 2 ^ 32 + f.hops.toNat * 2 ^ 50) ++
  leBytes 8 (f.txn.toNat + f.addr.toNat * 2 ^ 12) ++ lineBytes f.payload

/-- The link flit of 80 bytes, and whether its reserved bits are zero. -/
def lflitOf (b : List Byte) : LFlit × Bool :=
  let w := field b 0 8
  let u := field b 8 8
  ({ kind := BitVec.ofNat 4 (bits w 0 4), cls := BitVec.ofNat 2 (bits w 4 2), resp := bitAt w 6
     index := BitVec.ofNat 6 (bits w 7 6), last := bitAt w 13, dst := BitVec.ofNat 18 (bits w 14 18)
     src := BitVec.ofNat 18 (bits w 32 18), hops := BitVec.ofNat 6 (bits w 50 6)
     txn := BitVec.ofNat 12 (bits u 0 12), addr := BitVec.ofNat 40 (bits u 12 40)
     payload := bytesLine (slice b 16 64) }, bits w 56 8 == 0 && bits u 52 12 == 0)

/-- The VC of a kind, class and channel, if Table 11-7 has one. -/
def LFlit.vc (f : LFlit) : Option Nat :=
  let k := f.kind.toNat
  if f.resp != bitAt k 0 || f.cls == 0 then none
  else if k ≤ 9 then some (2 * (f.cls.toNat - 1) + k % 2)
  else if k = 10 && f.cls == 1 then some 6
  else if (k = 10 || k = 11) && f.cls == 2 then some 7
  else none

/-- A memory kind carries an address; every other kind has addr zero. -/
def LFlit.memory (f : LFlit) : Bool := decide (2 ≤ f.kind.toNat) && decide (f.kind.toNat ≤ 9)

/-- A flit follows the flits that its VC's buffer ends with (R260). Log entry 61 (DEDUCED). -/
def LFlit.follows (f : LFlit) (l : List LFlit) : Bool :=
  match l.getLast? with
  | some p => if p.last then f.index == 0 || f.resp
              else f.index == p.index + 1 && f.kind == p.kind && f.txn == p.txn && f.dst == p.dst && f.src == p.src
  | none => f.index == 0 || f.resp

/-- The form of a flit that arrives in a slot of VC v (R260). Log entry 61 (DEDUCED). -/
def State.lflitOk (s : State) (k v : Nat) (f : LFlit) (clean : Bool) : Bool :=
  clean && f.vc == some v && (f.memory || f.addr == 0) && (!f.resp || f.last) &&
  (v < 6 || (f.dst.toNat == s.boot.rs.node && f.src == (s.link k).partnerNode))

/-! ## Frames (Tables 11-3 to 11-5) -/

/-- A frame's header fields, body and tag, as received. -/
structure Frame where
  ftype : Nat
  version : Nat
  ep : BitVec 3
  enc : Bool
  mask : Nat
  fseq : BitVec 12
  ack : BitVec 12
  credit : BitVec 12
  creditVc : Nat
  creditValid : Bool
  slotVc : Nat
  txcLow : Nat
  /-- reserved header bits are zero -/
  clean : Bool
  body : List Byte

def frameOf (b : List Byte) : Frame :=
  let w0 := field b 0 2
  let w1 := field b 2 2
  let w2 := field b 4 2
  let w3 := field b 6 2
  let w4 := field b 8 2
  { ftype := bits w0 0 4, version := bits w0 4 4, ep := BitVec.ofNat 3 (bits w0 8 3), enc := bitAt w0 11
    mask := bits w0 12 4, fseq := BitVec.ofNat 12 w1, ack := BitVec.ofNat 12 w2
    credit := BitVec.ofNat 12 w3, creditVc := bits w3 12 3, creditValid := bitAt w3 15
    slotVc := bits w4 0 12, txcLow := field b 10 2
    clean := bits w1 12 4 == 0 && bits w2 12 4 == 0 && bits w4 12 4 == 0
    body := slice b 16 320 }

/-- The CRC-32C of a frame as transmitted (R256). -/
def frameCrc (b : List Byte) : Nat := crc32c (slice b 0 12 ++ slice b 16 336)

/-- The VC of slot i. -/
def Frame.vcAt (f : Frame) (i : Nat) : Nat := bits f.slotVc (3 * i) 3
def Frame.slotAt (f : Frame) (i : Nat) : List Byte := slice f.body (80 * i) 80

/-- A LANE body is well formed (Table 11-2). -/
def laneBodyOk (b : List Byte) : Bool :=
  let cmd := field b 0 1
  decide (1 ≤ cmd) && decide (cmd ≤ 6) && decide (field b 1 1 ≤ 4) && zeroBytes b 2 2 &&
  (cmd == 5 || zeroBytes b 4 4) && zeroBytes b 8 312

/-- Reserved fields, code points and slot fields of a frame agree with its type (R255). -/
def Frame.wellFormed (f : Frame) (enc : Bool) : Bool :=
  let data := f.ftype == 1
  f.clean && f.version == 1 && decide (1 ≤ f.ftype) && decide (f.ftype ≤ 7) && f.enc == enc &&
  (data || (f.mask == 0 && f.fseq == 0)) &&
  (List.range 4).all (fun i => bitAt f.mask i || (f.vcAt i == 0 && (!data || zeroBytes f.body (80 * i) 80))) &&
  (f.ftype != 2 || ((List.range 8).all (fun v => decide (field f.body (2 * v) 2 < 4096)) && zeroBytes f.body 16 304)) &&
  (f.ftype != 3 || zeroBytes f.body 0 320) &&
  (f.ftype != 6 || laneBodyOk f.body) &&
  (f.ftype != 7 || (decide (field f.body 0 1 ≤ 10) && zeroBytes f.body 1 319))

/-- The nonce of a direction: salt, then txc most significant byte first (R257). -/
def frameNonce (salt : List Byte) (txc : W64) : List Byte := slice salt 0 4 ++ beBytes 8 txc.toNat

/-- The txc of a received frame: the least value allowed whose low bits match (R257). -/
def rxTxc (least : W64) (low : Nat) : W64 := least + BitVec.ofNat 64 ((low + 65536 - least.toNat % 65536) % 65536)

/-- A frame's tag is checked, and its body decrypted (R257). -/
def Sess.openFrame (m : Sess) (b : List Byte) : Option (W64 × List Byte) :=
  let f := frameOf b
  let txc := rxTxc m.txcRx f.txcLow
  let n := frameNonce m.sRx txc
  if f.enc then (gcmOpen m.kRx n (slice b 0 12) f.body (slice b 336 16)).map fun p => (txc, p)
  else (gcmOpen m.kRx n (slice b 0 12 ++ f.body) [] (slice b 336 16)).map fun _ => (txc, f.body)

/-! ## Drops and quarantine (R271, R272, R298) -/

/-- backoff(n) in ns (R298). -/
def backoffNs (n node link : Nat) : Nat := 1000000 * (100 * 2 ^ min (n - 1) 10 + (node + 7 * link) % 64)

/-- No session; the tags go on from where they stood, so that late responses match nothing. -/
def Link.noSess (l : Link) : Sess := { nextTag := l.sess.nextTag, nextIn := l.sess.nextIn }

/-- The link becomes QUARANTINED with a reason; n counts every reason but PRUNED. -/
def State.quarantine (s : State) (k reason : Nat) : State :=
  let l := s.link k
  let n := if reason = 8 then l.n else l.n + 1
  let s1 := s.setLink k { l with
    st := 6, since := s.now, reason := BitVec.ofNat 4 reason, n := n, sess := l.noSess, adm := {}, locked := false
    phyUp := false, inbox := [], pruned := l.pruned || reason == 8, waitFrom := [], creditFrom := []
    backoffEnd := s.now + backoffNs n s.boot.rs.node k }
  let s2 := { s1 with admitQueue := s1.admitQueue.filter (· != k) }
  if reason = 8 then s2
  else
    let s3 := s2.count Ev.admQuarantine k
    let s4 := if n = 8 then s3.report (.linkQuarantine k) else s3
    if 8 ≤ n then s4.assertCorr else s4

/-- A drop: the session, buffers, records and reservations go, staged bursts are reported to the stacks, an install
session of the link closes (R342), and the link takes the state that its reason gives (R272, Table 11-10). -/
def State.dropLink (s : State) (k reason : Nat) : State :=
  let l := s.link k
  if !l.live then s
  else
    let s1 := (s.setLink k { l with
      reason := BitVec.ofNat 4 reason, sess := l.noSess, adm := {}, aps := [], grant := 0, partnerNode := 0, leafSerial := 0
      locked := false, phyUp := false, inbox := [], stallA := false, stallB := false, stallC := false
      waitFrom := [], creditFrom := [], swap := none, mirror := none }).count Ev.lnkDrop k
    let s2 := { s1 with
      time := { s1.time with announces := s1.time.announces.del k }
      drops := s1.drops ++ ((List.range 8).map (fun st => 32 * st + k)).filter (fun d => !s1.drops.contains d)
      boot := { s1.boot with session := s1.boot.session.filter fun x => x.link != k } }
    if reason = 1 || reason = 9 then s2.enterLink k 1
    else if reason = 10 then s2.enterLink k 0
    else s2.quarantine k reason

/-- Misbehaviour adds to the score of the epoch; past the limit the link drops (R297). -/
def State.misbehave (s : State) (k w : Nat) : State :=
  let s1 := s.modLink k fun l => { l with score := l.score + w }
  if s.boot.rs.misbehaveLimit < (s1.link k).score then s1.dropLink k 7 else s1

/-- RETRAINING keeps the session, the retry buffer, the credits and every record (R272). Log entry 62 (DEDUCED). -/
def State.retrain (s : State) (k : Nat) : State :=
  ((s.enterLink k 5).modLink k fun l => { l with locked := false, goodRun := 0, badRun := 0, phyUp := false }).count
    Ev.lnkRetrain k

/-! ## Retry (R262) -/

/-- Frames that an ack covers are freed. -/
def State.takeAck (s : State) (k : Nat) (ack : BitVec 12) : State :=
  let m := (s.link k).sess
  if m.held.any (·.fseq == ack) then
    let rest := (m.held.dropWhile (·.fseq != ack)).drop 1
    s.modSess k fun m => { m with held := rest, replays := 0, heldAt := s.now
                                  resend := m.resend.filter fun r => rest.contains r }
  else s

/-- Every held frame is sent again; after four replays with no progress the link retrains. Log entry 62 (DEDUCED). -/
def State.replay (s : State) (k : Nat) : State :=
  let m := (s.link k).sess
  if m.held.isEmpty then s
  else if 4 ≤ m.replays then s.retrain k
  else
    (s.modSess k fun m => { m with resend := m.held, replays := m.replays + 1, heldAt := s.now }).count Ev.lnkReplay k

/-- NAK state: a NAK is sent on entry, and then every 2 us. -/
def State.enterNak (s : State) (k : Nat) : State :=
  if (s.link k).sess.nak || (s.link k).st != 4 then s
  else s.modSess k fun m => { m with nak := true, nakAt := s.now, ctrl := m.ctrl ++ [(3, [])] }

/-! ## Credits (R263, R264) -/

/-- Stall drain of a class. -/
def Link.stalled (l : Link) : Cls → Bool
  | .a => l.stallA
  | .b => l.stallB
  | .c => l.stallC
def Link.setStall (l : Link) (k : Cls) (on : Bool) : Link :=
  match k with
  | .a => { l with stallA := on }
  | .b => { l with stallB := on }
  | .c => { l with stallC := on }

def reqVc (k : Cls) : Nat := 2 * clsNum k
/-- Request records of a class. -/
def Sess.recCount (m : Sess) (k : Cls) : Nat := (m.recs.filter (·.cls == k)).length
def Sess.avail (m : Sess) (v : Nat) : Nat := ((m.vc v).limit - (m.vc v).sent).toNat

/-- Stall drain ends with credit on the request VC and a free reservation (R275). -/
def Link.unstall (l : Link) (k : Cls) : Link :=
  if l.stalled k && decide (0 < l.sess.avail (reqVc k)) && decide (l.sess.recCount k < vcBuffer (reqVc k))
  then l.setStall k false else l

/-- A request of a class that holds its reservation waits for credit (R275). -/
def Sess.creditWait (m : Sess) (k : Cls) : Bool := !(m.vc (reqVc k)).tx.isEmpty && m.avail (reqVc k) == 0

/-- Since when the reserved requests of a class wait for credit. -/
def Link.noteCredit (l : Link) (now : Nat) (k : Cls) : Link :=
  { l with creditFrom :=
      if !l.sess.creditWait k then l.creditFrom.del (clsNum k)
      else if (l.creditFrom.find (clsNum k)).isSome then l.creditFrom
      else l.creditFrom.put (clsNum k) now }

/-- A returned credit value is taken, or ignored and counted. -/
def State.takeCredit (s : State) (k v : Nat) (ret : BitVec 12) : State :=
  let c := (s.link k).sess.vc v
  if !(s.link k).live then s
  else if c.init < ret - c.sent then (s.count Ev.lnkCreditBad k).misbehave k 16
  else if ret - c.limit ≤ c.init then
    s.modLink k fun l =>
      ([.a, .b, .c] : List Cls).foldl (fun l g => (l.unstall g).noteCredit s.now g)
        { l with sess := l.sess.setVc v { c with limit := ret } }
  else s

/-- Flits leave the receive buffer of a VC: their credits return (R263). -/
def State.freeFlits (s : State) (k v n : Nat) : State :=
  s.modSess k fun m =>
    let c := m.vc v
    { (m.setVc v { c with rx := c.rx.drop n, freed := c.freed + BitVec.ofNat 12 n }) with
      aMarks := if v = 0 then m.aMarks.drop 1 else m.aMarks
      credits := if m.credits.contains v then m.credits else m.credits ++ [v] }

/-! ## Receiving (R251, R270) -/

/-- The epochs of frames are compared (R270). -/
def State.noteEpoch (s : State) (k : Nat) (ep : BitVec 3) : State :=
  let d := (BitVec.ofNat 3 s.epoch - ep).toNat
  if d = 0 || d = 1 || d = 7 then s
  else
    let s1 := s.modLink k fun l => { l with apart := true, apartSeen := true, apartCounted := true }
    if (s.link k).apartCounted then s1 else s1.count Ev.lnkEpochApart k

/-- Frame lock: taken after four frames that pass, lost after eight that fail (R251). Log entry 59 (DEDUCED). -/
def Link.lockStep (l : Link) (good : Bool) (now : Nat) : Link :=
  if good then
    let take := !l.locked && decide (4 ≤ l.goodRun + 1)
    { l with goodRun := l.goodRun + 1, badRun := 0, locked := l.locked || take
             lockAt := if take then now else l.lockAt }
  else { l with goodRun := 0, badRun := l.badRun + 1, locked := l.locked && decide (l.badRun + 1 < 8) }

/-! ## Sending (R255, R257, R266) -/

/-- The slot area and header of a frame under the session, or with a zero tag outside one. -/
def Link.sealFrame (l : Link) (ep ftype mask slotVc : Nat) (fseq ack : BitVec 12) (credit : Option (Nat × BitVec 12))
    (body : List Byte) (tagged : Bool) : List Byte :=
  let m := l.sess
  let b := slice body 0 320
  let cr := match credit with
    | some (v, c) => c.toNat + v * 2 ^ 12 + 2 ^ 15
    | none => 0
  let enc := tagged && m.enc
  let head := leBytes 2 (ftype + 2 ^ 4 + ep % 8 * 2 ^ 8 + (if enc then 2 ^ 11 else 0) + mask * 2 ^ 12) ++
    leBytes 2 fseq.toNat ++ leBytes 2 ack.toNat ++ leBytes 2 cr ++ leBytes 2 slotVc ++
    leBytes 2 (if tagged then m.txcTx.toNat % 65536 else 0)
  let n := frameNonce m.sTx m.txcTx
  let r := if !tagged then (b, List.replicate 16 0)
    else if enc then gcmSeal m.kTx n head b
    else (b, (gcmSeal m.kTx n (head ++ b) []).2)
  head ++ leBytes 4 (crc32c (head ++ r.1 ++ r.2)) ++ r.1 ++ r.2

/-- The value that a VC returns: its buffer and the flits that have left it (R263). -/
def Sess.returned (m : Sess) (v : Nat) : BitVec 12 := BitVec.ofNat 12 (vcBuffer v) + (m.vc v).freed

/-- A frame goes out, unless the die has tripped (R40): in a session it takes the next txc. -/
def State.transmit (s : State) (k ftype mask slotVc : Nat) (fseq : BitVec 12) (credit : Option (Nat × BitVec 12))
    (body : List Byte) : State :=
  if s.pace.tripped then s
  else s.modLink k fun l =>
    let tagged := l.live && ftype != 4 && ftype != 5
    let ack := if tagged then l.sess.expFseq - 1 else 0
    { l with
      wire := l.sealFrame s.epoch ftype mask slotVc fseq ack credit body tagged
      txData := if ftype = 1 then l.txData + 1 else l.txData
      sess := if l.live then { l.sess with txcTx := l.sess.txcTx + 1 } else l.sess }

/-- A RESULT that goes out has been sent (R290). -/
def State.resultGone (s : State) (k t : Nat) (b : List Byte) : State :=
  if t = 5 && field b 0 1 = 3 then s.modLink k fun l => { l with adm := { l.adm with resultOut := true } } else s

/-- A DATA frame with up to four flits, returning the credit that changed longest ago. -/
def State.sendData (s : State) (k : Nat) (r : RetryFrame) : State :=
  let m := (s.link k).sess
  let n := r.slots.length
  let slotVc := ((List.range n).map fun i => ((r.slots.map (·.1)).getD i 0) * 8 ^ i).sum
  let credit := m.credits.head?.map fun v => (v, m.returned v)
  let s1 := s.transmit k 1 (2 ^ n - 1) slotVc r.fseq credit (r.slots.flatMap fun e => e.2.bytes)
  s1.modSess k fun m => { m with credits := m.credits.drop 1, sinceIdle := m.sinceIdle + 1 }

/-- An IDLE frame returns the credits of all eight VCs. -/
def State.sendIdle (s : State) (k : Nat) : State :=
  let m := (s.link k).sess
  let s1 := s.transmit k 2 0 0 0 none ((List.range 8).flatMap fun v => leBytes 2 (m.returned v).toNat)
  s1.modSess k fun m => { m with credits := [], sinceIdle := 0 }

/-- A flit of a VC may be placed now. -/
def Sess.canSend (m : Sess) (v : Nat) : Bool := !(m.vc v).tx.isEmpty && decide (1 ≤ m.avail v)

/-- The order in which the slots of a frame are filled (R266). -/
def fillOrder (fseq : BitVec 12) (mgmtDue : Bool) : List Nat :=
  [6, 1, 0] ++ (if mgmtDue then [7] else []) ++
  (if fseq.toNat % 2 = 1 then [3, 2, 5, 4] else [5, 4, 3, 2]) ++ [7]

/-- The oldest MGMT flit has waited through four frames. -/
def Sess.mgmtDue (m : Sess) : Bool := m.mgmtAt.head?.any fun t => decide (4 ≤ (m.txcTx - t).toNat)

/-- The VC that the next slot goes to. -/
def Sess.slotPick (m : Sess) : Option Nat := (fillOrder m.nextFseq m.mgmtDue).find? m.canSend

/-- Fills up to n slots. -/
def Sess.fillSlots : Nat → Sess → List (Nat × LFlit) → Sess × List (Nat × LFlit)
  | 0, m, acc => (m, acc)
  | n + 1, m, acc =>
    match m.slotPick with
    | none => (m, acc)
    | some v =>
      let c := m.vc v
      match c.tx with
      | [] => (m, acc)
      | f :: r =>
        let m1 := m.setVc v { c with tx := r, sent := c.sent + 1 }
        Sess.fillSlots n { m1 with mgmtAt := if v = 7 then m.mgmtAt.drop 1 else m.mgmtAt } (acc ++ [(v, f)])

/-- The oldest request of a class has moved on: the wait of the next one is its own. -/
def Link.sentFrom (l : Link) (before : Sess) (now : Nat) (k : Cls) : Link :=
  if (before.vc (reqVc k)).sent == (l.sess.vc (reqVc k)).sent then l
  else { l with creditFrom := l.creditFrom.del (clsNum k) }.noteCredit now k

/-- A new DATA frame, if a flit may go and the retry buffer has room (R262). -/
def State.buildData (s : State) (k : Nat) : Option State :=
  let m := (s.link k).sess
  if 512 ≤ m.held.length then none
  else
    let r := m.fillSlots 4 []
    if r.2.isEmpty then none
    else
      let fr : RetryFrame := { fseq := m.nextFseq, slots := r.2 }
      let m1 := { r.1 with
        nextFseq := m.nextFseq + 1, held := m.held ++ [fr], heldAt := if m.held.isEmpty then s.now else m.heldAt }
      let s1 := s.modLink k fun l => ([.a, .b, .c] : List Cls).foldl (·.sentFrom m s.now ·) { l with sess := m1 }
      some (s1.sendData k fr)

/-- The frame that an UP port sends: an IDLE due, control, a replayed frame, new DATA, or an IDLE. -/
def State.upFrame (s : State) (k : Nat) : State :=
  let m := (s.link k).sess
  if 63 ≤ m.sinceIdle then s.sendIdle k
  else
    match m.ctrl with
    | (t, b) :: r =>
      ((s.modSess k fun m => { m with ctrl := r, sinceIdle := m.sinceIdle + 1 }).transmit k t 0 0 0 none b).resultGone k t b
    | [] =>
      match m.resend with
      | fr :: r => (s.modSess k fun m => { m with resend := r }).sendData k fr
      | [] => (s.buildData k).getD (s.sendIdle k)

/-! ## Timers of retry -/

/-- In NAK state another NAK is sent 2 us after the last. -/
def execNakResend (link : Nat) (s : State) : Out :=
  let l := s.link link
  if l.st != 4 || !l.sess.nak || s.pace.tripped then .next s
  else
    let s1 := s.advanceTo (l.sess.nakAt + 2000)
    .next (s1.modSess link fun m => { m with nakAt := s1.now, ctrl := m.ctrl ++ [(3, [])] })

/-- The oldest held frame stays unacknowledged for 4 us. -/
def execReplayTimeout (link : Nat) (s : State) : Out :=
  let l := s.link link
  if l.st != 4 || l.sess.held.isEmpty then .next s
  else .next ((s.advanceTo (l.sess.heldAt + 4000)).replay link)

/-! ## Lanes (R252 to R254) -/

/-- Physical lane of logical lane i in a lane map. -/
def laneAt (m : BitVec 12) (i : Nat) : Nat := bits m.toNat (3 * i) 3
def laneIn (m : BitVec 12) (l : Nat) : Bool := (List.range 4).any fun i => laneAt m i == l
/-- Lane sp takes the place of lane l. -/
def laneSwap (m : BitVec 12) (l sp : Nat) : BitVec 12 :=
  BitVec.ofNat 12 ((List.range 4).map (fun i => (if laneAt m i = l then sp else laneAt m i) * 8 ^ i)).sum

/-- The idle spare of a direction, if it has one: a lane that carries nothing and is in service.  It is lane 4 until a
graft returns another lane (R252, R360). Log entry 68 (DEDUCED). -/
def spareLane (map : BitVec 12) (out : BitVec 5) : Option Nat :=
  (List.range 5).find? fun p => !laneIn map p && !out.getLsbD p
/-- Log entry 68 (DEDUCED). -/
def Link.rxSpareLane (l : Link) : Option Nat := (spareLane l.rxMap l.rxOut).filter fun p => l.rxTest != some p
/-- Log entry 68 (DEDUCED). -/
def Link.txSpareLane (l : Link) : Option Nat := spareLane l.txMap l.txOut

/-- The spare is idle, and no swap of its direction is in progress. -/
def Link.rxSpare (l : Link) : Bool := l.rxSpareLane.isSome && l.swap.isNone
def Link.txSpare (l : Link) : Bool := l.txSpareLane.isSome && l.mirror.isNone

def laneBody (cmd lane errors : Nat) : List Byte := leBytes 1 cmd ++ leBytes 1 lane ++ [0, 0] ++ leBytes 4 errors

/-- A control frame waits to be sent. -/
def State.sendCtrl (s : State) (k ftype : Nat) (body : List Byte) : State :=
  s.modSess k fun m => { m with ctrl := m.ctrl ++ [(ftype, body)] }

/-- Corrected symbols of a receive lane in this epoch; past lane_degrade the swap to the spare begins. -/
def execLaneDegrade (link : Nat) (lane : Nat) (ce : Nat) (s : State) : Out :=
  let l := s.link link
  if !l.live then .next s
  else
    let s1 := s.modLink link fun l => { l with laneCe := l.laneCe.put lane ce }
    if s.boot.rs.laneDegrade < ce && laneIn l.rxMap lane && l.rxSpare then
      .next ((s1.modLink link fun l => { l with swap := some lane }).sendCtrl link 6 (laneBody 1 lane 0))
    else .next s1

/-- The spare replaces a receive lane, which goes out of service. -/
def Link.rxReplace (l : Link) (lane : Nat) : Link :=
  { l with rxMap := laneSwap l.rxMap lane (l.rxSpareLane.getD 4), rxOut := l.rxOut ||| (1#5 <<< lane), swap := none }

/-- The spare replaces a transmit lane, which goes out of service. -/
def Link.txReplace (l : Link) (lane : Nat) : Link :=
  { l with txMap := laneSwap l.txMap lane (l.txSpareLane.getD 4), txOut := l.txOut ||| (1#5 <<< lane), mirror := none }

/-- A lane is lost, one of our receive lanes or one of our transmit lanes at the partner's receiver: the link retrains
onto the spare of that direction, or drops with NO_LANE. Log entry 68 (DEDUCED). -/
def execLaneLoss (link : Nat) (lane : LaneEnd) (s : State) : Out :=
  let l := s.link link
  if !l.live || !laneIn (if lane.tx then l.txMap else l.rxMap) lane.lane then .next s
  else if lane.tx then
    if { l with mirror := none }.txSpare then .next ((s.modLink link fun l => l.txReplace lane.lane).retrain link)
    else .next (s.dropLink link 4)
  else if { l with swap := none }.rxSpare then
    .next (((s.modLink link fun l => l.rxReplace lane.lane).count Ev.lnkLaneSwap link).retrain link)
  else .next (s.dropLink link 4)

/-- Takes the first control frame of the inbox that passes a test on its type and body. -/
def State.popInbox (s : State) (k : Nat) (p : Nat → List Byte → Bool) : Option (List Byte × State) :=
  let test (b : List Byte) : Bool := match b with
    | t :: r => p t.toNat r
    | [] => false
  ((s.link k).inbox.find? test).map fun b =>
    (b.drop 1, s.modLink k fun l => { l with inbox := l.inbox.erase b })

def State.popLane (s : State) (k cmd : Nat) : Option (Nat × Nat × State) :=
  (s.popInbox k fun t b => t == 6 && field b 0 1 == cmd).map fun r => (field r.1 1 1, field r.1 4 4, r.2)

/-- MIRROR: the transmitter copies lane l onto the spare and answers, or refuses while its spare is in use. -/
def execLaneMirror (link : Nat) (s : State) : Out :=
  match s.popLane link 1 with
  | none => .next s
  | some (lane, _, s1) =>
    let l := s1.link link
    if l.txSpare && laneIn l.txMap lane then
      .next ((s1.modLink link fun l => { l with mirror := some lane }).sendCtrl link 6 (laneBody 2 lane 0))
    else .next (s1.sendCtrl link 6 (laneBody 6 lane 0))

/-- MIRROR_ON: the receiver takes the spare at the next marker and says so. -/
def execLaneMirrorOn (link : Nat) (s : State) : Out :=
  match s.popLane link 2 with
  | none => .next s
  | some (lane, _, s1) =>
    if (s1.link link).swap == some lane then
      .next (((s1.modLink link fun l => l.rxReplace lane).count Ev.lnkLaneSwap link).sendCtrl link 6 (laneBody 3 lane 0))
    else .next s1

/-- SWITCHED: the transmitter sends PRBS31 on the replaced lane. -/
def execLaneSwitched (link : Nat) (s : State) : Out :=
  match s.popLane link 3 with
  | none => .next s
  | some (lane, _, s1) =>
    if (s1.link link).mirror == some lane then
      .next (s1.modLink link fun l => l.txReplace lane)
    else .next s1

/-- TEST: PRBS31 for 1 s on a lane out of service; an active lane is refused. -/
def execLaneTest (link : Nat) (s : State) : Out :=
  match s.popLane link 4 with
  | none => .next s
  | some (lane, _, s1) =>
    if laneIn (s1.link link).txMap lane then .next (s1.sendCtrl link 6 (laneBody 6 lane 0))
    else .next (s1.modLink link fun l => { l with txTest := some lane })

/-- TEST_RESULT: the bit errors that the partner counted on our lane. -/
def execLaneTestResult (link : Nat) (s : State) : Out :=
  match s.popLane link 5 with
  | none => .next s
  | some (lane, errs, s1) =>
    .next (s1.modLink link fun l => { l with
      txTest := none, testErrors := l.testErrors.put lane (BitVec.ofNat 32 errs) })

/-- REFUSE: the swap or the test of that lane does not take place. -/
def execLaneRefuse (link : Nat) (s : State) : Out :=
  match s.popLane link 6 with
  | none => .next s
  | some (lane, _, s1) =>
    .next (s1.modLink link fun l => { l with
      swap := if l.swap == some lane then none else l.swap
      rxTest := if l.rxTest == some lane then none else l.rxTest })

/-! ## The state machine (R271, R273) -/

/-- Start has come to the links, and has not failed (Table 15-11, R340). -/
def State.trains (s : State) : Bool := s.alive && decide (6 ≤ s.boot.step.toNat) && s.boot.reason == 0

/-- An ABSENT link detects signal. -/
def execSignalDetect (link : Nat) (s : State) : Out :=
  if (s.link link).st = 1 && s.trains then
    .next ((s.enterLink link 2).modLink link fun l => { l with
      locked := false, goodRun := 0, badRun := 0, phyUp := false, train := none, gotSeen := false, sentSeen := false })
  else .next s

/-- Receive signal is lost: TRAINING goes back to ABSENT, a session drops. Log entry 67 (DEDUCED). -/
def execSignalLoss (link : Nat) (s : State) : Out :=
  if (s.link link).st = 2 then .next (s.enterLink link 1) else .next (s.dropLink link 1)

/-- PHY training or retraining is complete. -/
def execPhyTrainingDone (link : Nat) (s : State) : Out :=
  let l := s.link link
  if l.st = 2 || l.st = 5 then .next (s.modLink link fun l => { l with phyUp := true }) else .next s

/-- The body of a TRAIN frame (Table 11-9). -/
def State.trainBody (s : State) (k : Nat) : List Byte :=
  let rs := s.boot.rs
  leBytes 3 rs.node ++ leBytes 1 k ++ leBytes 2 rs.set ++ leBytes 2 rs.compatLo ++ leBytes 2 rs.compatHi ++
  [if rs.encrypt.getLsbD k then 1 else 0, if (s.link k).train.isSome then 1 else 0] ++
  (List.range 8).flatMap fun v => leBytes 2 (vcBuffer v)

/-- A TRAIN body is well formed (Table 11-9, R273). -/
def trainBodyOk (b : List Byte) : Bool :=
  decide (field b 0 3 < 2 ^ 18) && decide (field b 3 1 < 32) && decide (field b 10 1 < 2) && decide (field b 11 1 < 2) &&
  (List.range 8).all (fun v => decide (1 ≤ field b (12 + 2 * v) 2) && decide (field b (12 + 2 * v) 2 ≤ 2047)) &&
  zeroBytes b 28 292

/-- Frame lock not within 1 s, or the TRAIN exchange not within 10 ms of it. -/
def execTrainingTimeout (link : Nat) (s : State) : Out :=
  let l := s.link link
  if l.st != 2 then .next s
  else .next ((s.advanceTo (if l.locked then l.lockAt + 10000000 else l.since + 1000000000)).quarantine link 2)

/-- RETRAINING that lasts 5 ms drops the link. -/
def execRetrainTimeout (link : Nat) (s : State) : Out :=
  let l := s.link link
  if l.st != 5 then .next s else .next ((s.advanceTo (l.since + 5000000)).dropLink link 2)

/-- A DOWN frame of the partner. -/
def execLinkDown (link : Nat) (s : State) : Out :=
  match s.popInbox link fun t _ => t == 7 with
  | none => .next s
  | some (_, s1) => .next (s1.dropLink link 9)

/-! ## What a link does at an epoch boundary -/

/-- Scores, tag failures and lane counts start again; apart clears after a whole epoch without such a frame
(R251, R258, R270, R297). -/
def State.linkBoundary (s : State) (k : Nat) : State :=
  s.modLink k fun l => { l with
    lastScore := l.score, score := 0, tagFails := 0
    worstCe := BitVec.ofNat 32 ((l.laneCe.map (·.2)).foldl max 0), laneCe := []
    apart := l.apart && l.apartSeen, apartSeen := false, apartCounted := false }

/-- A quarantined link's backoff is over (R298); a pruned link waits for a graft, and a failed start trains none (R340). -/
def execQuarantineBackoffEnd (link : Nat) (s : State) : Out :=
  let l := s.link link
  if l.st != 6 || l.pruned || !s.trains then .next s
  else
    .next (((s.advanceTo l.backoffEnd).enterLink link 2).modLink link fun l => { l with
      locked := false, goodRun := 0, badRun := 0, phyUp := false, train := none, gotSeen := false, sentSeen := false })

/-- Whole epochs that a link has held its state. -/
def State.epochsHeld (s : State) (k : Nat) : Nat := s.now / 2 ^ 20 - ((s.link k).since + (2 ^ 20 - 1)) / 2 ^ 20

/-- After 1,024 consecutive epochs UP, n returns to 0 (R298). Log entry 117 (DEDUCED). -/
def execQuarantineCountReset (link : Nat) (s : State) : Out :=
  let l := s.link link
  if l.st = 4 && decide (1024 ≤ s.epochsHeld link) then .next (s.modLink link fun l => { l with n := 0 }) else .next s

end Sys2Proof.Machine
end

