-- ==== Sys2Proof/Machine/Admit.lean ====
section
/-! DEFINITION. Admission (chapter 12): certificates (R286, R287), the exchange of HELLO, PROVE and RESULT (R288 to
R293). -/

namespace Sys2Proof.Machine

/-! ## Certificates (Tables 12-2 and 12-3) -/

def certKind (c : List Byte) : Nat := field c 1 1
def certPriv (c : List Byte) : Nat := bits (field c 2 1) 0 2
def certSerial (c : List Byte) : Nat := field c 4 8
def certLo (c : List Byte) : Nat := field c 12 3
def certHi (c : List Byte) : Nat := field c 15 3
def certKey (c : List Byte) : List Byte := slice c 48 97
def certIssuer (c : List Byte) : Nat := field c 152 8
def certSig (c : List Byte) : List Byte := slice c 176 96

/-- The layout of a certificate (R287). -/
def certForm (c : List Byte) : Bool :=
  field c 0 1 == 1 && decide (1 ≤ certKind c) && decide (certKind c ≤ 3) && bits (field c 2 1) 2 6 == 0 &&
  zeroBytes c 3 1 && decide (certLo c < 2 ^ 18) && decide (certHi c < 2 ^ 18) && decide (certLo c ≤ certHi c) &&
  zeroBytes c 18 14 && zeroBytes c 145 7 && zeroBytes c 160 16

/-- Its key is a point of the curve, and r and s lie in range (R287). -/
def certKeys (c : List Byte) : Bool :=
  let r := beNat (slice (certSig c) 0 48)
  let t := beNat (slice (certSig c) 48 48)
  (pointOf (certKey c)).isSome && decide (1 ≤ r) && decide (r < p384Order) && decide (1 ≤ t) && decide (t < p384Order)

def certSignedBy (c key : List Byte) : Bool := ecdsaVerify key (slice c 0 176) (certSig c)

/-- Leaf and intermediate of a chain of 272 or 544 bytes. -/
def chainLeaf (ch : List Byte) : List Byte := slice ch 0 272
def chainInter (ch : List Byte) : Option (List Byte) := if ch.length < 544 then none else some (slice ch 272 272)
def chainCerts (ch : List Byte) : List (List Byte) := chainLeaf ch :: (chainInter ch).toList

/-- The chain ends at the authority; kinds of leaf and intermediate (Table 12-8, CHAIN). -/
def chainOk (ch auth : List Byte) (leafKinds : List Nat) : Bool :=
  let leaf := chainLeaf ch
  (chainCerts ch).all certKeys && leafKinds.contains (certKind leaf) &&
  (match chainInter ch with
   | none => certIssuer leaf == 0 && certSignedBy leaf auth
   | some i =>
     certKind i == 3 && certIssuer i == 0 && certSignedBy i auth &&
     (if certIssuer leaf = 0 then certSignedBy leaf auth
      else certIssuer leaf == certSerial i && certSignedBy leaf (certKey i)))

/-! ## Own identity (R284, R285) -/

/-- A private number of the key store in the range of the curve's order. -/
def scalar (n : Nat) : Nat := 1 + n % (p384Order - 1)
def ownKey : Nat := scalar Config.identityKey

/-- What the identity memory on the module's two-wire bus holds, fixed at manufacture: subject_id, the public key, serial
and build date (R284).  No command reads it; an orchard authority does before the module is used.
Log entry 9 (DESIGN CHOICE). -/
def identityMemory : List Byte := Config.subjectId.take 16 ++ publicKey ownKey ++ Config.moduleRecord

/-- The chain in force names this module's key and verifies. -/
def State.identityOk (s : State) : Bool :=
  let ch := s.boot.rs.chain
  certKey (chainLeaf ch) == publicKey ownKey && (chainCerts ch).all certForm &&
  chainOk ch s.boot.rs.authority [1, 2]

/-! ## Admission messages (Tables 12-5 and 12-6) -/

/-- Bodies of the ADMIT frames of a message. -/
def admitBodies (msg : Nat) (b : List Byte) : List (List Byte) :=
  let n := (b.length + 311) / 312
  (List.range n).map fun i =>
    let d := (b.drop (312 * i)).take 312
    leBytes 1 msg ++ leBytes 1 i ++ leBytes 1 n ++ [0] ++ leBytes 2 d.length ++ [0, 0] ++ slice d 0 312

/-- A message waits to be sent, every fragment, behind what is unsent of an earlier message. Log entry 69 (DESIGN CHOICE). -/
def State.sendAdmit (s : State) (k msg : Nat) (b : List Byte) : State :=
  s.modLink k fun l => { l with
    adm := { l.adm with sent := b, sentMsg := msg, sentAt := s.now }
    sess := { l.sess with ctrl := l.sess.ctrl.filter (fun c => !(c.1 == 5 && field c.2 0 1 == msg)) ++
      (admitBodies msg b).map fun d => (5, d) } }

/-- Admission fails: RESULT with the code and no tag, unless one was sent; then QUARANTINED with reason ADMIT.
Log entry 69 (DESIGN CHOICE). -/
def State.admitFail (s : State) (k code : Nat) : State :=
  let res := leBytes 1 1 ++ leBytes 1 code ++ List.replicate 62 (0 : Byte)
  let s1 := if (s.link k).adm.resultOut then s
    else s.transmit k 5 0 0 0 none ((admitBodies 3 res).headD [])
  ((s1.modLink k fun l => { l with lastCode := BitVec.ofNat 4 code }).count Ev.admFail k).quarantine k 6

/-! ## Entry (R273, R285, R293) -/

/-- Both ends have seen each other: the link enters ADMITTING and waits for the engine, or fails at once with SELF when
this module's own identity is not usable (R285, R290). -/
def State.trainDone (s : State) (k : Nat) : State :=
  let l := s.link k
  if l.st = 2 && l.gotSeen && l.sentSeen then
    let s1 := (s.enterLink k 3).modLink k fun l => { l with adm := {}, sess := l.noSess }
    if s1.boot.ownOk then { s1 with admitQueue := s1.admitQueue ++ [k] } else s1.admitFail k 10
  else s

/-- Every 1 us in TRAINING a TRAIN frame goes out. -/
def execTrainFrameTimer (link : Nat) (s : State) : Out :=
  let l := s.link link
  if l.st != 2 || !l.phyUp || s.pace.tripped then .next s
  else
    let s1 := s.transmit link 4 0 0 0 none (s.trainBody link)
    .next ((s1.modLink link fun l => { l with sentSeen := l.sentSeen || l.train.isSome }).trainDone link)

/-- A TRAIN frame of the partner: its set must lie in our range. -/
def execTrain (link : Nat) (s : State) : Out :=
  match s.popInbox link fun t _ => t == 4 with
  | none => .next s
  | some (b, s1) =>
    let set := field b 4 2
    if (s1.link link).st != 2 then .next s1
    else if set < s.boot.rs.compatLo || s.boot.rs.compatHi < set then .next (s1.quarantine link 5)
    else
      let t : TrainInfo := { node := BitVec.ofNat 18 (field b 0 3), port := BitVec.ofNat 5 (field b 3 1)
                             set := BitVec.ofNat 16 set, enc := field b 10 1 == 1
                             init := (List.range 8).map fun v => BitVec.ofNat 12 (field b (12 + 2 * v) 2) }
      .next ((s1.modLink link fun l => { l with train := some t, gotSeen := l.gotSeen || field b 11 1 == 1 }).trainDone link)

/-! ## HELLO -/

/-- HELLO of this module on a link. -/
def State.helloMsg (s : State) (k : Nat) (nonce eph : List Byte) : List Byte :=
  let ch := s.boot.rs.chain
  [1, if ch.length < 544 then 1 else 2] ++ leBytes 3 s.boot.rs.node ++ leBytes 1 k ++ [0, 0] ++ nonce ++ eph ++
  List.replicate 39 0 ++ chainLeaf ch ++ (chainInter ch).getD []

/-- The engine takes the next port: nonce and ephemeral key are drawn and HELLO is sent (R293). -/
def execAdmitEngineStart (s : State) : Out :=
  match s.admitQueue with
  | [] => .next s
  | k :: rest =>
    let s1 := { s with admitQueue := rest }
    if (s1.link k).st != 3 then .next s1
    else
      let nonce := beBytes 32 (Config.random s.free % 2 ^ 256)
      let eph := scalar (Config.random (s.free + 1))
      let h := s1.helloMsg k nonce (publicKey eph)
      let s2 := { s1 with free := s.free + 3 }.modLink k fun l => { l with
        adm := { l.adm with stage := 1, nonce := nonce, eph := some (s.free + 1), hello := h } }
      .next (s2.sendAdmit k 1 h)

/-! ## Checks (Table 12-8) -/

/-- The whole message number n of the partner, if every fragment is in. -/
def Admit.message (a : Admit) (n : Nat) : Option (List Byte) :=
  match a.frags.find n with
  | none => none
  | some f => if f.parts.length = f.nfrag then some (f.parts.map (·.2)).flatten else none

/-- Node of the bay at the far end of a mesh link (R23). -/
def meshNode (node k : Nat) : Nat := node / 8 * 8 + (k + node % 8 + 1) % 8

/-- The checks of a partner HELLO, in order; the code of the first that fails. -/
def State.helloCode (s : State) (k : Nat) (b : List Byte) : Option Nat :=
  let l := s.link k
  let a := l.adm
  let node := field b 2 3
  let ncert := field b 1 1
  let ch := b.drop 176
  let eph := slice b 40 97
  let own := slice a.hello 40 97
  if !(field b 0 1 == 1 && (ncert == 1 || ncert == 2) && b.length == 176 + 272 * ncert && decide (node < 2 ^ 18) &&
      decide (field b 5 1 < 24) && zeroBytes b 6 2 && zeroBytes b 137 39 && (chainCerts ch).all certForm &&
      (l.train.map (·.node.toNat)) == some node) then some 1
  else if slice b 8 32 == a.nonce || eph == own || (pointOf eph).isNone then some 11
  else if !chainOk ch s.boot.rs.authority [1, 2] then some 2
  else if (chainCerts ch).any fun c => s.boot.rs.revoked.contains (BitVec.ofNat 64 (certSerial c)) then some 4
  else if (chainCerts ch).any (fun c => decide (node < certLo c) || decide (certHi c < node)) ||
      node == s.boot.rs.node || (decide (k < 7) && node != meshNode s.boot.rs.node k) then some 5
  else none

def label (t : String) : List Byte := asciiBytes t

/-- The key schedule and PROVE, once the partner's HELLO has passed; the ephemeral private key is erased (R289). -/
def State.prove (s : State) (k : Nat) (b : List Byte) : State :=
  let a := (s.link k).adm
  let low := decide (beNat a.nonce < beNat (slice b 8 32))
  let h := sha384 (label "OBPEL ADMIT 1" ++ (if low then a.hello ++ b else b ++ a.hello))
  let e := a.eph.getD 0
  let z := ecdh (scalar (Config.random e)) (slice b 40 97)
  let out (t : String) (n : Nat) : List Byte := hkdf h z (label t) n
  let lh := out "obpel k lh" 32
  let hl := out "obpel k hl" 32
  let slh := out "obpel s lh" 4
  let shl := out "obpel s hl" 4
  let cl := out "obpel c low" 48
  let chi := out "obpel c high" 48
  let side : Byte := if low then 0 else 1
  let leaf := chainLeaf (b.drop 176)
  let priv := ((chainCerts (b.drop 176)).map certPriv).foldl min (bits s.boot.rs.ceilings.toNat (2 * k) 2)
  let own := if low then cl else chi
  let sig := ecdsaSign ownKey (scalar (Config.random (e + 1))) (h ++ [side])
  let msg := [1, side] ++ List.replicate 6 0 ++ sig ++ (hmac own h).take 16
  (s.modLink k fun l => { l with adm := { a with
    stage := 2, eph := none, low := low, h := h, cOwn := own, cPeer := if low then chi else cl
    kTx := if low then lh else hl, kRx := if low then hl else lh
    sTx := if low then slh else shl, sRx := if low then shl else slh
    serial := BitVec.ofNat 64 (certSerial leaf), key := certKey leaf, grant := BitVec.ofNat 2 priv } }).sendAdmit k 2 msg

/-- The partner's assembled HELLO is checked. -/
def execAdmitHello (link : Nat) (s : State) : Out :=
  let l := s.link link
  if l.st != 3 || l.adm.stage != 1 then .next s
  else
    match l.adm.message 1 with
    | none => .next s
    | some b =>
      match s.helloCode link b with
      | some code => .next (s.admitFail link code)
      | none => .next (s.prove link b)

/-- A burst's commit is written into the burst record (R277, R279). Log entry 63 (DEDUCED). -/
def BurstRec.advance : Nat → BurstRec → BurstRec
  | 0, r => r
  | n + 1, r =>
    if r.bitmap.getLsbD 0 then BurstRec.advance n { r with bitmap := r.bitmap >>> 1, committed := r.committed + 1 } else r

/-- Log entry 63 (DEDUCED). -/
def BurstRec.note (r : BurstRec) (bseq : BitVec 12) (good : Bool) : BurstRec :=
  let d := (bseq - (r.committed + 1)).toNat
  let r1 := { r with out := r.out.filter (· != bseq)
                     refused := if good then r.refused.filter (· != bseq) else bseq :: r.refused.filter (· != bseq) }
  if good && decide (d < 64) then BurstRec.advance 64 { r1 with bitmap := r1.bitmap ||| (1#64 <<< d) } else r1

/-- At re-admission each controller reports the txn of the link's last committed burst, which may be one whose
acknowledgement has not come back yet (R222, R279). -/
def State.takeCommits (s : State) (k : Nat) : State :=
  (List.range 8).foldl (fun s n =>
    match (s.stack n).commits.find (edgeAddr (linkStop k)).toNat with
    | some t => s.modLink k fun l => if l.brec.out.contains t then { l with brec := l.brec.note t true } else l
    | none => s) s

/-- The burst record belongs to the partner that is being admitted (R292). Log entry 63 (DEDUCED). -/
def Link.recordValid (l : Link) : Bool := l.brec.key == l.adm.key && l.brec.serial == l.adm.serial && !l.adm.key.isEmpty

/-- Bytes 0 to 15 of RESULT. -/
def Link.resultHead (l : Link) (code : Nat) : List Byte :=
  let v := l.recordValid
  leBytes 1 1 ++ leBytes 1 code ++ leBytes 1 (l.adm.grant.toNat + (if v then 4 else 0)) ++ [0] ++
  leBytes 2 (if v then l.brec.committed.toNat else 0) ++ [0, 0] ++ leBytes 8 (if v then l.brec.bitmap.toNat else 0)

/-- The code of the first check of PROVE that fails. -/
def Admit.proveCode (a : Admit) (b : List Byte) : Option Nat :=
  let side : Byte := if a.low then 1 else 0
  if !(b.length == 120 && field b 0 1 == 1 && slice b 1 1 == [side] && zeroBytes b 2 6) then some 1
  else if !ecdsaVerify a.key (a.h ++ [side]) (slice b 8 96) then some 6
  else if slice b 104 16 != (hmac a.cPeer a.h).take 16 then some 7
  else if a.grant = 0 then some 8
  else none

/-- The partner's PROVE is checked, and RESULT is sent. -/
def execAdmitProve (link : Nat) (s : State) : Out :=
  let l := s.link link
  if l.st != 3 || l.adm.stage != 2 then .next s
  else
    match l.adm.message 2 with
    | none => .next s
    | some b =>
      match l.adm.proveCode b with
      | some code => .next (s.admitFail link code)
      | none =>
        let s1 := s.takeCommits link
        let head := (s1.link link).resultHead 0
        let msg := head ++ hmac l.adm.cOwn (head ++ l.adm.h)
        .next ((s1.modLink link fun l => { l with adm := { l.adm with stage := 3 } }).sendAdmit link 3 msg)

/-- A link enters UP with the session of its admission (R263, R291). Log entry 63 (DEDUCED). -/
def State.enterUp (s : State) (k : Nat) : State :=
  let l := s.link k
  let a := l.adm
  let t := l.train.getD { node := 0, port := 0, set := 0, enc := false, init := [] }
  let vcs : Vector Vc 8 := Vector.ofFn fun i => { limit := t.init.getD i.val 0, init := t.init.getD i.val 0 }
  let rec0 : BurstRec := if l.recordValid then { l.brec with valid := true, out := [] }
    else { serial := a.serial, key := a.key }
  (s.enterLink k 4).modLink k fun l => { l with
    reason := l.reason, grant := a.grant, partnerNode := t.node, leafSerial := a.serial
    sess := { enc := s.boot.rs.encrypt.getLsbD k || t.enc, kTx := a.kTx, kRx := a.kRx, sTx := a.sTx, sRx := a.sRx
              vcs := vcs, ctrl := l.sess.ctrl, nextTag := l.sess.nextTag, nextIn := l.sess.nextIn }
    brec := rec0, aWindow := 0 }

/-- The layout of RESULT: version, code and reserved fields (Tables 12-6 and 12-8). -/
def resultOk (b : List Byte) : Bool :=
  let code := field b 1 1
  b.length == 64 && field b 0 1 == 1 && decide (code ≤ 12) && code != 3 && bits (field b 2 1) 3 5 == 0 &&
  zeroBytes b 3 1 && bits (field b 4 2) 12 4 == 0 && zeroBytes b 6 2

/-- The partner's RESULT: a malformed one fails the admission; a code other than 0 refuses us; code 0 with a valid tag brings the link UP. -/
def execAdmitResult (link : Nat) (s : State) : Out :=
  let l := s.link link
  if l.st != 3 then .next s
  else
    match l.adm.message 3 with
    | none => .next s
    | some b =>
      if !resultOk b then .next (s.admitFail link 1)
      else if field b 1 1 ≠ 0 then .next (s.admitFail link 12)
      else if l.adm.stage < 2 then .next s
      else if slice b 16 48 != hmac l.adm.cPeer (slice b 0 16 ++ l.adm.h) then .next (s.admitFail link 7)
      else if l.adm.stage = 3 then .next (s.enterUp link)
      else .next s

/-- Every 1 ms a side sends its latest message again, until the partner's message of the next stage is in; RESULT until
the first tagged frame (R288). -/
def execAdmitResend (link : Nat) (s : State) : Out :=
  let l := s.link link
  let due := l.adm.sentMsg != 0 && (l.adm.sentMsg == 3 || (l.adm.message (l.adm.sentMsg + 1)).isNone)
  if (l.st = 3 && due) || (l.st = 4 && l.adm.sentMsg = 3) then
    .next ((s.advanceTo (l.adm.sentAt + 1000000)).sendAdmit link l.adm.sentMsg l.adm.sent)
  else .next s

/-- ADMITTING lasts longer than admit_timeout. Log entry 67 (DEDUCED). -/
def execAdmitTimeout (link : Nat) (s : State) : Out :=
  let l := s.link link
  if l.st != 3 then .next s
  else .next ((s.advanceTo (l.since + 1000000 * s.boot.rs.admitTimeout)).admitFail link 9)

/-! ## Receiving frames (R258, R288) -/

/-- The layout of an ADMIT body (Table 12-5). -/
def admitBodyOk (b : List Byte) : Bool :=
  let n := field b 4 2
  decide (1 ≤ field b 0 1) && decide (field b 0 1 ≤ 3) && decide (1 ≤ field b 2 1) && decide (field b 2 1 ≤ 3) &&
  decide (field b 1 1 < field b 2 1) && zeroBytes b 3 1 && zeroBytes b 6 2 && decide (1 ≤ n) && decide (n ≤ 312) &&
  zeroBytes b (8 + n) (312 - n)

/-- A fragment is kept; one that differs from the one held fails the admission (R288). -/
def State.takeFrag (s : State) (k : Nat) (b : List Byte) : State :=
  let msg := field b 0 1
  let i := field b 1 1
  let d := slice b 8 (field b 4 2)
  let f := (s.link k).adm.frags.at msg { nfrag := field b 2 1 }
  if f.nfrag ≠ field b 2 1 || (f.parts.find i).any (· != d) then s.admitFail k 1
  else s.modLink k fun l => { l with adm := { l.adm with
    frags := l.adm.frags.put msg { f with parts := f.parts.put i d } } }

/-- A malformed frame before UP. -/
def State.badFrame (s : State) (k : Nat) : State := (s.count Ev.lnkMalformed k).misbehave k 4

end Sys2Proof.Machine
end

