-- ==== Sys2Proof/Machine/Port.lean ====
section
/-! DEFINITION. Messages at a link port: what a partner's messages meet (R261, R268, R277, R278, R294 to R296),
outbound requests and their records (R265, R274), stall drain (R275), responses, and the building of frames (R266). -/

namespace Sys2Proof.Machine

/-! ## Filters (Table 12-11) -/

/-- The filter entry of a link in the bank of the port's own epoch (R295). -/
def State.filter (s : State) (k : Nat) : Nat := blkFilter (s.routes s.epoch) k
def fVc (f v : Nat) : Bool := bitAt f v
def fKind (f i : Nat) : Bool := bitAt f (8 + i)
def fHandler (f h : Nat) : Bool := decide (bits f 13 8 ≤ h) && decide (h ≤ bits f 21 8)
def fTransit (f : Nat) : Bool := bitAt f 29
def fBase (f : Nat) : Nat := 4096 * bits f 30 28
def fSize (f : Nat) : Nat := 4096 * bits f 58 28
def fRate (f : Nat) : Nat := bits f 86 8
def fStreams (f : Nat) : Nat := bits f 94 22
/-- n bytes at an address lie in the window. Log entry 108 (DEDUCED). -/
def fWindow (f a n : Nat) : Bool := decide (fBase f ≤ a) && decide (a + n ≤ fBase f + fSize f)

/-! ## Messages in a receive buffer -/

/-- The whole message at the head of a receive buffer. -/
def headMessage : List LFlit → Option (List LFlit)
  | [] => none
  | f :: r => if f.last then some [f] else (headMessage r).map (f :: ·)

def State.vcHead (s : State) (k v : Nat) : Option (List LFlit) := headMessage ((s.link k).sess.vc v).rx

/-- A flit waits to leave on the link. -/
def State.queueFlit (s : State) (k v : Nat) (f : LFlit) : State :=
  s.modSess k fun m =>
    { (m.setVc v { (m.vc v) with tx := (m.vc v).tx ++ [f] }) with
      mgmtAt := if v = 7 then m.mgmtAt ++ [m.txcTx] else m.mgmtAt }

/-- The port answers a partner's request itself. -/
def State.linkAnswer (s : State) (k : Nat) (f : LFlit) (index : BitVec 6) (payload : List Byte) : State :=
  let r : LFlit := { kind := f.kind + 1, cls := f.cls, resp := true, index := index, last := true
                     dst := f.src, src := BitVec.ofNat 18 s.boot.rs.node, hops := BitVec.ofNat 6 s.boot.rs.maxHops
                     txn := f.txn, payload := bytesLine payload }
  s.queueFlit k (2 * clsNum (clsOf f.cls) + 1) r

/-- An error response, or a burst's acknowledgement with a status (R210). -/
def State.linkError (s : State) (k : Nat) (f : LFlit) (status : Byte) : State :=
  s.linkAnswer k f 63 (if f.kind = 8 then leBytes 2 f.txn.toNat ++ [status] else [status])

/-- The port answers a memory request with an error; of a burst it records that it did not commit (R277). -/
def State.burstRefuse (s : State) (k : Nat) (f : LFlit) (status : Byte) : State :=
  (if f.kind = 8 then s.modLink k fun l => { l with brec := l.brec.note f.txn false } else s).linkError k f status

/-- Log entry 70 (DEDUCED). -/
def scionSeq (f : LFlit) : Nat := field (lineBytes f.payload) 4 4
def scionRow (b : List Byte) : Nat := bits (field b 16 8) 18 5
def scionCol (b : List Byte) : Nat := bits (field b 16 8) 23 5

/-- A response of R164 to a scion that the port answers. Log entry 70 (DEDUCED). -/
def State.linkScion (s : State) (k : Nat) (f : LFlit) (code : Nat) : State :=
  let b := lineBytes f.payload
  s.linkAnswer k f 0 (scionAnswer (scionSeq f) code 0 (scionRow b) (scionCol b) s.boot.rs.node)

/-- A refusal by the filter: FILTER for a scion, PRIVILEGE for a memory request (R295). -/
def State.filterRefuse (s : State) (k v : Nat) (msg : List LFlit) (f : LFlit) : State :=
  let s1 := s.freeFlits k v msg.length
  let s2 := if v < 6 then (if f.kind = 0 then s1.linkScion k f 11 else s1.burstRefuse k f 5) else s1
  (s2.count Ev.admFilter k).misbehave k 1

/-- Class A flits counted in the window that chip time is in (R296). -/
def State.windowCount (s : State) (k : Nat) : Nat :=
  if (s.link k).aWindowNo = s.now / 1024 then (s.link k).aWindow else 0

/-- A class A request is counted in the window. Log entry 108 (DEDUCED). -/
def State.countA (s : State) (k n : Nat) : State :=
  let c := s.windowCount k + n
  s.modLink k fun l => { l with aWindow := c, aWindowNo := s.now / 1024 }

/-! ## Requests of a partner -/

def apLow : Nat := 0x8000000000
def apHigh : Nat := 0x8020000000

/-- What the checks of a request answer. -/
inductive Ingress where
  | form
  | address
  | filter
  | cap
  | badBurst
  | outside
  | dest
  | transit (out : Nat)
  | noHops
  | core
  | stack
  | aperture
  deriving DecidableEq, Repr

/-- Number of a kind in the filter's kinds field, for a request of this module. -/
def kindBit (f : LFlit) : Nat :=
  if f.kind = 0 then 0 else if f.kind = 2 then 1 else if f.kind = 4 then 2
  else if f.addr.toNat < planEnd then 3 else 4

/-- A burst lies in the window of sequence numbers (R277). Log entry 65 (DEDUCED). -/
def Link.bseqOk (l : Link) (f : LFlit) : Bool := (f.txn - (l.brec.committed + 1)) < 64#12

/-- The filter admits a request (Table 12-11). Log entry 65 (DEDUCED). -/
def State.filterOk (s : State) (k v : Nat) (msg : List LFlit) (f : LFlit) : Bool :=
  let e := s.filter k
  let b := lineBytes f.payload
  let here := f.dst.toNat == s.boot.rs.node
  fVc e v && fKind e (kindBit f) &&
  (if f.kind = 0 then (if here then fHandler e (hdrHandler b) else fTransit e)
   else if f.addr.toNat < planEnd then
     fWindow e (f.addr.toNat / 64 * 64) (if f.kind = 8 then 64 * msg.length else 64)
   else true)

/-- The checks of a partner's request on a request VC, in order; whether it is over the share cap was settled as its
header flit arrived (R296). Log entry 65 (DEDUCED). -/
def State.judge (s : State) (k v : Nat) (msg : List LFlit) (f : LFlit) (overCap : Bool) : Ingress :=
  let here := f.dst.toNat == s.boot.rs.node
  let a := f.addr.toNat
  let b := lineBytes f.payload
  let ap := f.kind == 8 && decide (apLow ≤ a) && decide (a < apHigh)
  if f.kind = 6 then .form
  else if f.kind != 0 && !here then .address
  else if f.kind != 0 && !(decide (a < planEnd) || ap) then .address
  else if !s.filterOk k v msg f then .filter
  else if overCap then .cap
  else if f.kind = 8 && !(s.link k).bseqOk f then .badBurst
  else if ap then .aperture
  else if f.kind != 0 then .stack
  else if here then (if s.inShape (scionRow b) (scionCol b) then .core else .outside)
  else if f.hops = 0 then .noHops
  else
    match s.linkRoute (s.routes s.epoch) f.dst.toNat with
    | some out => .transit out
    | none => .dest

/-- Response flits of a class that are reserved or wait to leave on the link: those that requests on the rings will
bring, those in the egress queue, and for class B the answers to MGMT (R265). Log entry 71 (DESIGN CHOICE). -/
def State.storeUsed (s : State) (k : Nat) (g : Cls) : Nat :=
  let m := (s.link k).sess
  (m.inRecs.filter (·.cls == g)).length + (m.vc (reqVc g + 1)).tx.length +
  (if g = .b then
    (m.vc 7).tx.length + (s.forwarded.filter (·.1 == k)).length + (s.notices.filter (·.link == k)).length
   else 0)

/-- Response room of a class is free (R265). -/
def State.storeFree (s : State) (k : Nat) (g : Cls) : Bool := decide (s.storeUsed k g < vcBuffer (reqVc g))

/-- A request goes onto the edge ring with ep of the port's own epoch; its response room is reserved. -/
def State.ingressRing (s : State) (k v : Nat) (msg : List LFlit) (f : LFlit) (dst : BitVec 12) (txn : BitVec 12)
    (first : List Byte → List Byte) (hops : BitVec 6) : State :=
  let r : InRec := { txn := txn.toNat, ptxn := f.txn, cls := clsOf f.cls, kind := f.kind, node := f.src }
  let s1 := (s.freeFlits k v msg.length).modSess k fun m => { m with
    inRecs := m.inRecs ++ [r], nextIn := if f.kind = 8 then m.nextIn else (m.nextIn + 1) % 4096 }
  s1.injectAllEdge (linkStop k) (msg.map fun (x : LFlit) =>
    { kind := x.kind, cls := x.cls, resp := false, ep := s.epNow, index := x.index, last := x.last
      dst := dst, src := edgeAddr (linkStop k), txn := txn, addr := x.addr, hops := hops
      payload := if x.index == (0 : BitVec 6) && x.kind == (0 : BitVec 4) then bytesLine (first (lineBytes x.payload)) else x.payload })

/-- via_link and ingress_link of a scion that came over a link (R157). -/
def markLink (k : Nat) (b : List Byte) : List Byte :=
  putBytes b 8 (leBytes 8 (setBits (field b 8 8) 30 6 (1 + 2 * k)))

/-- Aperture staging buffers of a class (R278). -/
def apCap : Cls → Nat
  | .a => 2
  | .b => 3
  | .c => 3

/-- The burst's form (R218), for one to the scratchpad aperture. Log entry 65 (DEDUCED). -/
def apForm (msg : List LFlit) (f : LFlit) : Bool :=
  f.addr.toNat % 64 == 0 && decide (msg.length ≤ 64) &&
  ((List.range msg.length).all fun i =>
    let x := msg.getD i f
    x.index.toNat == i && x.addr.toNat == f.addr.toNat + 64 * i) &&
  (f.addr.toNat + 64 * msg.length - 1) / padSize == f.addr.toNat / padSize

/-- Every slot of an aperture burst lies in a plain region of a core in service (R278). -/
def State.apSite (s : State) (msg : List LFlit) (f : LFlit) : Option (Nat × Nat) :=
  let o := f.addr.toNat - apLow
  let row := o / 2 ^ 24
  let col := o / 2 ^ 19 % 32
  (s.siteOf row col).bind fun site =>
    if (List.range msg.length).all fun i => (s.core site).kindAt (o % padSize + 64 * i) == 0 then some (row, col)
    else none

/-- An aperture burst is staged and delivered as deposits, or acknowledged with an error.
Log entry 44 (DESIGN CHOICE). -/
def State.apertureIn (s : State) (k v : Nat) (msg : List LFlit) (f : LFlit) : State :=
  let g := clsOf f.cls
  if !apForm msg f then (s.freeFlits k v msg.length).burstRefuse k f stForm
  else
    match s.apSite msg f with
    | none => (s.freeFlits k v msg.length).burstRefuse k f stAddress
    | some (row, col) =>
      if apCap g ≤ ((s.link k).aps.filter (·.cls == g)).length then s
      else
        let s1 := s.ingressRing k v msg f (coreAddr row col) f.txn id 0
        s1.modLink k fun l => { l with
          aps := l.aps ++ [{ bseq := f.txn, cls := g, node := f.src }]
          brec := { l.brec with out := l.brec.out ++ [f.txn] } }

/-- A partner's request moves on, or is answered, once the room of its response is free (R265). -/
def State.ingressRequest (s : State) (k v : Nat) (msg : List LFlit) (f : LFlit) : State :=
  let g := clsOf f.cls
  let done := s.freeFlits k v msg.length
  let txn := BitVec.ofNat 12 (s.link k).sess.nextIn
  if !s.storeFree k g then s
  else
    match s.judge k v msg f (v == 0 && (s.link k).sess.aMarks.headD false) with
    | .form => (done.burstRefuse k f stForm).misbehave k 4
    | .address => done.burstRefuse k f stAddress
    | .filter => s.filterRefuse k v msg f
    | .cap => (s.filterRefuse k v msg f).count Ev.admAcap k
    | .badBurst => (done.linkError k f stForm).misbehave k 1
    | .outside => (done.linkScion k f 12).count Ev.ringEdgeDest 0
    | .dest => done.linkScion k f 12
    | .noHops => (done.linkScion k f 12).count Ev.lnkHops k
    | .transit out => s.ingressRing k v msg f (edgeAddr (linkStop out)) txn (markLink k) (f.hops - 1)
    | .core =>
      let b := lineBytes f.payload
      s.ingressRing k v msg f (coreAddr (scionRow b) (scionCol b)) txn (markLink k) 0
    | .stack =>
      let dst := edgeAddr (stackPort (homeStack f.addr.toNat))
      if f.kind = 8 then
        (s.ingressRing k v msg f dst f.txn id 0).modLink k fun l => { l with
          brec := { l.brec with out := l.brec.out ++ [f.txn] } }
      else s.ingressRing k v msg f dst txn id 0
    | .aperture => s.apertureIn k v msg f

/-- A ring stop is a link port's. -/
def isLinkStop (src : BitVec 12) : Bool := (List.range 24).any fun k => edgeAddr (linkStop k) == src

/-- A partner's response ends its request record; one that matches none is discarded (R274).  One in transit loses a
hop, and is discarded when it has none left (R269). Log entry 70 (DEDUCED). -/
def State.ingressResponse (s : State) (k v : Nat) (f : LFlit) : State :=
  let s1 := s.freeFlits k v 1
  match (s.link k).sess.recs.find? fun r => r.txn == f.txn.toNat && r.kind + 1 == f.kind && r.cls == clsOf f.cls with
  | none => s1.count Ev.lnkLateResp k
  | some r =>
    let s2 := s1.modLink k fun l => { l with sess := { l.sess with recs := l.sess.recs.erase r } }.unstall r.cls
    let transit := isLinkStop r.src
    if transit && f.hops == 0 then s2.count Ev.lnkHops k
    else s2.injectEdge (linkStop k)
      { kind := f.kind, cls := f.cls, resp := true, ep := s.epNow, index := f.index, last := true
        dst := r.src, src := edgeAddr (linkStop k), txn := r.otxn
        hops := if transit then f.hops - 1 else 0, payload := f.payload }

/-! ## MGMT and TIME -/

/-- Least privilege of a management group (Table 12-10). -/
def groupPriv (g : Nat) : Option Nat := if g = 1 then some 2 else if g = 2 || g = 3 then some 3 else none

def mgmtGroup (f : LFlit) : Nat := bits (field (lineBytes f.payload) 0 1) 4 4
def mgmtOp (f : LFlit) : Nat := bits (field (lineBytes f.payload) 0 1) 0 4

/-- The group and op of a management request are defined: group 0x1 has ops 1 to 6, group 0x2 ops 1 to 13, and group 0x3
goes to the warden, which judges its ops (Tables 12-10, 16-1, 17-1; R9). Log entry 118 (DEDUCED). -/
def mgmtDefined (f : LFlit) : Bool :=
  let op := mgmtOp f
  if mgmtGroup f = 1 then decide (1 ≤ op) && decide (op ≤ 6)
  else if mgmtGroup f = 2 then decide (1 ≤ op) && decide (op ≤ 13)
  else mgmtGroup f == 3

/-- A management request may be served: its group exists, the grant reaches its level, the filter admits VC 7. -/
def State.mgmtOk (s : State) (k : Nat) (f : LFlit) : Bool :=
  (match groupPriv (mgmtGroup f) with
   | some p => decide (p ≤ (s.link k).grant.toNat)
   | none => false) && fVc (s.filter k) 7

/-- The management request at the head of a link's buffer, if it may be served, its answer has room (R265), and it has
this group and op. -/
def State.mgmtHead (s : State) (k g op : Nat) : Option (List LFlit) :=
  if (s.link k).st != 4 || !s.storeFree k .b then none
  else
    (s.vcHead k 7).filter fun msg =>
      match msg with
      | f :: _ => f.kind == 10 && s.mgmtOk k f && mgmtGroup f == g && mgmtOp f == op
      | [] => false

/-- A management message on a link that no operation takes: discarded, and counted as what it is. -/
def State.ingressMgmt (s : State) (k : Nat) (msg : List LFlit) (f : LFlit) : State :=
  if f.kind = 11 then (s.freeFlits k 7 msg.length).count Ev.lnkLateResp k
  else if !mgmtDefined f then
    ((s.freeFlits k 7 msg.length).count Ev.lnkMalformed k).misbehave k 4
  else if !s.mgmtOk k f then s.filterRefuse k 7 msg f
  else s

/-- An accepted message at the head of a VC is filtered, restamped and put on the edge ring once its response
room is reserved. Log entries 64 (DESIGN CHOICE), 108 (DEDUCED). -/
def execIngressForward (link : Nat) (vc : Nat) (s : State) : Out :=
  if (s.link link).st != 4 then .next s
  else
    match s.vcHead link vc with
    | some (f :: r) =>
      let msg := f :: r
      if vc = 7 then .next (s.ingressMgmt link msg f)
      else if vc = 6 then (if fVc (s.filter link) 6 then .next s else .next (s.filterRefuse link 6 msg f))
      else if vc % 2 = 1 then .next (s.ingressResponse link vc f)
      else .next (s.ingressRequest link vc msg f)
    | _ => .next s

/-- A window of 1,024 ns of chip time ends: the count of class A flits starts again. -/
def execAcapWindowEnd (link : Nat) (s : State) : Out :=
  let s1 := if (s.link link).aWindowNo = s.now / 1024 then s.advanceTo ((s.now / 1024 + 1) * 1024) else s
  .next (s1.modLink link fun l => { l with aWindow := 0, aWindowNo := s1.now / 1024 })

/-! ## Outbound requests (R265, R275) -/

/-- The message that waits longest at a link's port on the rings, and the flits that wait besides. -/
def State.portMessage (s : State) (k : Nat) (g : Cls) : Option (List Flit × List Flit) :=
  let l := s.rings.ports.at (portKey (linkStop k) (clsNum g) 0) []
  match l with
  | [] => none
  | f :: _ =>
    let mine (x : Flit) : Bool := x.src == f.src && x.txn == f.txn && x.kind == f.kind
    let msg := l.filter mine
    let whole := f.index == 0 && msg.any (·.last)
    if whole || f.index != 0 || 2 ≤ s.flitAge f then some (msg, l.filter fun x => !mine x) else none

def State.setPort (s : State) (k : Nat) (g : Cls) (l : List Flit) : State :=
  { s with rings := { s.rings with ports := s.rings.ports.put (portKey (linkStop k) (clsNum g) 0) l } }

/-- A request that cannot leave on the link: a scion is answered DEST, any other is discarded (R272, R275). -/
def State.portRefuse (s : State) (k : Nat) (f : Flit) : State :=
  if f.kind = 0 && f.index = 0 then
    let b := lineBytes f.payload
    s.injectEdge (linkStop k) (f.destAnswer (edgeAddr (linkStop k)) s.epNow s.boot.rs.node (scionRow b) (scionCol b))
  else s

/-- Room for a request: a record of its class, and credit beyond the flits that wait already.
Log entry 66 (DESIGN CHOICE). -/
def Sess.egressRoom (m : Sess) (g : Cls) : Bool :=
  decide (m.recCount g < vcBuffer (reqVc g)) && decide ((m.vc (reqVc g)).tx.length < m.avail (reqVc g))

/-- The link flits of a scion that leaves (R259, R269). -/
def egressFlits (msg : List Flit) (f : Flit) (txn : Nat) : List LFlit :=
  let b := lineBytes f.payload
  msg.map fun x =>
    { kind := x.kind, cls := x.cls, resp := false, index := x.index, last := x.last
      dst := BitVec.ofNat 18 (field b 16 8), src := BitVec.ofNat 18 (field b 8 8), hops := f.hops
      txn := BitVec.ofNat 12 txn, payload := x.payload }

/-- A link tag that no record holds. -/
def Sess.freeTag (m : Sess) : Nat := Sys2Proof.Machine.freeTag (fun n => m.recs.any (·.txn == n)) 4096 (m.nextTag % 4096)

/-- An outbound request reserves response room and writes a record before it leaves; a message with an
uncorrectable word is discarded (R318). Log entry 66 (DESIGN CHOICE). -/
def execEgressReserve (link : Nat) (cls : Cls) (s : State) : Out :=
  match s.portMessage link cls with
  | some (f :: r, rest) =>
    let msg := f :: r
    let l := s.link link
    let gone := s.setPort link cls rest
    if f.index != 0 || !(msg.any (·.last)) then .next gone
    else if !l.live || l.stalled cls then .next (gone.portRefuse link f)
    else if msg.any (·.bad != 0) then .next (gone.count Ev.ringEdgeHdrUe 0)
    else if f.kind != 0 then .next gone
    else if !l.sess.egressRoom cls then
      if (l.waitFrom.find (clsNum cls)).isSome then .next s
      else .next (s.modLink link fun l => { l with waitFrom := l.waitFrom.put (clsNum cls) s.now })
    else
      let txn := l.sess.freeTag
      let r : LinkRec := { txn := txn, cls := cls, src := f.src, otxn := f.txn, kind := f.kind
                           deadline := s.now + s.classTimeout cls }
      let s1 := (gone.modLink link fun l => { l with waitFrom := l.waitFrom.del (clsNum cls) }).modSess link fun m =>
        let c := m.vc (reqVc cls)
        { (m.setVc (reqVc cls) { c with tx := c.tx ++ egressFlits msg f txn }) with
          recs := m.recs ++ [r], nextTag := (txn + 1) % 4096 }
      .next (s1.modLink link fun l => l.noteCredit s.now cls)
  | _ => .next s

/-- A request record is freed after its class timeout (R274). -/
def execRequestRecordTimeout (link : Nat) (rec : Nat) (s : State) : Out :=
  match (s.link link).sess.recs.find? (·.txn == rec) with
  | none => .next s
  | some r =>
    .next ((s.advanceTo r.deadline).modLink link fun l =>
      { l with sess := { l.sess with recs := l.sess.recs.erase r } }.unstall r.cls)

/-- Since when the oldest request of a class waits for credit or reservation, if it waits: one that holds its reservation
is older than one on the ring (R275). -/
def Link.oldestWait (l : Link) (g : Cls) : Option Nat :=
  if l.sess.creditWait g then l.creditFrom.find (clsNum g)
  else if l.sess.egressRoom g then none
  else l.waitFrom.find (clsNum g)

/-- The oldest request of a class has waited stall_limit for credit or reservation: stall drain (R275).
Log entry 66 (DESIGN CHOICE). -/
def execStallDrainEnter (link : Nat) (cls : Cls) (s : State) : Out :=
  let l := s.link link
  match l.oldestWait cls with
  | none => .next s
  | some t0 =>
    if !l.live || l.stalled cls then .next s
    else
      let s1 := s.advanceTo (t0 + 1000 * s.boot.rs.stallLimit)
      .next ((s1.modLink link fun l => { (l.setStall cls true) with waitFrom := l.waitFrom.del (clsNum cls) }).count
        Ev.lnkStall link)

/-! ## Responses to the partner -/

/-- A response that a unit of the die, or another link, sends toward the partner of a link (R261, R265, R269); one with an
uncorrectable word is discarded and counted (R318). -/
def State.portResponse (s : State) (k : Nat) (f : Flit) : State :=
  let r := (s.link k).sess.inRecs.find? fun r => r.txn == f.txn.toNat && r.kind + 1 == f.kind && r.cls == clsOf f.cls
  let s1 := s.modSess k fun m => { m with inRecs := m.inRecs.filter fun x => some x != r }
  if f.bad != 0 then s1.count Ev.ringEdgeHdrUe 0
  else
    let status := (lineBytes f.payload).getD 2 0
    let s2 := if f.kind = 9 then s1.modLink k fun l => { l with brec := l.brec.note f.txn (status == 0) } else s1
    match r with
    | none => s2
    | some r =>
      let node := if f.kind = 1 then field (lineBytes f.payload) 8 3 else s.boot.rs.node
      let hops := if isLinkStop f.src then f.hops else BitVec.ofNat 6 s.boot.rs.maxHops
      s2.queueFlit k (reqVc (clsOf f.cls) + 1)
        { kind := f.kind, cls := f.cls, resp := true, index := f.index, last := true, dst := r.node
          src := BitVec.ofNat 18 node, hops := hops, txn := r.ptxn, payload := f.payload }

/-- A core's acknowledgement of an aperture burst. -/
def apAck (f : Flit) : Bool := f.kind == 9 && !addrIsEdge f.src

/-- The responses that wait at a link's port move to the link. -/
def State.takeResponses (s : State) (k : Nat) : State :=
  ([0, 1, 2] : List Nat).foldl (fun s c =>
    let key := portKey (linkStop k) c 1
    let l := s.rings.ports.at key []
    let s1 := if l.isEmpty then s
      else { s with rings := { s.rings with ports := s.rings.ports.put key (l.filter apAck) } }
    (l.filter fun f => !apAck f).foldl (·.portResponse k ·) s1) s

/-- Every slot of an aperture burst is written: the burst has committed and is acknowledged OK (R278).
Log entry 44 (DESIGN CHOICE). -/
def execApertureBurstDelivered (link : Nat) (bseq : Nat) (s : State) : Out :=
  let here (c : Nat) : Option Flit := (s.rings.ports.at (portKey (linkStop link) c 1) []).find?
    fun f => apAck f && f.txn.toNat == bseq
  match ([0, 1, 2] : List Nat).findSome? fun c => (here c).map fun f => (c, f) with
  | none => .next s
  | some (c, f) =>
    let key := portKey (linkStop link) c 1
    let s1 := { s with rings := { s.rings with ports := s.rings.ports.put key ((s.rings.ports.at key []).erase f) } }
    let s2 := s1.modLink link fun l => { l with aps := l.aps.filter fun a => a.bseq != f.txn }
    .next (s2.portResponse link f)

/-- A frame boundary: the port sends one frame (R255, R266). -/
def execFrameBuild (link : Nat) (s : State) : Out :=
  if s.pace.tripped || !s.alive then .next s
  else
    let s1 := s.takeResponses link
    let l := s1.link link
    if l.st = 4 then .next (s1.upFrame link)
    else if l.st = 5 then (if l.phyUp then .next (s1.sendIdle link) else .next s1)
    else if l.st = 3 then
      match l.sess.ctrl with
      | (t, b) :: r =>
        .next (((s1.modSess link fun m => { m with ctrl := r }).transmit link t 0 0 0 none b).resultGone link t b)
      | [] => .next s1
    else .next s1

end Sys2Proof.Machine
end

