-- ==== Sys2Proof/Machine/Receive.lean ====
section
/-! DEFINITION. The receipt of frames at a link port (R251, R258, R262, R264), and the share cap as a class A header flit
arrives (R296). -/

namespace Sys2Proof.Machine

/-- The message whose flits a buffer ends with. -/
def tailMessage (l : List LFlit) : List LFlit :=
  match l.reverse with
  | [] => []
  | f :: r => (f :: r.takeWhile (!·.last)).reverse

/-- A class A flit has entered its buffer.  The window and its count are kept as a header flit arrives; the whole message
is over the cap if that count and its flits exceed a_rate, and an accepted one is counted in that window (R296).
Log entry 108 (DEDUCED). -/
def State.markA (s : State) (k : Nat) (f : LFlit) : State :=
  let s1 := if f.index = 0 then s.modSess k fun m => { m with aHead := (s.now / 1024, s.windowCount k) } else s
  if !f.last then s1
  else
    let m := (s1.link k).sess
    let msg := tailMessage (m.vc 0).rx
    let head := msg.headD f
    let free : Bool := match s1.judge k 0 msg head false with
      | .form => false
      | .address => false
      | .filter => false
      | _ => true
    let overCap := free && decide (fRate (s1.filter k) < m.aHead.2 + msg.length)
    let s2 := s1.modSess k fun m => { m with aMarks := m.aMarks ++ [overCap] }
    if free && !overCap && m.aHead.1 == s.now / 1024 then s2.countA k msg.length else s2

/-- One flit of an accepted DATA frame enters its VC's buffer. Log entry 61 (DEDUCED). -/
def State.acceptFlit (s : State) (k : Nat) (v : Nat) (b : List Byte) : State :=
  if (s.link k).st != 4 then s
  else
    let f := lflitOf b
    let c := (s.link k).sess.vc v
    if !s.lflitOk k v f.1 f.2 then (s.count Ev.lnkMalformed k).misbehave k 4
    else if vcBuffer v ≤ c.rx.length then (s.count Ev.lnkOverrun k).misbehave k 1
    else if !f.1.follows c.rx then (s.count Ev.lnkMalformed k).misbehave k 4
    else
      let s1 := s.modSess k fun m => m.setVc v { c with rx := c.rx ++ [f.1] }
      if v = 0 then s1.markA k f.1 else s1

/-- The frame enters retry: a DATA frame is accepted in sequence only. -/
def State.dataFrame (s : State) (k : Nat) (f : Frame) (good : Bool) : State :=
  if f.fseq == (s.link k).sess.expFseq then
    let s1 := s.modLink k fun l => { l with
      rxData := l.rxData + 1
      sess := { l.sess with expFseq := l.sess.expFseq + 1, nak := false } }
    if good then
      ((List.range 4).filter (bitAt f.mask)).foldl (fun s i => s.acceptFlit k (f.vcAt i) (f.slotAt i)) s1
    else s1
  else s.enterNak k

/-- A frame that passed its CRC and tag, in UP. Log entry 60 (DEDUCED). -/
def State.goodFrame (s : State) (k : Nat) (f : Frame) : State :=
  let s1 := s.noteEpoch k f.ep
  let s2 := if f.creditValid then s1.takeCredit k f.creditVc f.credit else s1
  let s3 := s2.takeAck k f.ack
  if !(s3.link k).live then s3
  else if !f.wellFormed (s3.link k).sess.enc then
    let s4 := (s3.count Ev.lnkMalformed k).misbehave k 4
    if !(s4.link k).live then s4
    else if f.ftype = 1 && f.fseq == (s4.link k).sess.expFseq then s4.dataFrame k f false
    else s4.enterNak k
  else if f.ftype = 1 then s3.dataFrame k f true
  else if f.ftype = 2 then
    (List.range 8).foldl (fun s v => s.takeCredit k v (BitVec.ofNat 12 (field f.body (2 * v) 2))) s3
  else if f.ftype = 3 then s3.replay k
  else if f.ftype = 6 || f.ftype = 7 then
    s3.modLink k fun l => { l with inbox := l.inbox ++ [BitVec.ofNat 8 f.ftype :: f.body] }
  else s3

/-- The tag of a frame in UP is checked; more than 16 failures in an epoch drop the link. Log entry 60 (DEDUCED). -/
def State.taggedFrame (s : State) (k : Nat) (b : List Byte) : State :=
  match (s.link k).sess.openFrame b with
  | none =>
    let s1 := (s.modLink k fun l => { l with tagFails := l.tagFails + 1 }).count Ev.lnkTag k
    if 16 < (s1.link k).tagFails then s1.dropLink k 3 else s1.enterNak k
  | some (txc, body) =>
    let s1 := s.modSess k fun m => { m with txcRx := txc + 1 }
    s1.goodFrame k { (frameOf b) with body := body }

/-- A frame with a good CRC reaches a port that has frame lock. Log entry 59 (DEDUCED). -/
def State.lockedFrame (s : State) (k : Nat) (b : List Byte) : State :=
  let f := frameOf b
  let l := s.link k
  if l.st = 2 then
    if f.ftype != 4 then s
    else if f.wellFormed false && trainBodyOk f.body then
      s.modLink k fun l => { l with inbox := l.inbox ++ [4 :: f.body] }
    else s.badFrame k
  else if l.st = 3 then
    if f.ftype != 5 then s
    else if f.wellFormed false && admitBodyOk f.body then s.takeFrag k f.body
    else s.badFrame k
  else if l.st = 4 then
    if f.ftype = 4 || f.ftype = 5 then s
    else
      let s1 := s.taggedFrame k b
      if (l.sess.openFrame b).isSome && (s1.link k).st = 4 then s1.modLink k fun l => { l with adm := {} } else s1
  else s

/-- Back in UP, the held frames are sent again (Table 11-8). -/
def State.replayAll (s : State) (k : Nat) : State :=
  let m := (s.link k).sess
  let s1 := s.modSess k fun m => { m with resend := m.held, replays := 0, heldAt := s.now }
  if m.held.isEmpty then s1 else s1.count Ev.lnkReplay k

/-- A frame of 352 bytes arrives; a frame that overlaps an uncorrectable FEC codeword fails its check, and the codewords
that the decoder newly gave up are counted (R251).  A tripped die accepts none (R40).
Log entry 60 (DEDUCED). -/
def execFrameReceive (link : Nat) (frame : List Byte) (fec : FecSays) (s : State) : Out :=
  let l := s.link link
  if !s.alive || s.pace.tripped || l.st < 2 || 5 < l.st || frame.length != 352 then .next s
  else
    let s1 := s.countN Ev.lnkFecUncorr link fec.new
    let good := !fec.bad && frameCrc frame == field frame 12 4
    let s2 := s1.modLink link fun l => l.lockStep good s.now
    if !good then
      .next (if l.locked then (s2.count Ev.lnkCrc link).enterNak link else s2)
    else
      let s3 := if l.st = 4 then s2 else s2.noteEpoch link (frameOf frame).ep
      if l.locked then .next (s3.lockedFrame link frame)
      else if l.st = 5 && (s3.link link).locked then .next ((s3.enterLink link 4).replayAll link)
      else .next s3

end Sys2Proof.Machine
end

