-- ==== Sys2Proof/Machine/Time.lean ====
section
/-! DEFINITION. Chip time over links (R43 to R53): TIME messages, exchanges and the servo, the choice of an
upstream, time roots, holdover and failover. -/

namespace Sys2Proof.Machine

/-! ## TIME messages (Table 2-5) -/

/-- The fields of a TIME message. -/
structure TimeMsg where
  kind : Nat
  stratum : Nat := 0
  rootIndex : Nat := 0
  rootNode : Nat := 0
  syncState : Nat := 0
  candidate : Bool := false
  seq : BitVec 16 := 0
  tsA : W64 := 0
  tsB : W64 := 0
  sender : Nat

/-- The 32 bytes of a message. -/
def TimeMsg.bytes (m : TimeMsg) : List Byte :=
  [BitVec.ofNat 8 (m.kind % 16 + 16), BitVec.ofNat 8 (m.stratum % 64 + m.rootIndex % 4 * 64)] ++
  leBytes 4 (m.rootNode % 2 ^ 18 + m.syncState % 4 * 2 ^ 18 + (if m.candidate then 2 ^ 20 else 0)) ++
  leBytes 2 m.seq.toNat ++ leBytes 8 m.tsA.toNat ++ leBytes 8 m.tsB.toNat ++ leBytes 8 (m.sender % 2 ^ 18)

def timeMsgOf (b : List Byte) : TimeMsg :=
  let w := field b 2 4
  { kind := bits (field b 0 1) 0 4, stratum := bits (field b 1 1) 0 6, rootIndex := bits (field b 1 1) 6 2
    rootNode := bits w 0 18, syncState := bits w 18 2, candidate := bitAt w 20
    seq := BitVec.ofNat 16 (field b 6 2), tsA := BitVec.ofNat 64 (field b 8 8), tsB := BitVec.ofNat 64 (field b 16 8)
    sender := bits (field b 24 8) 0 18 }

/-- The message keeps the layout of its type: every field that the type does not use is zero (R43).
Log entry 16 (DEDUCED). -/
def timeWellFormed (b : List Byte) : Bool :=
  let m := timeMsgOf b
  let noExchange := m.seq == 0 && m.tsB == 0
  let noRoot := field b 1 1 == 0 && field b 2 4 == 0
  bits (field b 0 1) 4 4 == 1 && bits (field b 2 4) 21 11 == 0 && bits (field b 24 8) 18 46 == 0 &&
  (match m.kind with
   | 1 => noRoot && m.tsB == 0
   | 2 => noRoot
   | 3 => noExchange && m.tsA == 0 && !m.candidate
   | 4 => noExchange && m.stratum == 0 && m.syncState == 0 && bits (field b 8 8) 44 20 == 0
   | _ => false)

/-- What waits at the head of a link's TIME buffer, for one message type. -/
inductive TimeIn where
  | none
  | refused (msg : List LFlit) (f : LFlit)
  | malformed
  | msg (m : TimeMsg)

def State.timeHead (s : State) (k kind : Nat) : TimeIn :=
  if (s.link k).st != 4 then .none
  else
    match s.vcHead k 6 with
    | some (f :: r) =>
      let b := slice (lineBytes f.payload) 0 32
      if !(fVc (s.filter k) 6 && decide (1 ≤ (s.link k).grant.toNat)) then .refused (f :: r) f
      else if !timeWellFormed b then .malformed
      else if (timeMsgOf b).kind = kind then .msg (timeMsgOf b)
      else .none
    | _ => .none

/-- A TIME message of one type is taken from a link: refused by privilege or filter (R294), malformed (R43), or
acted on. -/
def State.onTime (s : State) (k kind : Nat) (act : State → TimeMsg → State) : Out :=
  match s.timeHead k kind with
  | .none => .next s
  | .refused msg f => .next (s.filterRefuse k 6 msg f)
  | .malformed => .next ((s.freeFlits k 6 1).count Ev.timeMalformed 0)
  | .msg m => .next (act (s.freeFlits k 6 1) m)

/-- A TIME message waits to leave on a link. -/
def State.sendTime (s : State) (k : Nat) (m : TimeMsg) : State :=
  s.queueFlit k 6
    { kind := 10, cls := 1, resp := false, index := 0, last := true, dst := (s.link k).partnerNode
      src := BitVec.ofNat 18 s.boot.rs.node, hops := BitVec.ofNat 6 s.boot.rs.maxHops, txn := 0
      payload := bytesLine m.bytes }

/-- Links over which time may travel: enabled by time_upstream_mask, UP, and admitted as PEER or higher (R46). -/
def State.timeLinks (s : State) : List Nat :=
  (List.range 24).filter fun k =>
    s.boot.rs.timeUpstreamMask.getLsbD k && (s.link k).st == 4 && decide (1 ≤ (s.link k).grant.toNat)

/-- Log entry 16 (DEDUCED). -/
def State.sendTimeAll (s : State) (m : TimeMsg) : State := s.timeLinks.foldl (fun s k => s.sendTime k m) s

/-! ## State of synchronisation -/

def syncUnsync : Nat := 0
def syncAcquiring : Nat := 1
def syncLocked : Nat := 2
def syncHoldover : Nat := 3

def State.modTime (s : State) (f : TimeState → TimeState) : State := { s with time := f s.time }

/-- No upstream is left: the last frequency estimate alone stays (R47), and LOCKED or ACQUIRING turns into holdover
(R45, R50).  A module in UNSYNC stays there.  Log entry 114 (DESIGN CHOICE). -/
def State.holdover (s : State) : State :=
  let s1 := s.modTime fun t => { t with upstream := 31, exch := none, discards := 0, slew := 0 }
  if s.time.syncState = syncLocked || s.time.syncState = syncAcquiring then
    (s1.modTime fun t => { t with syncState := syncHoldover, holdAt := s.now }).count Ev.timeHoldover 0
  else s1

/-- The module enters LOCKED, if it is not there; from then its epochs in LOCKED count (R52). -/
def State.lock (s : State) : State :=
  if s.time.syncState = syncLocked then s
  else s.modTime fun t => { t with syncState := syncLocked, lockedAt := s.now }

/-- The module's own place in the list of roots. Log entry 17 (DEDUCED). -/
def State.ownRoot (s : State) : Option Nat :=
  (List.range s.boot.rs.roots.length).find? fun i => s.boot.rs.roots.getD i 0 == s.boot.rs.node

/-- The module is the root in force. -/
def State.inForce (s : State) : Bool :=
  decide (s.time.rootNode = s.boot.rs.node) && s.ownRoot == some s.time.rootIndex

/-- A root's announce is held at the current epoch, and the root is not ignored as far (R50, R51). -/
def State.holdsRoot (s : State) (i : Nat) : Bool :=
  (match s.time.rootHeld.find i with
   | some e => decide (s.epoch ≤ e + s.boot.rs.rootLossEpochs)
   | none => false) && !s.time.farRoots.contains i

/-! ## The upstream (R45, R46) -/

/-- The partner of a link carries root i: it is not excluded, and follows that root LOCKED with a stratum that leaves
one below 64 (R45, R46).  The exclusion is the link's, whoever is admitted there. Log entry 115 (DESIGN CHOICE). -/
def State.carries (s : State) (i k : Nat) : Bool :=
  (s.time.excluded.find k).isNone && s.holdsRoot i &&
  (match s.time.announces.find k with
   | some a => a.rootIndex == i && a.rootNode == s.boot.rs.roots.getD i 0 && a.syncState == syncLocked &&
               decide (a.stratum + 1 < 64)
   | none => false)

/-- A partner may be the upstream: it follows the same root.  Log entry 15 (DEDUCED). -/
def State.upstreamOk (s : State) (k : Nat) : Bool :=
  s.carries s.time.rootIndex k && decide (s.boot.rs.roots.getD s.time.rootIndex 0 = s.time.rootNode)

def State.stratumOf (s : State) (k : Nat) : Nat :=
  match s.time.announces.find k with
  | some a => a.stratum
  | none => 63

/-- Of some links, the one with the lowest stratum, then the lowest link number. -/
def State.lowest (s : State) (l : List Nat) : Option Nat :=
  l.find? fun k => l.all fun j => decide (s.stratumOf k ≤ s.stratumOf j)

def State.bestUpstream (s : State) : Option Nat := s.lowest (s.timeLinks.filter s.upstreamOk)

/-- The upstream is chosen again; with none, the module enters holdover.  The previous accepted offset stays, whoever
gave it (R45). Log entry 14 (DEDUCED). -/
def State.chooseUpstream (s : State) : State :=
  if s.inForce || s.time.rootNode = 0 then s
  else
    match s.bestUpstream with
    | none => s.holdover
    | some k =>
      if s.time.upstream = k then s.modTime fun t => { t with stratum := s.stratumOf k + 1 }
      else s.modTime fun t => { t with
        upstream := k, stratum := s.stratumOf k + 1, exch := none, discards := 0 }

/-- An exchange is discarded; after four in a row the upstream is dropped, and its link excluded for 16 epochs (R45).
Log entries 14 (DEDUCED), 115 (DESIGN CHOICE). -/
def State.discard (s : State) : State :=
  let s1 := (s.modTime fun t => { t with exch := none, discards := t.discards + 1 }).count Ev.timeOutlier 0
  if s1.time.discards < 4 then s1
  else
    (s1.modTime fun t => { t with
      excluded := t.excluded.put t.upstream (s1.epoch + 16), upstream := 31, discards := 0 }).chooseUpstream

/-! ## Exchanges and the servo (R44, R45, R47) -/

/-- The module has a reference: the root it follows is itself, or is still held (R50, R51). -/
def State.hasReference (s : State) : Bool := s.inForce || (s.time.rootNode != 0 && s.holdsRoot s.time.rootIndex)

/-- A held root that has not been measured, above the present reference in the list, and the partner that carries it:
the lowest stratum, then the lowest link (R51). Log entry 15 (DEDUCED). -/
def State.toMeasure (s : State) : Option (Nat × Nat) :=
  if !s.hasReference then none
  else
    (List.range (min s.time.rootIndex s.boot.rs.roots.length)).findSome? fun i =>
      if s.time.nearRoots.contains i then none
      else (s.lowest (s.timeLinks.filter (s.carries i))).map fun k => (i, k)

/-- A SYNC_REQ to the partner of a link, under the next sequence number. -/
def State.syncReqTo (s : State) (k : Nat) (f : TimeState → Exchange → TimeState) : State :=
  let e : Exchange := { seq := s.time.seq + 1, t1 := BitVec.ofNat 64 s.nowQ }
  (s.modTime fun t => { (f t e) with seq := e.seq }).sendTime k
    { kind := 1, seq := e.seq, tsA := e.t1, sender := s.boot.rs.node }

/-- Every 2^16 ns of chip time one SYNC_REQ goes to the upstream, at the multiples of 2^16 ns; a root still to be
measured gets one through the partner that carries it. Log entries 12 (DEDUCED), 15 (DEDUCED), 116 (DESIGN CHOICE). -/
def execSyncReqTimer (s : State) : Out :=
  if !s.alive then .next s
  else
    let due := s.nextMultiple 65536 s.time.reqAt
    let s1 := (s.advanceTo due).modTime fun t => { t with reqAt := due, probe := none }
    let s2 := if 24 ≤ s1.time.upstream then s1
      else s1.syncReqTo s1.time.upstream fun t e => { t with exch := some e }
    .next (match s2.toMeasure with
      | none => s2
      | some (i, k) => s2.syncReqTo k fun t e => { t with probe := some { root := i, link := k, exch := e } })

/-- A SYNC_REQ is answered with its seq, t2 and t3. Log entry 12 (DEDUCED). -/
def execSyncReq (link : Nat) (s : State) : Out :=
  s.onTime link 1 fun s m =>
    let now := BitVec.ofNat 64 s.nowQ
    s.sendTime link { kind := 2, seq := m.seq, tsA := now, tsB := now, sender := s.boot.rs.node }

/-- A frequency estimate within ±400 ppm (R47). Log entry 13 (DESIGN CHOICE). -/
def boundFreq (i : Int) : Int := max (-400000) (min 400000 i)

/-- The servo trims the increment: a slew of at most 100 ppm toward the upstream, and a frequency estimate within
±400 ppm.  R47 gives the bounds and no law, so both are free values within them. Log entry 13 (DESIGN CHOICE). -/
def State.servo (s : State) (offset : Int) : State :=
  let size : Int := Sys2Proof.Config.servoSlew s.free % 100001
  let s1 := s.modTime fun t => { t with
    freqEst := boundFreq (Sys2Proof.Config.servoFreq s.free)
    slew := if offset = 0 then 0 else if 0 < offset then size else -size }
  { s1 with free := s1.free + 1 }

/-- More than 2^20 ns, in 0.25 ns units. -/
def farOffset (offset : Int) : Bool := decide (4 * 2 ^ 20 < offset.natAbs)

/-- A root is measured farther than 2^20 ns away: it is ignored from then on, and EV_TIME_FAR counts (R51). -/
def State.markFar (s : State) (i : Nat) : State :=
  (s.modTime fun t => { t with farRoots := i :: t.farRoots.filter (· != i) }).count Ev.timeFar 0

/-- An exchange is accepted: its offset, in 0.25 ns units.  A followed root that is measured too far leaves holdover, or
UNSYNC (R51); below 25 ns the module is LOCKED (R53). Log entry 15 (DEDUCED). -/
def State.accept (s : State) (offset : Int) : State :=
  let s1 := s.modTime fun t => { t with
    exch := none, discards := 0, prevOffset := some offset, lastOffset := BitVec.ofInt 32 offset }
  if farOffset offset then (s1.markFar s.time.rootIndex).holdover
  else
    let s2 := s1.servo offset
    if offset.natAbs < 100 && s2.time.stratum < 64 then s2.lock else s2

/-- The exchange's offset and delay, from its four stamps, each a difference of 64-bit counts. Log entry 14 (DEDUCED). -/
def exchangeOffset (t1 t2 t3 t4 : W64) : Int := ((t2 - t1).toInt + (t3 - t4).toInt) / 2
def exchangeDelay (t1 t2 t3 t4 : W64) : Int := (t4 - t1).toInt - (t3 - t2).toInt

/-- The offset leaps by more than 200 ns after lock. -/
def TimeState.leaps (t : TimeState) (offset : Int) : Bool :=
  t.syncState == syncLocked &&
  (match t.prevOffset with
   | some p => decide (800 < (offset - p).natAbs)
   | none => false)

/-- An exchange took more than 10 us, or its delay is negative or above 10 us (R45). -/
def exchangeLate (e : Exchange) (m : TimeMsg) (t4 : W64) : Bool :=
  let d := exchangeDelay e.t1 m.tsA m.tsB t4
  decide (40000 < (t4 - e.t1).toNat) || decide (d < 0) || decide (40000 < d)

/-- The measurement of a root ends: discarded (R45), near, or far and ignored for the choice of R50 (R51).
Log entry 15 (DEDUCED). -/
def State.measured (s : State) (p : Probe) (m : TimeMsg) : State :=
  let t4 := BitVec.ofNat 64 s.nowQ
  let s1 := s.modTime fun t => { t with probe := none }
  if exchangeLate p.exch m t4 then s1.count Ev.timeOutlier 0
  else if farOffset (exchangeOffset p.exch.t1 m.tsA m.tsB t4) then s1.markFar p.root
  else s1.modTime fun t => { t with nearRoots := p.root :: t.nearRoots.filter (· != p.root) }

/-- A SYNC_RESP of the upstream's outstanding exchange is discarded or accepted, one of a measurement ends it; any other
has no effect. Log entries 12 (DEDUCED), 14 (DEDUCED), 15 (DEDUCED). -/
def execSyncResp (link : Nat) (s : State) : Out :=
  s.onTime link 2 fun s m =>
    match s.time.exch.filter (fun e => s.time.upstream == link && e.seq == m.seq) with
    | some e =>
      let t4 := BitVec.ofNat 64 s.nowQ
      let o := exchangeOffset e.t1 m.tsA m.tsB t4
      if exchangeLate e m t4 || s.time.leaps o then s.discard else s.accept o
    | none =>
      match s.time.probe.filter (fun p => p.link == link && p.exch.seq == m.seq) with
      | some p => s.measured p m
      | none => s

/-- No SYNC_RESP within 10 us of t1: a discard. Log entry 14 (DEDUCED). -/
def execSyncRespTimeout (s : State) : Out :=
  match s.time.exch, s.time.probe with
  | some e, _ => .next (s.advanceTo ((e.t1.toNat + 40000) / 4)).discard
  | none, some p =>
    .next (((s.advanceTo ((p.exch.t1.toNat + 40000) / 4)).modTime fun t => { t with probe := none }).count Ev.timeOutlier 0)
  | none, none => .next s

/-- A dropped upstream is eligible again after 16 epochs. -/
def execUpstreamExclusionEnd (link : Nat) (s : State) : Out :=
  match s.time.excluded.find link with
  | none => .next s
  | some e =>
    if s.epoch < e then .next s
    else .next (s.modTime fun t => { t with excluded := t.excluded.del link }).chooseUpstream

/-! ## Announces (R46, R49) -/

/-- A partner's LINK_ANNOUNCE is kept as its latest, and the upstream is chosen again. -/
def execLinkAnnounce (link : Nat) (s : State) : Out :=
  s.onTime link 3 fun s m =>
    (s.modTime fun t => { t with announces := t.announces.put link {
        rootIndex := m.rootIndex, rootNode := m.rootNode, syncState := m.syncState, stratum := m.stratum } }).chooseUpstream

/-- A root's announce for an epoch is newer than the one held. -/
def State.newRoot (s : State) (i epoch : Nat) : Bool :=
  match s.time.rootHeld.find i with
  | some e => decide (e < epoch)
  | none => true

/-- A listed root's announce, the first for its epoch, is held and forwarded on all time-enabled links; an older,
repeated or unlisted one is discarded. Log entry 16 (DEDUCED). -/
def execRootAnnounce (link : Nat) (s : State) : Out :=
  s.onTime link 4 fun s m =>
    let e := bits m.tsA.toNat 0 44
    if m.rootIndex < s.boot.rs.roots.length && s.boot.rs.roots.getD m.rootIndex 0 == m.rootNode && s.newRoot m.rootIndex e then
      (s.modTime fun t => { t with rootHeld := t.rootHeld.put m.rootIndex e }).sendTimeAll
        { m with sender := s.boot.rs.node }
    else s

/-! ## What a boundary brings (R46, R49, R50, R52, R53) -/

/-- A root may be chosen: it is held and, while another is followed that is still held, it has been measured within
2^20 ns (R50, R51). Log entry 15 (DEDUCED). -/
def State.mayFollow (s : State) (i : Nat) : Bool :=
  s.holdsRoot i && (!s.hasReference || i == s.time.rootIndex || s.time.nearRoots.contains i)

/-- The root to follow: the first of the list that may be; a listed root that may announce looks only above
itself, and is in force when it holds none of those. Log entry 17 (DEDUCED). -/
def State.rootChoice (s : State) : Option Nat :=
  let held (n : Nat) : Option Nat := (List.range n).find? s.mayFollow
  match s.ownRoot with
  | some j => if s.time.mayAnnounce then some ((held j).getD j) else held s.boot.rs.roots.length
  | none => held s.boot.rs.roots.length

/-- The module follows a root; a change of root counts as a failover. Log entry 17 (DEDUCED). -/
def State.followRoot (s : State) (i : Nat) : State :=
  let n := s.boot.rs.roots.getD i 0
  if s.time.rootNode = n && s.time.rootIndex = i then s
  else
    let s1 := s.modTime fun t => { t with rootIndex := i, rootNode := n, upstream := 31, exch := none, probe := none }
    let s2 := if s.time.rootNode = 0 then s1 else s1.count Ev.timeFailover 0
    if n = s.boot.rs.node then s2.lock.modTime fun t => { t with stratum := 0, slew := 0 }
    else s2

/-- R50 at each boundary, then the choice of the upstream. -/
def State.followBoundary (s : State) : State :=
  match s.rootChoice with
  | some i => (s.followRoot i).chooseUpstream
  | none =>
    if s.boot.rs.roots.isEmpty then s else s.holdover

/-- A listed root that has been LOCKED for root_loss_epochs epochs may announce (R52); what was measured of a root that
is no longer held is forgotten. -/
def State.countSync (s : State) : State :=
  let long := s.time.syncState = syncLocked && s.time.lockedAt + s.boot.rs.rootLossEpochs * 2 ^ 20 ≤ s.now
  s.modTime fun t => { t with
    mayAnnounce := t.mayAnnounce || (s.ownRoot.isSome && long), nearRoots := t.nearRoots.filter s.holdsRoot }

/-- LINK_ANNOUNCE on every time-enabled link (R46). -/
def State.announceLinks (s : State) : State :=
  s.sendTimeAll { kind := 3, stratum := s.time.stratum, rootIndex := s.time.rootIndex, rootNode := s.time.rootNode
                  syncState := s.time.syncState, sender := s.boot.rs.node }

/-- A listed root in force, or a LOCKED candidate, originates its ROOT_ANNOUNCE for the new epoch (R49). -/
def State.announceRoot (s : State) : State :=
  match s.ownRoot with
  | none => s
  | some j =>
    if s.inForce || (s.time.mayAnnounce && s.time.syncState = syncLocked) then
      (s.modTime fun t => { t with rootHeld := t.rootHeld.put j s.epoch }).sendTimeAll
        { kind := 4, rootIndex := j, rootNode := s.boot.rs.node, candidate := !s.inForce
          tsA := BitVec.ofNat 64 (s.epoch % 2 ^ 44), sender := s.boot.rs.node }
    else s

/-- What a boundary brings the timekeeper (R46, R49, R50), once a configuration is in force. -/
def State.timeBoundary (s : State) : State :=
  if s.boot.rs.roots.isEmpty then s.announceLinks else s.countSync.followBoundary.announceLinks.announceRoot

/-- After holdover_limit epochs in holdover the module is UNSYNC (R53, R327). -/
def execHoldoverLimit (s : State) : Out :=
  if s.time.syncState = syncHoldover && s.time.holdAt + s.boot.rs.holdoverLimit * 2 ^ 20 ≤ s.now then
    let s1 := s.modTime fun t => { t with syncState := syncUnsync }
    .next (if s.boot.rs.roots.isEmpty then s1 else s1.assertCorr)
  else .next s

end Sys2Proof.Machine
end

