-- ==== Sys2Proof/Machine/Plan.lean ====
section
/-! DEFINITION. Containers (R329 to R332), rootstocks (R333, R334), plans (R335, R336) and the checks that a plan
meets (R343, Table 15-15). -/

namespace Sys2Proof.Machine

/-! ## Containers (Tables 15-2 to 15-4) -/

def pageSize : Nat := 4096
def pageBody : Nat := 4092
def imagePage (img : List Byte) (p : Nat) : List Byte := slice img (pageSize * p) pageSize
def pageGood (page : List Byte) : Bool := crc32c (page.take pageBody) == field page pageBody 4

/-- Pages that the header gives. -/
def imagePages (img : List Byte) : Nat := field img 12 4
def imageKind (img : List Byte) : Nat := field img 10 2
def imageSeq (img : List Byte) : Nat := field img 16 8
def imageNode (img : List Byte) : Nat := field img 24 3
def imageNodeHi (img : List Byte) : Nat := field img 27 3
def imageSet (img : List Byte) : Nat := field img 30 2
def imageCompatLo (img : List Byte) : Nat := field img 32 2
def imageCompatHi (img : List Byte) : Nat := field img 34 2
def imageReduced (img : List Byte) : Bool := bitAt (field img 36 1) 0
def imageGiven (img : List Byte) : Nat := bits (field img 36 1) 1 5
def imageSections (img : List Byte) : Nat := field img 37 1

/-- Every page passes its CRC (R332). -/
def pagesGood (img : List Byte) : Bool :=
  decide (0 < img.length) && img.length % pageSize == 0 &&
  (List.range (img.length / pageSize)).all fun p => pageGood (imagePage img p)

/-- A directory entry. -/
structure Section where
  kind : Nat
  flags : Nat
  first : Nat
  length : Nat
  rest : Nat

def dirEntry (img : List Byte) (i : Nat) : Section :=
  let o := 64 + 16 * i
  { kind := field img o 2, flags := field img (o + 2) 2, first := field img (o + 4) 4, length := field img (o + 8) 4
    rest := field img (o + 12) 4 }

def directory (img : List Byte) : List Section := (List.range (imageSections img)).map (dirEntry img)
def Section.pages (s : Section) : Nat := max 1 ((s.length + pageBody - 1) / pageBody)

/-- Content bytes of a section (R329). -/
def sectionBytes (img : List Byte) (s : Section) : List Byte :=
  ((List.range s.pages).flatMap fun i => (imagePage img (s.first + i)).take pageBody).take s.length

/-- The last page of a section is zero beyond its end (R330). -/
def sectionPadded (img : List Byte) (s : Section) : Bool :=
  (((List.range s.pages).flatMap fun i => (imagePage img (s.first + i)).take pageBody).drop s.length).all (· == 0)

/-- Sections lie in order between the header and the signature page and share no page. -/
def sectionsPlaced (n : Nat) : Nat → List Section → Bool
  | _, [] => true
  | next, s :: r => decide (next ≤ s.first) && decide (s.first + s.pages ≤ n - 1) && sectionsPlaced n (s.first + s.pages) r

/-- The header's and the directory's layout (R330, Tables 15-2 and 15-3), version aside. -/
def headerForm (img magic : List Byte) (kind : Nat) : Bool :=
  let n := imagePages img
  let d := directory img
  slice img 0 8 == magic && imageKind img == kind && decide (3 ≤ n) && decide (n ≤ 65536) &&
  img.length == pageSize * n && decide (imageNode img < 2 ^ 18) && decide (imageNodeHi img < 2 ^ 18) &&
  decide (1 ≤ imageSections img) && decide (imageSections img ≤ 127) &&
  zeroBytes img 38 26 && zeroBytes img (64 + 16 * imageSections img) (16 * (127 - imageSections img)) &&
  zeroBytes img 2096 1996 && d.all (fun s => decide (s.flags < 2) && s.rest == 0 && sectionPadded img s) &&
  sectionsPlaced n 1 d

def containerMagic : List Byte := asciiBytes "OBPELCT1"

def sigPage (img : List Byte) : List Byte := imagePage img (imagePages img - 1)
def sigCount (img : List Byte) : Nat := field (sigPage img) 0 1
/-- Leaf and, if there is one, intermediate of the signature page (Table 15-4). -/
def sigChain (img : List Byte) : List Byte := slice (sigPage img) 8 (272 * sigCount img)

/-- Reserved bytes of the signature page. -/
def sigForm (img : List Byte) : Bool :=
  let p := sigPage img
  (sigCount img == 1 || sigCount img == 2) && zeroBytes p 1 7 && (sigCount img == 2 || zeroBytes p 280 272) &&
  zeroBytes p 648 3444

/-- The signature is the leaf's, over the pages before the last as stored. -/
def sigGood (img : List Byte) : Bool :=
  ecdsaVerify (certKey (chainLeaf (sigChain img))) (img.take (pageSize * (imagePages img - 1))) (slice (sigPage img) 552 96)

/-- A certificate holds every node from lo to hi. -/
def certHolds (lo hi : Nat) (c : List Byte) : Bool := decide (certLo c ≤ lo) && decide (hi ≤ certHi c)

/-- Chain and signature of a rootstock: it ends at the release key (R331). -/
def rootstockSigned (img : List Byte) : Bool :=
  let ch := sigChain img
  (chainCerts ch).all certForm && chainOk ch Config.releaseKey [3] && certIssuer (chainLeaf ch) == 0 &&
  certHolds (imageNode img) (imageNode img) (chainLeaf ch) && sigGood img

/-- Chain and signature of a plan: it ends at the orchard authority, with SERVICE privilege (R331). -/
def planSigned (rs : Rootstock) (img : List Byte) : Bool :=
  let ch := sigChain img
  (chainCerts ch).all certForm && chainOk ch rs.authority [2] && certPriv (chainLeaf ch) == 3 &&
  (chainCerts ch).all (certHolds (imageNode img) (imageNodeHi img)) &&
  !(chainCerts ch).any (fun c => rs.revoked.contains (BitVec.ofNat 64 (certSerial c))) && sigGood img

/-- Sections appear once, unknown types too, but for those that may repeat; the required ones appear (R332). -/
def sectionTypes (img : List Byte) (required : List Nat) (times : Nat → Nat) : Bool :=
  let l := (directory img).map (·.kind)
  l.all (fun t => decide ((l.filter (· == t)).length ≤ times t)) && required.all l.contains

/-- No unknown section is required, and fmt_major is 1 (R332). -/
def versionOk (img : List Byte) (known : List Nat) : Bool :=
  field img 8 1 == 1 && (directory img).all fun s => known.contains s.kind || s.flags == 0

def sectionOf (img : List Byte) (kind : Nat) : Option (List Byte) :=
  ((directory img).find? (·.kind == kind)).map (sectionBytes img)
def sectionsOf (img : List Byte) (kind : Nat) : List (List Byte) :=
  ((directory img).filter (·.kind == kind)).map (sectionBytes img)

/-! ## Rootstocks (Tables 15-5 and 15-6) -/

/-- A field with a default: zero selects it. -/
def orDefault (v d : Nat) : Nat := if v = 0 then d else v
def within (lo hi v : Nat) : Bool := decide (lo ≤ v) && decide (v ≤ hi)

def rsTypes : List Nat := [1, 2, 3, 4, 5, 6, 7, 8]

/-- The site map's reserved bits (Table 15-5, SITEMAP). -/
def siteMapForm (b : List Byte) (cols : Nat) : Bool :=
  bits (field b 0 1) 6 2 == 0 && zeroBytes b 1 7 &&
  (List.range cols).all fun c => bits (blkColEntry b c) 61 3 == 0

/-- Every section of a rootstock meets its layout, reserved fields zero; of a boot plan, its container's (Table 15-5), while
step 8 of start judges its sections. Log entry 79 (DEDUCED). -/
def rsForm (img : List Byte) : Bool :=
  let sec (t : Nat) : List Byte := (sectionOf img t).getD []
  let chain := sec 1
  let n := field chain 0 1
  let die := sec 4
  let links := sec 5
  let time := sec 6
  imageNodeHi img == 0 && field img 36 1 == 0 &&
  sectionTypes img [1, 2, 4, 5, 6, 8] (fun t => if t = 8 then 4 else 1) &&
  (n == 1 || n == 2) && chain.length == 8 + 272 * n && zeroBytes chain 1 7 &&
  (sec 2).length == 104 && zeroBytes (sec 2) 97 7 &&
  (match sectionOf img 3 with
   | none => true
   | some r => decide (field r 0 4 ≤ 65536) && zeroBytes r 4 4 && r.length == 8 + 8 * field r 0 4) &&
  die.length == 176 && zeroBytes die 44 20 &&
  links.length == 64 && zeroBytes links 18 2 && zeroBytes links 33 1 && zeroBytes links 38 26 &&
  time.length == 32 && zeroBytes time 16 16 &&
  (List.range 4).all (fun i => decide (field time (4 + 3 * i) 3 < 2 ^ 18)) &&
  (List.range 4).all (fun i => decide (i < field time 0 1) || decide (4 < field time 0 1) || field time (4 + 3 * i) 3 == 0) &&
  (match sectionOf img 7 with
   | none => true
   | some m =>
     let cols := if blkReduced m then 31 else 32
     m.length == 8 + 8 * cols && siteMapForm m cols) &&
  (sectionsOf img 8).all fun p => headerForm p containerMagic 2

/-- A rootstock image is valid (R332), of kind 1. -/
def rootstockValid (img : List Byte) : Bool :=
  pagesGood img && headerForm img containerMagic 1 && versionOk img rsTypes && sigForm img && rsForm img &&
  rootstockSigned img

/-- The fields of a valid rootstock, defaults applied (R333). -/
def rootstockOf (img : List Byte) : Rootstock :=
  let sec (t : Nat) : List Byte := (sectionOf img t).getD []
  let die := sec 4
  let l := sec 5
  let t := sec 6
  let revoked := (sectionOf img 3).getD []
  { seq := BitVec.ofNat 64 (imageSeq img), node := imageNode img, set := imageSet img
    compatLo := imageCompatLo img, compatHi := imageCompatHi img
    chain := (sec 1).drop 8, authority := slice (sec 2) 0 97
    revoked := (List.range (field revoked 0 4)).map fun i => BitVec.ofNat 64 (field revoked (8 + 8 * i) 8)
    setpoint := field die 0 2, paceThreshold := orDefault (field die 2 2) 940
    scrubEpochs := orDefault (field die 4 2) 1024, retireThreshold := orDefault (field die 6 2) 4096
    retired := (List.range 8).map fun i => BitVec.ofNat 32 (field die (8 + 4 * i) 4)
    harvestRetention := orDefault (field die 40 4) 65536, issueMode := slice die 64 112
    linkEnable := BitVec.ofNat 24 (field l 0 3), medium := BitVec.ofNat 24 (field l 3 3)
    encrypt := BitVec.ofNat 24 (field l 6 3), timeUpstreamMask := BitVec.ofNat 24 (field l 9 3)
    ceilings := BitVec.ofNat 48 (field l 12 6), laneDegrade := orDefault (field l 20 4) 65536
    timeoutA := orDefault (field l 24 2) 20, timeoutB := orDefault (field l 26 2) 1000
    timeoutC := orDefault (field l 28 2) 10000, stallLimit := orDefault (field l 30 2) 50
    maxHops := orDefault (field l 32 1) 12, admitTimeout := orDefault (field l 34 2) 200
    misbehaveLimit := orDefault (field l 36 2) 256
    roots := (List.range (min 4 (field t 0 1))).map fun i => field t (4 + 3 * i) 3
    rootLossEpochs := orDefault (field t 1 1) 16, holdoverLimit := orDefault (field t 2 2) 1024
    siteMap := sectionOf img 7, bootPlans := sectionsOf img 8 }

/-- A site map in reduced shape leaves the issue modes of column 31 zero (Table 15-6). -/
def issueModeOk (r : Rootstock) : Bool :=
  match r.siteMap with
  | none => true
  | some m => !blkReduced m || (List.range 28).all fun row => !bitAt (field r.issueMode (4 * row) 4) 31

/-- The fields lie in their ranges, and the rules of R334 hold. Log entry 79 (DEDUCED). -/
def rootstockConfig (img : List Byte) : Bool :=
  let r := rootstockOf img
  let nroots := field ((sectionOf img 6).getD []) 0 1
  within 700 900 r.setpoint && within 922 1023 r.paceThreshold && within 16 65535 r.scrubEpochs &&
  within 16 65535 r.retireThreshold && within 16 1048576 r.harvestRetention && within 1024 16777215 r.laneDegrade &&
  within 2 1000 r.timeoutA && within 100 16383 r.timeoutB && within 1000 16383 r.timeoutC &&
  within 5 16383 r.stallLimit && within 1 63 r.maxHops && within 50 2000 r.admitTimeout &&
  within 16 65535 r.misbehaveLimit && within 4 255 r.rootLossEpochs && within 64 65535 r.holdoverLimit &&
  within r.compatLo r.compatHi r.set && decide (nroots ≤ 4) && r.roots.all (· != 0) && decide r.roots.Nodup && issueModeOk r &&
  (List.range 24).all fun k => !r.linkEnable.getLsbD k || bits r.ceilings.toNat (2 * k) 2 != 0

def rootstockUsable (img : List Byte) : Bool := rootstockValid img && rootstockConfig img

/-! ## Plans (Tables 15-7 and 15-8) -/

def planTypes : List Nat := [0x10, 0x11, 0x12, 0x13, 0x14, 0x15, 0x16, 0x17, 0x18]

/-- The span of a record, and the record's bytes after it. -/
def spanRecOf (b : List Byte) : SpanRec :=
  let v := field b 0 8
  { kind := bits v 0 2, rowLo := bits v 2 5, rowHi := bits v 7 5, colLo := bits v 12 5, colHi := bits v 17 5
    body := b.drop 8 }

/-- A record's span is one of R200, or kind 0 for one core. -/
def spanForm (cols : Nat) (b : List Byte) : Bool :=
  let r := spanRecOf b
  bits (field b 0 8) 22 42 == 0 && decide (r.rowLo < 28) && decide (r.colLo < cols) &&
  (r.kind == 0 || (decide (r.rowLo ≤ r.rowHi) && decide (r.colLo ≤ r.colHi) && decide (r.rowHi < 28) && decide (r.colHi < cols) &&
    (r.kind != 1 || r.rowLo == r.rowHi) && (r.kind != 2 || r.colLo == r.colHi)))

/-- The record names core (row.col). -/
def SpanRec.names (r : SpanRec) (row col : Nat) : Bool :=
  if r.kind = 0 then r.rowLo == row && r.colLo == col
  else decide (r.rowLo ≤ row) && decide (row ≤ r.rowHi) && decide (r.colLo ≤ col) && decide (col ≤ r.colHi)

/-- Records of n bytes each. -/
def recordsOf (n : Nat) (b : List Byte) : List (List Byte) :=
  (List.range (b.length / n)).map fun i => slice b (n * i) n

/-- Records of IMAGES: span, first word, word count, 4 reserved bytes, the words. -/
def imageRecs : Nat → List Byte → Option (List (List Byte))
  | 0, _ => none
  | _ + 1, [] => some []
  | n + 1, b =>
    let len := 16 + 4 * field b 10 2
    if b.length < len then none else (imageRecs n (b.drop len)).map (b.take len :: ·)

def imageRecsOf (b : List Byte) : Option (List (List Byte)) := imageRecs (b.length / 16 + 1) b

/-- Every core of the grid is named by exactly one record. -/
def coversOnce (cols : Nat) (l : List SpanRec) : Bool :=
  (List.range 28).all fun r => (List.range cols).all fun c => (l.filter fun x => x.names r c).length == 1

def threadsForm (b : List Byte) : Bool :=
  (List.range 4).all (fun t => bits (field b 10 1) (2 * t) 2 != 0) && decide (field b 11 1 ≤ 4) &&
  bits (field b 18 2) 12 4 == 0 && bits (field b 20 2) 13 3 == 0 && zeroBytes b 22 2 &&
  (List.range 4).all (fun t => bits (field b (24 + 8 * t) 8) 54 10 == 0) && zeroBytes b 88 8

def imagesForm (b : List Byte) : Bool :=
  let first := field b 8 2
  let count := field b 10 2
  decide (first < 8192) && within 1 8192 count && decide (first + count ≤ 8192) && zeroBytes b 12 4

def scratchForm (b : List Byte) : Bool := (List.range 64).all fun k => bits (field b 8 16) (2 * k) 2 != 3

def queuesForm (b : List Byte) : Bool :=
  (List.range 3).all (fun q => bits (field b (8 + 4 * q) 4) 25 7 == 0) && zeroBytes b 25 7

/-- An entry of a handler table (Table 7-3); in an entry that is not valid only reserved bits count.
Log entry 79 (DEDUCED). -/
def handlerForm (v : Nat) : Bool :=
  bits v 0 2 == 0 && bits v 24 8 == 0 &&
  (!hValid v || (within 1 5 (hMax v) && (!hDirect v || bits v 2 13 == 0)))

def handlersForm (b : List Byte) : Bool := (List.range 256).all fun h => handlerForm (field b (8 + 4 * h) 4)

/-- The reserved bits of a route block (Table 15-9). -/
def routesForm (b : List Byte) : Bool :=
  b.length == blkSize && siteMapForm b 32 && (!blkReduced b || blkColEntry b 31 == 0) &&
  (List.range 32).all (fun c => (List.range 28).all fun r => bits (field b (3968 + 112 * c + 4 * r) 4) 28 4 == 0) &&
  (List.range 8649).all (fun i => decide (field b (7552 + i) 1 < 4)) &&
  (List.range 1280).all (fun i => bits (field b (26617 + 2 * i) 2) 11 5 == 0) &&
  (List.range 24).all (fun k => bits (blkFilter b k) 116 12 == 0)

/-- Variants: unit kind and unit, each with a route block. -/
def variantSize : Nat := 8 + blkSize
def variantRecs (b : List Byte) : List (List Byte) := recordsOf variantSize (b.drop 2)

/-- The bits of the unit field that a kind uses; those above are reserved (Table 16-2). -/
def unitBits (kind : Nat) : Nat :=
  if kind = 1 then 10 else if kind = 2 then 8 else if kind = 3 then 8 else if kind = 4 then 5 else 18

def variantsForm (b : List Byte) : Bool :=
  b.length == 2 + variantSize * field b 0 2 &&
  (variantRecs b).all fun v => within 1 5 (field v 0 1) && decide (field v 1 3 < 2 ^ unitBits (field v 0 1)) &&
    zeroBytes v 4 4 && routesForm (v.drop 8)

/-- Log entry 79 (DEDUCED). -/
def heartbeatForm (b : List Byte) : Bool :=
  let n := field b 0 1
  within 1 2 n && zeroBytes b 1 3 && b.length == 4 + 4 * n && (List.range n).all fun i => bits (field b (4 + 4 * i) 4) 12 20 == 0

/-- A section of span records: whole records, each well formed, each core named once. -/
def spanSection (cols n : Nat) (b : List Byte) (form : List Byte → Bool) : Bool :=
  b.length % n == 0 && (recordsOf n b).all (fun r => spanForm cols r && form r) &&
  coversOnce cols ((recordsOf n b).map spanRecOf)

/-- Header, directory and sections of a plan meet their layouts (Table 15-15, MALFORMED). -/
def planForm (img : List Byte) : Bool :=
  let sec (t : Nat) : List Byte := (sectionOf img t).getD []
  let cols := if imageReduced img then 31 else 32
  headerForm img containerMagic 2 && zeroBytes img 30 6 && bits (field img 36 1) 6 2 == 0 && sigForm img &&
  sectionTypes img [0x10, 0x11, 0x12, 0x13, 0x14, 0x15, 0x16, 0x17] (fun _ => 1) &&
  spanSection cols 96 (sec 0x10) threadsForm &&
  (match imageRecsOf (sec 0x11) with
   | none => false
   | some l => l.all fun r => spanForm cols r && imagesForm r) &&
  spanSection cols 32 (sec 0x12) scratchForm && spanSection cols 32 (sec 0x13) queuesForm &&
  spanSection cols 1032 (sec 0x14) handlersForm && routesForm (sec 0x15) &&
  (sec 0x16).length == 32 && zeroBytes (sec 0x16) 16 16 && heartbeatForm (sec 0x17) &&
  (match sectionOf img 0x18 with
   | none => true
   | some v => variantsForm v)

/-- The plan that a well-formed image holds. -/
def planOf (img : List Byte) : Plan :=
  let sec (t : Nat) : List Byte := (sectionOf img t).getD []
  let hb := sec 0x17
  { id := BitVec.ofNat 64 (imageSeq img), nodeLo := imageNode img, nodeHi := imageNodeHi img
    reduced := imageReduced img, givenCol := imageGiven img
    threads := (recordsOf 96 (sec 0x10)).map spanRecOf
    images := ((imageRecsOf (sec 0x11)).getD []).map spanRecOf
    scratch := (recordsOf 32 (sec 0x12)).map spanRecOf, queues := (recordsOf 32 (sec 0x13)).map spanRecOf
    handlers := (recordsOf 1032 (sec 0x14)).map spanRecOf, routes := sec 0x15
    capA := field (sec 0x16) 0 4, capB := field (sec 0x16) 4 4, capC := field (sec 0x16) 8 4
    aMinPeriod := field (sec 0x16) 12 4
    heartbeat := (List.range (field hb 0 1)).map fun i =>
      let e := field hb (4 + 4 * i) 4
      { row := bits e 0 5, col := bits e 5 5, thread := bits e 10 2 }
    variants := (variantRecs ((sectionOf img 0x18).getD [0, 0])).map fun v =>
      { kind := field v 0 1, unit := field v 1 3, block := v.drop 8 } }

/-! ## Records of one core -/

/-- The body of the record that names a core. -/
def recordFor (l : List SpanRec) (row col : Nat) : List Byte :=
  match l.find? fun r => r.names row col with
  | some r => r.body
  | none => []

/-- Fields of a THREADS record's body (Table 15-8, offsets less the span's 8 bytes). -/
def thrSlots (b : List Byte) : Nat := field b 0 2
def thrClass (b : List Byte) (t : Nat) : Nat := bits (field b 2 1) (2 * t) 2
def thrAWays (b : List Byte) : Nat := field b 3 1
def thrOwner (b : List Byte) : Nat := field b 4 6
def thrDmask (b : List Byte) : Nat := field b 10 2
def thrStale (b : List Byte) : Nat := field b 12 2
def thrWord (b : List Byte) (t : Nat) : Nat := field b (16 + 8 * t) 8
def thrCarried (b : List Byte) (t : Nat) : Bool := bitAt (thrWord b t) 27
def thrSeed (b : List Byte) (t : Nat) : Nat := field b (48 + 8 * t) 8

/-- The QUEUES values of a core: the three queue words, spill_b, and the retry limits, defaults applied
(R160, R165, R169). -/
structure QueueVals where
  words : List Nat
  spillB : Nat
  retry : List Nat
  deriving DecidableEq

def queueWord (base depth slots : Nat) : Nat := base + depth * 2 ^ 13 + slots * 2 ^ 22

def queueVals (b : List Byte) : QueueVals :=
  if zeroBytes b 0 17 then
    { words := [queueWord 0 32 5, queueWord 160 64 5, queueWord 480 64 5], spillB := 2048, retry := [32, 32, 32] }
  else
    { words := [field b 0 4, field b 4 4, field b 8 4], spillB := field b 12 2
      retry := [field b 14 1, field b 15 1, field b 16 1] }

/-! ## Checks of a plan (Table 15-15) -/

/-- Cores of a plan's shape. -/
def planCores (p : Plan) : List (Nat × Nat) :=
  (List.range 28).flatMap fun r => (List.range (if p.reduced then 31 else 32)).map fun c => (r, c)

/-- Physical column of logical column c for a given-up column (R199). -/
def physColumn (reduced : Bool) (given c : Nat) : Nat := if reduced && given ≤ c then c + 1 else c

/-- A site map keeps the shape, R196 and R197, and uses no site of a list. Log entry 79 (DEDUCED). -/
def siteMapOk (b : List Byte) (reduced : Bool) (given : Nat) (bad : List Nat) : Bool :=
  let cols := if reduced then 31 else 32
  blkReduced b == reduced && (!reduced || blkGiven b == given) &&
  (List.range cols).all (fun c => blkPc b c == physColumn reduced given c &&
    (List.range 28).all fun k =>
      decide (blkShift b c k ≤ 2) && (k == 27 || decide (blkShift b c k ≤ blkShift b c (k + 1))) &&
      !bad.contains (32 * (k + blkShift b c k) + blkPc b c)) &&
  (List.range (cols - 1)).all fun c => blkPc b (c + 1) != blkPc b c + 1 || (List.range 28).all fun k =>
    decide (blkShift b c k ≤ blkShift b (c + 1) k + 1) && decide (blkShift b (c + 1) k ≤ blkShift b c k + 1)

/-- No bit names a place outside the shape, and valid link entries hold link codes (R190, R267).
Log entry 79 (DEDUCED). -/
def routesOk (b : List Byte) (reduced : Bool) (given : Nat) : Bool :=
  let link (n : Nat) : Bool := decide (n < 24) || n == 31
  (!reduced ||
    ((List.range 28).all (fun k => (List.range 32).all fun s =>
        let m := field b (384 + 128 * k + 4 * s) 4
        if s = 31 then m == 0 else !bitAt m 31) &&
     (List.range 28).all (fun r => field b (3968 + 112 * given + 4 * r) 4 == 0) &&
     (List.range 93).all (fun a => (List.range 28).all fun r => !blkByColumn b a r 31))) &&
  (List.range 1280).all fun i =>
    let e := field b (26617 + 2 * i) 2
    !bitAt e 10 || (link (bits e 0 5) && link (bits e 5 5))

/-- Every thread owns a slot (R62). -/
def slotsOk (b : List Byte) : Bool :=
  (List.range 4).all fun t => (List.range 8).any fun s => bits (thrSlots b) (2 * s) 2 == t

/-- Slots of queue q. -/
def queueSlots (v : QueueVals) (q : Nat) : List Nat :=
  let w := v.words.getD q 0
  (List.range (bits w 13 9 * bits w 22 3)).map (· + bits w 0 13)

/-- R160, R165 and R169 for one core. -/
def queueLayoutOk (kinds : List Byte) (v : QueueVals) : Bool :=
  let depth (q : Nat) : Nat := bits (v.words.getD q 0) 13 9
  within 1 64 (depth 0) && decide (depth 1 ≤ 256) && decide (depth 2 ≤ 256) &&
  v.words.all (fun w => within 1 5 (bits w 22 3)) &&
  (List.range 3).all (fun q => (queueSlots v q).all fun n =>
    decide (n < 8192) && bits (field kinds 0 16) (2 * (n / 128)) 2 == 2) &&
  decide ((queueSlots v 0 ++ queueSlots v 1 ++ queueSlots v 2).Nodup) &&
  decide (v.spillB ≤ 4096) && v.retry.all (1 ≤ ·)

/-- No image record of the new plan writes a word of a carried thread's image (R79). -/
def carriedOk (old new : Plan) (row col : Nat) : Bool :=
  let b := recordFor new.threads row col
  let o := recordFor old.threads row col
  (List.range 4).all fun t => !thrCarried b t || (new.images.filter fun r => r.names row col).all fun r =>
    let first := field r.body 0 2
    let last := first + field r.body 2 2 - 1
    decide (last < bits (thrWord o t) 28 13) || decide (bits (thrWord o t) 41 13 < first)

def Plan.cap (p : Plan) : Cls → Nat
  | .a => p.capA
  | .b => p.capB
  | .c => p.capC

/-- The checks from order 4 on, in order: the code of the first that fails, or the plan. Log entry 79 (DEDUCED). -/
def State.planCheck (s : State) (img : List Byte) (old : Option Plan) : Except Nat Plan :=
  let p := planOf img
  let blocks := p.routes :: p.variants.map (·.block)
  let cores := planCores p
  let isolated := s.boot.failedSites ++ (s.units.filterMap fun u => match u.unit with
    | .site r c => if 2 ≤ u.st && u.st ≤ 5 then some (32 * r + c) else none
    | _ => none)
  if !pagesGood img then .error 2
  else if !planForm img then .error 1
  else if !versionOk img planTypes then .error 4
  else if !planSigned s.boot.rs img then .error 3
  else if !within p.nodeLo p.nodeHi s.boot.rs.node then .error 6
  else if p.reduced != s.boot.reduced || p.givenCol != (if s.boot.reduced then s.boot.givenCol else 0) then .error 7
  else if !blocks.all (fun b => siteMapOk b p.reduced p.givenCol isolated) then .error 8
  else if !blocks.all (fun b => routesOk b p.reduced p.givenCol) then .error 14
  else if !cores.all (fun c => slotsOk (recordFor p.threads c.1 c.2)) then .error 9
  else if (match old with
      | none => false
      | some o => !cores.all fun c => carriedOk o p c.1 c.2) then .error 11
  else if !cores.all (fun c => queueLayoutOk (recordFor p.scratch c.1 c.2) (queueVals (recordFor p.queues c.1 c.2))) then .error 12
  else if (match old with
      | none => false
      | some o => !cores.all fun c => queueVals (recordFor p.queues c.1 c.2) == queueVals (recordFor o.queues c.1 c.2)) then .error 13
  else if streamIds < p.capA + p.capB + p.capC || p.aMinPeriod < 1048576 ||
      p.capA < s.strm.openA || p.capB < s.strm.openB || p.capC < s.strm.openC then .error 15
  else .ok p

end Sys2Proof.Machine
end

