-- ==== Sys2Proof/Machine/Switch.lean ====
section
/-! DEFINITION. What a plan gives a core: loading a site (R146, R335, R356), the switch of a core to a new plan (R79,
R108, R135, R151, R155, R178), and the epoch boundary (R54). -/

namespace Sys2Proof.Machine

/-! ## Loading a core -/

/-- A seed of the stochastic-rounding generator; zero stores the constant of R99. -/
def srSeed (n : Nat) : W64 := if n % 2 ^ 64 = 0 then 0x9E3779B97F4A7C15#64 else BitVec.ofNat 64 n

/-- A thread starts as restarted (R79, R89, R167): entry pc, THR_FVEC and seed from the plan, its registers and its vector
state zero, its send_seq 0.  Log entry 82 (DEDUCED). -/
def Thread.restart (th : Thread) (word seed : Nat) : Thread :=
  { th with
    pc := BitVec.ofNat 13 (bits word 0 13) ++ 0#2
    x := Vector.replicate 32 0, f := Vector.replicate 32 0, v := Vector.replicate 32 0, m := Vector.replicate 8 0
    mx := Vector.replicate 4 0, badParity := [], poison := [], waiting := [], late := [], busyUntil := 0
    st := .run, block := .none, inFault := false, cause := 0, deferred := false, fpc := 0, faddr := 0
    fvecEntry := BitVec.ofNat 13 (bits word 13 13), fvecEnable := bitAt word 26
    flags := 0, rm := 1, lbeg := 0, lend := 0, loopActive := false, loopFrozen := false, lcnt := 0
    tcmp := BitVec.allOnes 64, yielded := false
    srState := srSeed seed, satLanes := 0, nanLost := false, scaleClamped := false, sendSeq := 0 }

/-- The slot table, classes, image ranges, window-cache ways, dispatch masks and stale entry of a THREADS record. -/
def Core.applyThreads (c : Core) (b : List Byte) : Core :=
  { c with
    slotOwner := BitVec.ofNat 16 (thrSlots b), aWays := BitVec.ofNat 3 (thrAWays b)
    dmask := BitVec.ofNat 12 (thrDmask b), staleEntry := BitVec.ofNat 13 (thrStale b)
    threads := Vector.ofFn fun (t : Fin 4) => { c.threads[t] with
      cls := BitVec.ofNat 2 (thrClass b t.val)
      imgFirst := bits (thrWord b t.val) 28 13, imgLast := bits (thrWord b t.val) 41 13 } }

/-- The handler table of a HANDLERS record. -/
def handlerTable (b : List Byte) : Tab W32 :=
  ((List.range 256).map fun h => (h, BitVec.ofNat 32 (field b (4 * h) 4))).filter fun e => e.2 != 0

/-- The words of every IMAGES record that names a core go into its instruction store, with good codes. -/
def Core.loadImages (c : Core) (p : Plan) (row col : Nat) : Core :=
  (p.images.filter fun r => r.names row col).foldl (fun c r =>
    let first := field r.body 0 2
    let n := field r.body 2 2
    { c with
      istore := (List.range n).foldl (fun t i => t.put (first + i) (BitVec.ofNat 32 (field r.body (8 + 4 * i) 4))) c.istore
      istoreBad := c.istoreBad.filter fun w => w < first || first + n ≤ w
      istoreFlip := c.istoreFlip.filter fun w => w < first || first + n ≤ w }) c

/-- Kind of region k in a SCRATCH record. -/
def scratchKind (b : List Byte) (k : Nat) : Nat := bits (field b 0 16) (2 * k) 2

/-- Regions whose kind a SCRATCH record changes. -/
def Core.changedRegions (c : Core) (b : List Byte) : List Nat :=
  (List.range 64).filter fun k => (c.kinds.at k 0).toNat != scratchKind b k

/-- Tags of the slots of some regions are set to their init_full (R135). -/
def Core.setRegionTags (c : Core) (init : Nat) (regions : List Nat) : Core :=
  regions.foldl (fun c k => c.setTags ((List.range 128).map (· + 128 * k)) (bitAt init k)) c

/-- Region kinds and init_full of a SCRATCH record; the regions given take their initial tags. -/
def Core.applyScratch (c : Core) (b : List Byte) (regions : List Nat) : Core :=
  { (c.setRegionTags (field b 16 8) regions) with
    kinds := ((List.range 64).map fun k => (k, BitVec.ofNat 2 (scratchKind b k))).filter fun e => e.2 != 0
    initFull := BitVec.ofNat 64 (field b 16 8) }

/-- The queue values of a QUEUES record. -/
def Core.applyQueues (c : Core) (b : List Byte) : Core :=
  let v := queueVals b
  { c with
    qcfg := Vector.ofFn fun (q : Fin 3) => BitVec.ofNat 32 (v.words.getD q.val 0)
    spillB := v.spillB
    retryLimit := Vector.ofFn fun (q : Fin 3) => BitVec.ofNat 8 (v.retry.getD q.val 0) }

/-- Threads that do not stay start anew (R79). Log entry 82 (DEDUCED). -/
def Core.restartThreads (c : Core) (b : List Byte) (stays : Nat → Bool) : Core :=
  { c with threads := Vector.ofFn fun (t : Fin 4) =>
      if stays t.val then c.threads[t] else c.threads[t].restart (thrWord b t.val) (thrSeed b t.val) }

def issueReady (rs : Rootstock) (row col : Nat) : Bool := bitAt (field rs.issueMode (4 * row) 4) col

/-- A site as a core takes it over at start or at a graft: every slot zero, every tag as its init_full, an empty
window cache, matrix registers as R108 says; the router's statistics go on. -/
def Core.fresh (old : Core) (rs : Rootstock) (p : Plan) (row col : Nat) : Core :=
  let thr := recordFor p.threads row col
  let c0 : Core := { readyMode := issueReady rs row col, injected := old.injected, delivered := old.delivered
                     transitRow := old.transitRow, transitCol := old.transitCol
                     aWaitMax := old.aWaitMax, aAheadMax := old.aAheadMax
                     tileOwn := BitVec.ofNat 48 (thrOwner thr) }
  ((((c0.applyThreads thr).applyScratch (recordFor p.scratch row col) (List.range 64)).applyQueues
    (recordFor p.queues row col)).loadImages p row col |>.restartThreads thr fun _ => false) |> fun c =>
      { c with handlers := handlerTable (recordFor p.handlers row col) }

/-- An isolated site, or one with no core: its threads issue nothing; its scratchpad keeps its contents (R356). -/
def Core.halt (c : Core) : Core :=
  { c with threads := Vector.ofFn fun (t : Fin 4) => { c.threads[t] with st := .park, block := .none } }

/-! ## A core switches to the plan in force -/

/-- A matrix register as R108 leaves it is the default one. -/
def Core.clearMreg (c : Core) (code : Nat) : Core := { c with mregs := c.mregs.del code }

/-- Matrix registers that a switch clears: those of threads that do not stay, and those whose owner changes (R108). -/
def Core.goneRegs (c : Core) (b : List Byte) (stays : Nat → Bool) : List Nat :=
  let owner (v c : Nat) : Nat := bits v (3 * c) 3
  let old := c.tileOwn.toNat
  (List.range 16).filter fun r =>
    owner old r != owner (thrOwner b) r || (decide (4 ≤ owner old r) && !stays (owner old r % 4))

/-- They are cleared, and the owners are the new plan's (R108). Log entry 120 (DESIGN CHOICE). -/
def Core.switchMatrix (c : Core) (b : List Byte) (stays : Nat → Bool) : Core :=
  { ((c.goneRegs b stays).foldl Core.clearMreg c) with
    tileOwn := BitVec.ofNat 48 (thrOwner b), lateMat := [] }

/-- Rows of a tile store that the port still holds are moved: at most n. -/
def State.drainOp (s : State) (site id : Nat) : Nat → State
  | 0 => s
  | n + 1 =>
    match (s.core site).tileOps.find? (·.id == id) with
    | none => s
    | some op =>
      match op.nextRow with
      | none => s
      | some r => (s.portStore site op r).drainOp site id n

/-- Tile stores from registers that are about to be cleared complete first (R79, R108). -/
def State.drainStores (s : State) (site : Nat) (gone : List Nat) : State :=
  (((s.core site).tileOps).filter fun o => o.store && gone.contains o.reg.toNat).foldl
    (fun s o => s.drainOp site o.id o.rows.length) s

/-- Entries claimed by threads that are restarted are released; how many they were (R178). -/
def Queue.releaseClaims (q : Queue) (stays : Nat → Bool) : Queue × Nat :=
  let gone (e : QEntry) : Bool := match e.st with
    | .claimed t => !stays t.toNat
    | _ => false
  (({ q with live := q.live.map fun e => if gone e then { e with st := .released } else e }).reclaim,
    (q.live.filter gone).length)

def Core.releaseClaims (c : Core) (stays : Nat → Bool) : Core × Nat :=
  let r := c.queues.map fun q => q.releaseClaims stays
  ({ c with queues := r.map (·.1) }, (r.map (·.2)).toList.sum)

/-- Loads and tile loads of a restarted thread are lost; its stores go on. Log entry 82 (DEDUCED). -/
def Core.dropThreadWork (c : Core) (stays : Nat → Bool) : Core :=
  { c with
    loads := c.loads.filter fun l => stays l.thread.toNat
    tileOps := c.tileOps.filter fun o => stays o.thread.toNat || o.store }

/-- The words of the instruction store that stay: those in the image of a thread that stays (R79); every other word that
the new plan does not load reads zero (R58). Log entry 121 (DEDUCED). -/
def Core.keepImages (c : Core) (stays : Nat → Bool) : Core :=
  let kept (w : Nat) : Bool := (List.finRange 4).any fun t =>
    stays t.val && decide (c.threads[t].imgFirst ≤ w) && decide (w ≤ c.threads[t].imgLast)
  { c with
    istore := c.istore.filter fun e => kept e.1
    istoreBad := c.istoreBad.filter kept
    istoreFlip := c.istoreFlip.filter kept }

/-- The window cache is empty, and fills in flight are not installed (R151). -/
def Core.emptyCache (c : Core) : Core :=
  { c with wc := [], victim := [], fills := c.fills.map fun f => { f with noInstall := true } }

/-- A carried thread that is blocked on a slot of a changed region leaves BLOCK with KINDCHANGE (R155). -/
def State.kindChange (s : State) (site : Nat) (regions : List Nat) (t : BitVec 2) : State :=
  match (s.thr site t).block with
  | .tagged w =>
    match w.slots.find? fun n => regions.contains (n / 128) with
    | some n => s.raise site t { cause := 0x34, addr := BitVec.ofNat 64 n }
    | none => s
  | _ => s

/-- Rows of tile loads that wait in a changed region fault with reason 4 (R155). -/
def State.kindRows (s : State) (site : Nat) (regions : List Nat) : State :=
  ((s.core site).tileOps).foldl (fun s op =>
    match op.rows.find? fun p => match p.2 with
      | .slots _ => ((s.core site).rowSlots (op.rowAddr p.1) op.rowSize).any fun n => regions.contains (n / 128)
      | _ => false with
    | some p => s.setRowSt site op p.1 (.faulted 4)
    | none => s) s

/-- A core applies the plan in force, in one step; the threads that stay are those that the plan carries, and none where
the core has come to this site, whose scratchpad, tags and queue entries stay in every case (R79, R133, R135, R146, R178).
Log entry 81 (DESIGN CHOICE). -/
def State.switchCore (s : State) (site row col : Nat) (p : Plan) (moved : Bool) : State :=
  let b := recordFor p.threads row col
  let sc := recordFor p.scratch row col
  let stays (t : Nat) : Bool := !moved && thrCarried b t
  let regions := (s.core site).changedRegions sc
  let s0 := s.drainStores site ((s.core site).goneRegs b stays)
  let s1 := s0.modCore site fun c => (c.dropThreadWork stays).restartThreads b stays
  let s2 := (([0, 1, 2, 3] : List (BitVec 2)).foldl (fun s t => s.kindChange site regions t) s1).kindRows site regions
  let r := (s2.core site).releaseClaims stays
  let c := ((((r.1.keepImages stays).switchMatrix b stays).applyThreads b).applyScratch sc regions)
  let c1 := ((c.applyQueues (recordFor p.queues row col)).loadImages p row col).emptyCache
  (s2.setCore site { c1 with handlers := handlerTable (recordFor p.handlers row col)
                             readyMode := issueReady s.boot.rs row col }).countN Ev.scnSwitchDrop site r.2

/-- After any running MMA, the core at a site that the switch reached applies the new plan. -/
def execCorePlanSwitch (core : CoreAt) (s : State) : Out :=
  match s.siteOf core.row.toNat core.col.toNat, s.boot.plan with
  | some site, some p =>
    if !s.switchDue.contains site || (s.core site).mma.isSome then .next s
    else
      let row := core.row.toNat
      let col := core.col.toNat
      let s1 := { s with switchDue := s.switchDue.filter (· != site) }
      .next (s1.switchCore site row col p (blkCore (s.bank (1 - s.bankNow)).block row col != some site))
  | _, _ => .next s

/-! ## The epoch boundary (R54) -/

/-- Sites whose logical core differs between two route blocks, or that only the first has in service. -/
def changedSites (old new : List Byte) : List Nat :=
  (List.range 960).filter fun n =>
    (blkCoreOf old n).filter (fun _ => blkInService old n) != (blkCoreOf new n).filter (fun _ => blkInService new n)

/-- A queue with the spill partition of another. -/
def Queue.withSpill (q p : Queue) : Queue := { q with spilling := p.spilling, head := p.head, tail := p.tail, spill := p.spill }

/-- At a plan switch that moves cores the spill partitions, which belong to the logical positions, stay with them, and so
do the spill bursts that wait for their commit; an entry that was being read is read again (R178, R209). -/
def State.moveSpills (s : State) (old new : List Byte) : State :=
  (changedSites old new).foldl (fun t n =>
    let from' : Option Nat := (blkCoreOf new n).bind fun rc => blkCore old rc.1 rc.2
    let was : Core := match from' with
      | some m => s.core m
      | none => {}
    t.modCore n fun c => { c with
      queues := Vector.zipWith Queue.withSpill c.queues was.queues, spillWaits := was.spillWaits, refills := [] }) s

/-- At S the next plan, or the next bank, is in force (R344, R347, R355). -/
def State.switchBanks (s : State) : State :=
  match s.boot.next with
  | none => s
  | some n =>
    if s.epoch < n.epoch then s
    else
      let old := (s.bank s.bankNow).block
      let new := (s.bank (1 - s.bankNow)).block
      let s0 := if n.plan.isSome then s.moveSpills old new else s
      let s1 := { s0 with
        bankNow := 1 - s.bankNow
        boot := { s.boot with next := none, lastSwitch := some n.epoch, plan := n.plan.or s.boot.plan } }
      match n.plan with
      | some _ => { s1 with switchDue := (List.range 960).filter fun k => blkInService new k && (blkCoreOf new k).isSome }
      | none => { s1 with awaiting := changedSites old new }

/-- A correctable cause of Table 14-7 stands. Log entry 106 (DEDUCED). -/
def State.correctable (s : State) : Bool :=
  s.pace.alarm ||
  s.cores.any (fun c => c.2.threads.any (·.st == .stop)) ||
  s.memStacks.any (fun k => k.2.chans.any (·.2.st == .failed)) ||
  s.links.any (fun l => decide (8 ≤ l.2.n)) ||
  (s.time.syncState == syncUnsync && !s.boot.rs.roots.isEmpty) ||
  (match s.ueEpoch with
   | some e => decide (s.epoch ≤ e + 1)
   | none => false)

/-- MOD_ERR_CORR_N is released at the first boundary at which no cause stands; while MOD_ERR_FATAL_N is asserted
it holds its level (R327). Log entry 106 (DEDUCED). -/
def State.releaseCorr (s : State) : State :=
  if s.errFatal || s.correctable then s else { s with errCorr := false }

/-- The pace alarm clears after a whole epoch that met every clear condition (R39); a waived envelope keeps it
(R36). -/
def State.paceBoundary (s : State) : State :=
  let clear := s.pace.alarm && s.pace.clean && s.pace.whole && !s.pace.waived
  let s1 := { s with pace := { s.pace with clean := true, whole := true, alarm := s.pace.alarm && !clear } }
  if clear then s1.report .paceAlarm else s1

/-- The class A waits of the epoch that ends become readable (Table 8-7). -/
def State.ringBoundary (s : State) : State :=
  let note (s : State) (site : Nat) : State := s.modCore site fun c => { c with
    aWaitMax := BitVec.ofNat 16 (min 65535 (s.rings.aWait.at site 0))
    aAheadMax := BitVec.ofNat 16 (min 65535 (s.rings.aAhead.at site 0)) }
  let sites := (s.rings.aWait.map (·.1) ++ s.rings.aAhead.map (·.1) ++ s.cores.map (·.1)).filter (· < 960)
  let s1 := sites.foldl note s
  { s1 with rings := { s1.rings with aWait := [], aAhead := [] } }

/-- The units of the die observe a boundary. -/
def State.unitsBoundary (s : State) : State :=
  let s1 := (s.links.map (·.1)).foldl (fun s k => s.linkBoundary k) s
  let s2 := (s1.memStacks.map (·.1)).foldl (fun s k => s.stackBoundary k) s1
  s2.ringBoundary

/-- STATE_SUMMARY at every boundary whose epoch number is a multiple of 64 (R411). Log entry 110 (DEDUCED). -/
def State.summaryBoundary (s : State) : State := if s.epoch % 64 = 0 then s.report .stateSummary else s

/-- Chip time passes the next boundary, and every unit observes it. Log entries 5 (DESIGN CHOICE), 19 (DESIGN CHOICE). -/
def execEpochBoundary (s : State) : Out :=
  if !s.alive then .next s
  else
    let e := s.time.epochSeen + 1
    let s1 := (s.advanceTo (e * 2 ^ 20)).modTime fun t => { t with epochSeen := e }
    .next (s1.paceBoundary.switchBanks.unitsBoundary.timeBoundary.summaryBoundary.releaseCorr)

end Sys2Proof.Machine
end

