-- ==== Sys2Proof/Machine/Start.lean ====
section
/-! DEFINITION. Power, reset and the start sequence (R42, R198, R204, R337 to R340, R421). -/

namespace Sys2Proof.Machine

/-! ## The site map of start (R198) -/

/-- Shifts of a column filled from its lowest good sites, if 28 of them are good. -/
def fillColumn (failed : List Nat) (pc : Nat) : Option (List Nat) :=
  let good := (List.range 30).filter fun r => !failed.contains (32 * r + pc)
  if good.length < 28 then none else some ((List.range 28).map fun k => good.getD k 0 - k)

/-- The SITEMAP bytes of a filled map. -/
def fillMap (failed : List Nat) (reduced : Bool) (given : Nat) : List Byte :=
  let cols := if reduced then 31 else 32
  let entry (c : Nat) : Nat :=
    let pc := physColumn reduced given c
    let sh := (fillColumn failed pc).getD []
    ((List.range 28).map fun k => sh.getD k 0 * 4 ^ k).sum + pc * 2 ^ 56
  [BitVec.ofNat 8 ((if reduced then 1 else 0) + (if reduced then given * 2 else 0))] ++ List.replicate 7 0 ++
  ((List.range cols).flatMap fun c => leBytes 8 (entry c)) ++ (if reduced then List.replicate 8 0 else [])

/-- Every column but the one given up has 28 good sites, and the filled map is legal. -/
def fillLegal (failed : List Nat) (reduced : Bool) (given : Nat) : Bool :=
  ((List.range 32).all fun pc => (reduced && pc == given) || (fillColumn failed pc).isSome) &&
  siteMapOk (fillMap failed reduced given) reduced (if reduced then given else 0) failed

/-- The column given up: most failed sites, then lowest. -/
def givenColumn (failed : List Nat) : Option Nat :=
  let bad (pc : Nat) : Nat := (failed.filter fun n => n % 32 == pc).length
  let l := (List.range 32).filter (fillLegal failed true)
  l.find? fun g => l.all fun h => decide (bad h ≤ bad g)

/-- The map that the die builds: full if it can be, else reduced; in the shape given, if one is fixed already (R199). -/
def builtMap (failed : List Nat) (fixed : Option (Bool × Nat)) : Option (List Byte × Bool × Nat × Bool) :=
  match fixed with
  | some (reduced, g) => if fillLegal failed reduced g then some (fillMap failed reduced g, reduced, g, true) else none
  | none =>
    if fillLegal failed false 0 then some (fillMap failed false 0, false, 0, true)
    else (givenColumn failed).map fun g => (fillMap failed true g, true, g, true)

/-- The start site map, whether it is reduced, the column given up, and whether the die built it. -/
def startSiteMap (rs : Rootstock) (failed : List Nat) (fixed : Option (Bool × Nat)) : Option (List Byte × Bool × Nat × Bool) :=
  match rs.siteMap with
  | some m =>
    let reduced := blkReduced m
    let given := if reduced then blkGiven m else 0
    if siteMapOk m reduced given failed && fixed.all (· == (reduced, given)) then some (slice m 0 264, reduced, given, false)
    else builtMap failed fixed
  | none => builtMap failed fixed

/-! ## Reset -/

/-- The die with no power: what the flash holds stays, and so do the tray and the commands that wait. -/
def State.blank (s : State) (powered : Bool) : State :=
  { State.reset with
    boot := { powered := powered, flashA := s.boot.flashA, flashB := s.boot.flashB }
    pending := s.pending, free := s.free, tray := s.tray }

/-- A stack over a reset without a power cycle: its channels keep their states, but for a relocation, whose channel is
RETIRED (Table 9-6). Log entry 77 (DEDUCED). -/
def Stack.overReset (k : Stack) : Stack :=
  { chans := k.chans.map fun c =>
      (c.1, ({ st := if c.2.st = .isolated then .retired else c.2.st } : Chan))
    areaUsed := k.areaUsed, moves := k.moves }

/-- The die held in reset with its power kept: the locked configuration and its image stay, with the shape, a waived
envelope and its alarm, the channel states, and MOD_ERR_CORR_N where one of these causes stands (R24, R36, R199, Tables
9-6 and 14-7). Log entry 77 (DEDUCED). -/
def State.heldReset (s : State) : State :=
  let b := s.blank true
  let alarm := s.pace.waived && s.pace.alarm
  { b with
    boot := { b.boot with
      locked := s.boot.locked, rs := s.boot.rs, image := s.boot.image, planHashes := s.boot.planHashes
      shaped := s.boot.shaped, reduced := s.boot.reduced, givenCol := s.boot.givenCol }
    pace := { b.pace with waived := s.pace.waived, alarm := alarm }
    memStacks := s.memStacks.map fun k => (k.1, k.2.overReset)
    errCorr := s.errCorr && (alarm || s.memStacks.any fun k => k.2.chans.any (·.2.st == .failed)) }

/-! ## Steps of start (Table 15-11) -/

/-- The image that the straps name, or a failure reason (R337, Table 15-12): true for image B. -/
def chooseImage (a b : List Byte) (straps : BitVec 2) : Except Nat Bool :=
  let named := if straps = 1 then b else a
  let none : Except Nat Bool := .error (if rootstockValid named then 2 else 1)
  if straps = 0 then (if rootstockUsable a then .ok false else none)
  else if straps = 1 then (if rootstockUsable b then .ok true else none)
  else if rootstockUsable a && (!rootstockUsable b || decide (imageSeq b ≤ imageSeq a)) then .ok false
  else if rootstockUsable b then .ok true
  else none

/-- The link has been trained. -/
def Link.trained (l : Link) : Bool := l.st == 3 || l.live

/-- A start that cannot complete stops with its reason: every trained link is held in QUARANTINED with reason DISABLED,
and no link trains any more (R340). Log entry 78 (DESIGN CHOICE). -/
def State.startFail (s : State) (step reason planReason : Nat) : State :=
  let s1 := { s with
    boot := { s.boot with step := BitVec.ofNat 4 step, reason := BitVec.ofNat 4 reason, planReason := BitVec.ofNat 5 planReason }
    errFatal := true
    reports := s.reports ++ [ReportKind.startFailed] }
  let s2 := (List.range 24).foldl (fun s k => if (s.link k).trained then s.quarantine k 10 else s) s1
  { s2 with links := s2.links.map fun e => if e.2.st = 2 then (e.1, { e.2 with st := 1 }) else e }

/-- The chosen image's configuration locks, with the SHA-384 of each of its boot plans (R24, R338). -/
def State.applyImage (s : State) (second : Bool) : State :=
  let rs := rootstockOf (if second then s.boot.flashB else s.boot.flashA)
  { s with boot := { s.boot with image := second, locked := true, rs := rs, planHashes := rs.bootPlans.map sha384 } }

/-- Step 3: the configuration is in force and this module's own chain is judged (R285); a setpoint below 750 mV waives the guarantee envelope, and listed roots are
not followed yet (R36, R271, R327). -/
def State.startConfig (s : State) : State :=
  let rs := s.boot.rs
  let s1 := { s with
    boot := { s.boot with step := 3, ownOk := s.identityOk }
    links := (List.range 24).map fun k => (k, ({ st := if rs.linkEnable.getLsbD k then 1 else 0 } : Link)) }
  let s2 := if rs.setpoint < 750 then { s1 with pace := { s1.pace with waived := true } }.raiseAlarm else s1
  if rs.roots.isEmpty then s2 else s2.assertCorr

/-- Channels that start RETIRED: they failed training, the rootstock lists them, or they were so before a reset; but not
one that is the stack's room (R204, R227). Log entry 77 (DEDUCED). -/
def State.startRetired (s : State) (failed : List (Nat × Nat)) (k : Nat) : List Nat :=
  (List.range 32).filter fun c =>
    let st := ((s.stack k).chan c).st
    (s.boot.rs.retired.getD k 0).getLsbD c && st != .spare && st != .failed || failed.contains (k, c) || st == .retired

/-- Step 5: the stacks are trained and zeroed, or start stops. -/
def State.startStacks (s : State) (env : StartEnv) : Option State :=
  let r := s.startRetired env.failedChans
  if !env.untrained.isEmpty || (List.range 8).any (fun k => decide (1 < (r k).length)) then none
  else some { s with
    mem := [], memBad := [], strm := {}
    memStacks := (List.range 8).map fun k =>
      let old := s.stack k
      let rest := (List.range 32).filter fun c => !(r k).contains c && ((old.chan c).st == .failed || (old.chan c).st == .spare)
      (k, ({ chans := (r k).map (fun c => (c, ({ st := .retired } : Chan))) ++ rest.map fun c =>
               (c, ({ st := (old.chan c).st } : Chan))
             moves := old.moves ++ ((r k).filter fun c => !old.moves.any (·.chan == c)).map fun c => { chan := c, spare := none }
             areaUsed := !(r k).isEmpty || old.areaUsed } : Stack)) }

/-- The state that an answer gives. -/
def nextOf (s : State) (o : Out) : State :=
  match o with
  | .next t => t
  | _ => s

/-- One event of a link port in step 6. -/
def State.linkEvent (s : State) (e : LinkEvent) : State :=
  nextOf s (match e with
    | .signalDetect k => execSignalDetect k s
    | .signalLoss k => execSignalLoss k s
    | .phyTrainingDone k => execPhyTrainingDone k s
    | .trainFrameTimer k => execTrainFrameTimer k s
    | .train k => execTrain k s
    | .trainingTimeout k => execTrainingTimeout k s
    | .admitEngineStart => execAdmitEngineStart s
    | .hello k => execAdmitHello k s
    | .prove k => execAdmitProve k s
    | .result k => execAdmitResult k s
    | .admitResend k => execAdmitResend k s
    | .admitTimeout k => execAdmitTimeout k s
    | .backoffEnd k => execQuarantineBackoffEnd k s
    | .frameBuild k => execFrameBuild k s
    | .frameReceive k b fec => execFrameReceive k b fec s)

/-- Step 6: the links train and are admitted as far as they come (R271, R293); what the links meet afterwards comes by
commands. Log entry 78 (DESIGN CHOICE). -/
def State.startLinks (s : State) (env : StartEnv) : State :=
  let t := env.links.foldl State.linkEvent { s with boot := { s.boot with step := 6 } }
  t.modTime fun x => { x with epochSeen := max x.epochSeen (t.now / 2 ^ 20) }

/-- A moment of the old chip time, on the new one. -/
def moved (old new t : Nat) : Nat := t + new - old

/-- A link's moments follow chip time as it is set. Log entry 18 (DESIGN CHOICE). -/
def Link.moved (l : Link) (old new : Nat) : Link :=
  let f := Sys2Proof.Machine.moved old new
  { l with
    since := f l.since, lockAt := f l.lockAt, backoffEnd := f l.backoffEnd, aWindow := 0
    waitFrom := l.waitFrom.map fun e => (e.1, f e.2), creditFrom := l.creditFrom.map fun e => (e.1, f e.2)
    adm := { l.adm with sentAt := f l.adm.sentAt }
    sess := { l.sess with
      nakAt := f l.sess.nakAt, heldAt := f l.sess.heldAt
      recs := l.sess.recs.map fun r => { r with deadline := f r.deadline } } }

/-- What step 7 heard can be: it comes over a link that is UP and may give time, from a partner that follows a listed
root (R46, R49). -/
def State.acquires (s : State) (a : Acquired) : Bool :=
  s.timeLinks.contains a.link && decide (a.rootIndex < s.boot.rs.roots.length) && within 1 63 a.stratum

/-- Step 7: chip time and the state of synchronisation that acquisition leaves (R42, R52, R428).
Log entry 18 (DESIGN CHOICE). -/
def State.startTime (s : State) (got : Option Acquired) : State :=
  let roots := s.boot.rs.roots
  match got.filter s.acquires with
  | some a =>
    let new := a.now.toNat
    let e := new / 2 ^ 20
    let node := roots.getD a.rootIndex 0
    { s with
      links := s.links.map fun l => (l.1, l.2.moved s.now new)
      pace := { s.pace with windowVoid := true, whole := false, windowAt := new, convAt := new, sampleAt := new }
      time := { s.time with
        clock := BitVec.ofNat 104 (new <<< 40), epochSeen := e, syncState := syncLocked, lockedAt := new, reqAt := new
        rootIndex := a.rootIndex, rootNode := node, stratum := a.stratum, upstream := a.link
        rootHeld := s.time.rootHeld.put a.rootIndex e
        announces := s.time.announces.put a.link
          { rootIndex := a.rootIndex, rootNode := node, syncState := syncLocked, stratum := a.stratum - 1 } } }
  | none =>
    match s.ownRoot with
    | some j => s.modTime fun t => { t with
        syncState := syncLocked, lockedAt := s.now, rootIndex := j, rootNode := s.boot.rs.node, stratum := 0, mayAnnounce := true }
    | none => s

/-- Step 8: the first boot plan of the die's shape is read again from the image in use.  Its SHA-384 must be the one
recorded, and it meets the checks of a plan; else the plan reason, and whether a check refused it (R338, R339, R340).
Log entry 80 (DEDUCED). -/
def State.startPlan (s : State) : Except (Nat × Bool) Plan :=
  let plans := sectionsOf (if s.boot.image then s.boot.flashB else s.boot.flashA) 8
  match (plans.zip s.boot.planHashes).find? fun p => imageReduced p.1 == s.boot.reduced && imageGiven p.1 == s.boot.givenCol with
  | none => .error (7, true)
  | some (img, h) =>
    if sha384 img != h then .error (0, false)
    else
      match s.planCheck img none with
      | .error code => .error (code, true)
      | .ok p => .ok p

/-- The plan's cores are loaded on their sites. -/
def State.loadCores (s : State) (p : Plan) : State :=
  (planCores p).foldl (fun s c =>
    match blkCore p.routes c.1 c.2 with
    | some site => s.modCore site fun k => k.fresh s.boot.rs p c.1 c.2
    | none => s) s

/-- The boot plan goes into both route banks and becomes the plan in force; bank 1 counts as loaded only once a next
plan is (Table 8-7). Log entry 50 (DEDUCED). -/
def State.startInForce (s : State) (p : Plan) : State :=
  let s1 := { s with
    banks := #v[{ loaded := true, block := p.routes }, { loaded := false, block := p.routes }], bankNow := 0
    boot := { s.boot with plan := some p, step := 8, ready := true, readyEpoch := s.time.epochSeen } }
  s1.loadCores p

/-- A plan was refused: counted, and its code kept (R343). Log entry 80 (DEDUCED). -/
def State.refusePlan (s : State) (code : Nat) : State :=
  { s with boot := { s.boot with lastRefusal := BitVec.ofNat 5 code, refusals := s.boot.refusals + 1 } }

/-- The boot controller's self-test fails at a step, or what the step does (Table 15-12, DIE). -/
def State.atStep (s : State) (env : StartEnv) (step : Nat) (go : State → State) : State :=
  if env.dieFail = some step then s.startFail step 6 0 else go s

/-- Step 8 and its end. -/
def State.startLast (s : State) : State :=
  match s.startPlan with
  | .error (code, refused) => (if refused then s.refusePlan code else s).startFail 8 5 code
  | .ok p => s.startInForce p

/-- Steps 4 to 8. -/
def State.startRest (s : State) (env : StartEnv) : State :=
  s.atStep env 4 fun s =>
    match startSiteMap s.boot.rs env.failedSites (if s.boot.shaped then some (s.boot.reduced, s.boot.givenCol) else none) with
    | none => s.startFail 4 3 0
    | some (m, reduced, given, built) =>
      let s1 := { s with boot := { s.boot with
        startMap := m, shaped := true, reduced := reduced, givenCol := given, recomputed := built
        failedSites := env.failedSites } }
      s1.atStep env 5 fun s =>
        match s.startStacks env with
        | none => s.startFail 5 4 0
        | some s2 =>
          s2.atStep env 6 fun s =>
            (s.startLinks env).atStep env 7 fun s => (s.startTime env.acquired).atStep env 8 fun s => s.startLast

/-- Step 2: the image of a module whose configuration is locked is the one in use; else the straps choose it (R24, R337). -/
def State.startImage (s : State) : Except Nat Bool :=
  if s.boot.locked then .ok s.boot.image else chooseImage s.boot.flashA s.boot.flashB s.boot.straps

/-- MOD_RESET_N is released: the straps are sampled and start runs, or the boot controller holds.  The flash chooses an
image only when no configuration is locked (R24).
Log entries 4 (DESIGN CHOICE), 8 (DESIGN CHOICE), 77 (DEDUCED), 78 (DESIGN CHOICE). -/
def execModResetNRelease (env : StartEnv) (s : State) : Out :=
  if !s.boot.powered || !s.boot.inReset then .next s
  else
    let b := s.heldReset
    let s1 := { b with
      boot := { b.boot with inReset := false, straps := env.straps, step := 1 }
      pace := { b.pace with clean := true, whole := true } }
    .next (s1.atStep env 1 fun s =>
      if env.straps = 3 then s
      else s.atStep env 2 fun s =>
        match s.startImage with
        | .error reason => s.startFail 2 reason 0
        | .ok second => s.atStep env 3 fun s => (if s.boot.locked then s else s.applyImage second).startConfig.startRest env)

/-- The boot plan's threads start at the first boundary after step 8, and the heartbeat is armed (R80, R339).
Log entry 4 (DESIGN CHOICE). -/
def execBootPlanThreadStart (s : State) : Out :=
  if s.alive && s.boot.ready && !s.boot.running && decide (s.boot.readyEpoch < s.epoch) then
    .next { s with boot := { s.boot with step := 9, running := true } }.armHb
  else .next s

/-- MOD_RESET_N is asserted: the die is held in reset, and loses all but what stands until power goes.
Log entry 77 (DEDUCED). -/
def execModResetNAssert (s : State) : Out :=
  if s.boot.powered && !s.boot.inReset then .next s.heldReset else .next s

/-- MOD_PWR_EN powers or unpowers the main regulators. -/
def execModPwrEnChange (on : Bool) (s : State) : Out :=
  if s.boot.powered == on then .next s else .next (s.blank on)

/-- The blade input is below 36 V for more than 100 us: the die is unpowered, as after MOD_PWR_EN low.
Log entry 100 (DEDUCED). -/
def execInputUndervoltage (s : State) : Out := .next (if s.boot.powered then s.blank false else s)

end Sys2Proof.Machine
end

