-- ==== Sys2Proof/Machine/Install.lean ====
section
/-! DEFINITION. Management messages, and the installing of plans (R341 to R346). -/

namespace Sys2Proof.Machine

/-! ## Management messages on a link -/

/-- Payload bytes of the flits after the header flit. -/
def mgmtBody (msg : List LFlit) : List Byte := (msg.drop 1).flatMap fun f => lineBytes f.payload

/-- The die's answer to a management request: kind 0xB on VC 7, lost if the link has dropped. -/
def State.mgmtReply (s : State) (k : Nat) (dst : BitVec 18) (txn : BitVec 12) (payload : List Byte) : State :=
  if !(s.link k).live || (s.link k).partnerNode != dst then s
  else s.queueFlit k 7
    { kind := 11, cls := 2, resp := true, index := 0, last := true, dst := dst, src := BitVec.ofNat 18 s.boot.rs.node
      hops := BitVec.ofNat 6 s.boot.rs.maxHops, txn := txn, payload := bytesLine payload }

/-- A message that the die sends on VC 7 as a request of its own (DATA, R350, R371). Log entry 71 (DESIGN CHOICE). -/
def State.mgmtSend (s : State) (k : Nat) (dst : BitVec 18) (header body : List Byte) : State :=
  let n := (body.length + 63) / 64
  if !(s.link k).live || (s.link k).partnerNode != dst then s
  else (List.range (n + 1)).foldl (fun s i => s.queueFlit k 7
    { kind := 10, cls := 2, resp := false, index := BitVec.ofNat 6 i, last := i == n, dst := dst
      src := BitVec.ofNat 18 s.boot.rs.node, hops := BitVec.ofNat 6 s.boot.rs.maxHops
      txn := 0, payload := bytesLine (if i = 0 then header else slice body (64 * (i - 1)) 64) }) s

/-! ## Install sessions -/

/-- Pages received whole: both of a page's chunks are in. -/
def Session.whole (x : Session) : Nat :=
  ((List.range x.pages).filter fun p => (x.chunks.find (2 * p)).isSome && (x.chunks.find (2 * p + 1)).isSome).length

def Session.image (x : Session) : List Byte := (List.range (2 * x.pages)).flatMap fun c => x.chunks.at c []

/-- PLAN_STATUS (Table 15-14). Log entry 83 (DEDUCED). -/
def State.planStatus (s : State) (op code : Nat) : List Byte :=
  let next : Option NextBank := s.boot.next.filter (·.plan.isSome)
  let id (p : Option Plan) : Nat := match p with
    | some q => q.id.toNat
    | none => 0
  [BitVec.ofNat 8 (0x20 + op), BitVec.ofNat 8 code] ++
  leBytes 2 (match s.boot.session with
    | some x => x.id
    | none => 0) ++
  leBytes 4 (match s.boot.session with
    | some x => x.whole
    | none => 0) ++
  leBytes 8 (match next with
    | some n => n.epoch
    | none => 0) ++
  leBytes 8 (id s.boot.plan) ++ leBytes 8 (id (next.bind (·.plan))) ++ List.replicate 32 0

/-- An install message is taken from a link, acted on, and answered; a refusal is counted (R341, R343). -/
def State.installMsg (s : State) (k op : Nat) (act : State → List Byte → List Byte → State × Nat) : Out :=
  match s.mgmtHead k 2 op with
  | some (f :: r) =>
    let msg := f :: r
    let q := act (s.freeFlits k 7 msg.length) (lineBytes f.payload) (mgmtBody msg)
    let s1 := if q.2 = 0 then q.1 else q.1.refusePlan q.2
    .next (s1.mgmtReply k f.src f.txn (s1.planStatus op q.2))
  | _ => .next s

/-- The bytes of an install message that Table 15-13 leaves out. -/
def installForm (h body : List Byte) (len : Nat) : Bool :=
  zeroBytes h 1 1 && zeroBytes h 16 48 && body.length == len

def State.closeSession (s : State) : State := { s with boot := { s.boot with session := none } }

/-- The open session, if a message of this link names it. -/
def State.sessionOf (s : State) (k : Nat) (h : List Byte) : Option Session :=
  s.boot.session.filter fun x => x.link == k && x.id == field h 2 2

def State.putSession (s : State) (x : Session) : State :=
  { s with boot := { s.boot with session := some { x with last := s.now } } }

/-- PLAN_OPEN: SIZE, then BUSY (R342). -/
def execPlanOpen (link : Nat) (s : State) : Out :=
  s.installMsg link 1 fun s h body =>
    let n := field h 4 4
    if !(installForm h body 0 && zeroBytes h 2 2 && zeroBytes h 8 8) then (s, 1)
    else if n < 3 || 65536 < n then (s, 5)
    else if s.boot.session.isSome then (s, 17)
    else
      let id := s.boot.nextSession
      ({ s with boot := { s.boot with
          session := some { id := id, link := link, pages := n, last := s.now }
          nextSession := if id = 65535 then 1 else id + 1 } }, 0)

/-- PLAN_CHUNK: 2,048 B at a multiple of 2,048 below the image's end. -/
def execPlanChunk (link : Nat) (s : State) : Out :=
  s.installMsg link 2 fun s h body =>
    let o := field h 4 4
    match s.sessionOf link h with
    | none => (s, 18)
    | some x =>
      if !(installForm h body 2048 && zeroBytes h 8 8 && o % 2048 == 0) then (s, 1)
      else if 4096 * x.pages ≤ o then (s, 18)
      else (s.putSession { x with chunks := x.chunks.put (o / 2048) body }, 0)

/-- A change of route banks is pending, or the last one is less than two boundaries old (R344). -/
def State.banksBusy (s : State) : Bool :=
  s.boot.next.isSome ||
  (match s.boot.lastSwitch with
   | some b => decide (s.epoch < b + 2)
   | none => false)

/-- The next bank is loaded for boundary S. -/
def State.acceptNext (s : State) (epoch : Nat) (plan : Option Plan) (block : List Byte) : State :=
  { (s.setBank (1 - s.bankNow) { loaded := true, block := block }) with
    boot := { s.boot with next := some { epoch := epoch, plan := plan } } }

/-- PLAN_INSTALL: the checks of Table 15-15 in order; the session closes either way. Log entry 83 (DEDUCED). -/
def execPlanInstall (link : Nat) (s : State) : Out :=
  s.installMsg link 3 fun s h body =>
    let b := bits (field h 8 8) 0 44
    match s.sessionOf link h with
    | none => (s, 18)
    | some x =>
      let s1 := s.closeSession
      if !(installForm h body 0 && zeroBytes h 4 4 && field h 8 8 == b) then (s.putSession x, 1)
      else if x.whole ≠ x.pages then (s1, 18)
      else if b < s.epoch + 1024 || s.epoch + 2 ^ 20 < b then (s1, 16)
      else if s.banksBusy then (s1, 17)
      else
        match s.planCheck x.image s.boot.plan with
        | .error code => (s1, code)
        | .ok p => (s1.acceptNext b (some p) p.routes, 0)

/-- PLAN_ABORT: a session closes, or an accepted next plan is discarded before boundary S − 64 (R345).
Log entry 83 (DEDUCED). -/
def execPlanAbort (link : Nat) (s : State) : Out :=
  s.installMsg link 4 fun s h body =>
    if !(installForm h body 0 && zeroBytes h 4 12) then (s, 1)
    else if field h 2 2 ≠ 0 then
      match s.sessionOf link h with
      | none => (s, 18)
      | some _ => (s.closeSession, 0)
    else
      match s.boot.next with
      | none => (s, 18)
      | some n =>
        if n.plan.isNone then (s, 18)
        else if n.epoch ≤ s.epoch + 64 then (s, 19)
        else ({ (s.setBank (1 - s.bankNow) {}) with boot := { s.boot with next := none } }, 0)

/-- PLAN_QUERY: the plans in force and pending. -/
def execPlanQuery (link : Nat) (s : State) : Out :=
  s.installMsg link 5 fun s h body => (s, if installForm h body 0 && zeroBytes h 2 14 then 0 else 1)

/-- No message of the session has arrived for 10 s: it closes. -/
def execPlanSessionIdle (s : State) : Out :=
  match s.boot.session with
  | none => .next s
  | some x => .next (s.advanceTo (x.last + 10000000000)).closeSession

/-- At S + 2 the bank that was in force before the last switch is free (R346). -/
def execOldBankRelease (s : State) : Out :=
  match s.boot.lastSwitch, s.boot.next with
  | some b, none =>
    if s.epoch < b + 2 then .next s
    else .next { (s.setBank (1 - s.bankNow) {}) with boot := { s.boot with lastSwitch := none } }
  | _, _ => .next s

end Sys2Proof.Machine
end

