-- ==== Sys2Proof/Machine/Regs.lean ====
section
/-! DEFINITION. Registers of the die: time and pace (Tables 2-7 to 2-11), BOOT_STATUS and BOOT_PLAN (Tables 15-16 and
15-17), and the masks of STK_CHAN. -/

namespace Sys2Proof.Machine

def boolBit (b : Bool) (n : Nat) : Nat := if b then 2 ^ n else 0

/-- TIME_NOW. -/
def State.timeNowReg (s : State) : Nat := s.now % 2 ^ 64

/-- TIME_STATUS. -/
def State.timeStatusReg (s : State) : Nat :=
  let t := s.time
  t.syncState + t.rootIndex % 4 * 2 ^ 2 + t.stratum % 64 * 2 ^ 4 + t.upstream % 32 * 2 ^ 10 +
  boolBit (t.syncState == syncLocked && decide (8 < t.stratum)) 15 + boolBit s.pace.alarm 16 +
  boolBit s.pace.waived 17 + t.rootNode % 2 ^ 18 * 2 ^ 18

/-- TIME_EPOCH. Log entry 19 (DESIGN CHOICE). -/
def State.timeEpochReg (s : State) : Nat :=
  let e := s.now / 2 ^ 20 % 2 ^ 44
  e + e % 2 * 2 ^ 44

/-- TIME_SERVO. -/
def State.timeServoReg (s : State) : Nat :=
  ofSigned 32 (s.time.freqEst + s.time.slew) + s.time.lastOffset.toNat * 2 ^ 32

/-- TIME_PACE_STATUS. -/
def State.paceReg (s : State) : Nat :=
  s.pace.minCount.toNat + s.pace.minMonitor.toNat * 2 ^ 12 + s.pace.maxTemp.toNat * 2 ^ 16 +
  s.pace.maxSensor.toNat * 2 ^ 28 + boolBit s.pace.alarm 33 + s.boot.rs.paceThreshold % 1024 * 2 ^ 34

/-- BOOT_STATUS. -/
def State.bootStatusReg (s : State) : Nat :=
  let b := s.boot
  b.step.toNat + b.straps.toNat * 2 ^ 4 + boolBit b.image 6 + b.reason.toNat * 2 ^ 7 + b.planReason.toNat * 2 ^ 11 +
  b.rs.seq.toNat % 2 ^ 32 * 2 ^ 16 + b.rs.set % 2 ^ 16 * 2 ^ 48

/-- BOOT_PLAN. -/
def State.bootPlanReg (s : State) : Nat :=
  let id := match s.boot.plan with
    | some p => p.id.toNat % 2 ^ 32
    | none => 0
  id + s.boot.lastRefusal.toNat * 2 ^ 32 + s.boot.refusals.toNat * 2 ^ 37 +
  boolBit (s.boot.next.any (·.plan.isSome)) 52

/-- Position of a channel state in Table 9-6, from 0. -/
def ChanSt.code : ChanSt → Nat
  | .inService => 0
  | .isolated => 1
  | .retired => 2
  | .failed => 3
  | .spare => 4

/-- Mask of a stack's channels that are in a state. -/
def Stack.mask (k : Stack) (p : ChanSt → Bool) : Nat :=
  (((List.range 32).filter fun c => p (k.chan c).st).map (2 ^ ·)).sum

end Sys2Proof.Machine
end

