-- ==== Sys2Proof/Machine/Wdn.lean ====
section
/-! DEFINITION. The warden channel (R410): frames at both ends, the die's reports (R411), and the forwarding of group 0x3
messages (R412). -/

namespace Sys2Proof.Machine

/-! ## Frames (Table 18-10) -/

def wdnFrame (typ : Nat) (seq ack : BitVec 8) (nak : Bool) (link node : Nat) (body : List Byte) : List Byte :=
  let b := [BitVec.ofNat 8 typ, seq, ack, if nak then 1 else 0] ++ leBytes 2 body.length ++ leBytes 2 (link % 32) ++
    leBytes 4 (node % 2 ^ 18) ++ body
  b ++ leBytes 4 (crc32c b)

/-- A frame with the end's present ack. -/
def wdnReack (f : List Byte) (ack : BitVec 8) : List Byte :=
  let b := (f.take 2 ++ [ack]) ++ (f.drop 3).take (f.length - 7)
  b ++ leBytes 4 (crc32c b)

/-- A received frame passes its CRC and keeps the layout. -/
def wdnGood (f : List Byte) : Bool :=
  let n := field f 4 2
  let t := field f 0 1
  decide (16 ≤ f.length) && crc32c (f.take (f.length - 4)) == field f (f.length - 4) 4 && f.length == 16 + n &&
  decide (n ≤ 2112) && within 1 5 t && decide (field f 3 1 < 2) &&
  (if t = 1 then decide (field f 6 2 < 32) && decide (field f 8 4 < 2 ^ 18) else zeroBytes f 6 6)

/-! ## One end -/

/-- What waits takes the places that are free among the unacknowledged frames, and is transmitted. -/
def WdnEnd.flush : Nat → WdnEnd → WdnEnd
  | 0, e => e
  | n + 1, e =>
    match e.waiting with
    | [] => e
    | (typ, link, node, body) :: r =>
      if !e.up || decide (8 ≤ e.held.length) then e
      else
        let f := wdnFrame typ e.nextSeq e.lastRx false link node body
        WdnEnd.flush n { e with waiting := r, held := e.held ++ [(e.nextSeq, f)], nextSeq := e.nextSeq + 1, wire := e.wire ++ [f] }

/-- The end has a message to send. -/
def WdnEnd.push (e : WdnEnd) (typ link node : Nat) (body : List Byte) : WdnEnd :=
  WdnEnd.flush 8 { e with waiting := e.waiting ++ [(typ, link, node, body)], wire := [] }

/-- Frames that an ack covers are freed, and others take their places. -/
def WdnEnd.takeAck (e : WdnEnd) (ack : BitVec 8) : WdnEnd :=
  if e.held.any (·.1 == ack) then
    WdnEnd.flush 8 { e with held := (e.held.dropWhile (·.1 != ack)).drop 1, resends := 0 }
  else e

/-- Every unacknowledged frame is sent again, or after 16 resends with no progress the channel is down. -/
def WdnEnd.resend (e : WdnEnd) : WdnEnd :=
  if e.held.isEmpty || !e.up then e
  else if 16 ≤ e.resends then { e with up := false, wire := [] }
  else { e with resends := e.resends + 1, wire := e.held.map fun h => wdnReack h.2 e.lastRx }

def WdnEnd.ackFrame (e : WdnEnd) (nak : Bool) : List Byte := wdnFrame 4 e.nextSeq e.lastRx nak 0 0 []
/-- Log entry 92 (DEDUCED). -/
def WdnEnd.resyncFrame (e : WdnEnd) : List Byte := wdnFrame 5 0 e.lastRx false 0 0 []

/-- The end starts afresh: what was not acknowledged waits again, oldest first. Log entry 92 (DEDUCED). -/
def WdnEnd.restart (e : WdnEnd) : WdnEnd :=
  let again := e.held.map fun h =>
    (field h.2 0 1, field h.2 6 1, field h.2 8 3, (h.2.drop 12).take (h.2.length - 16))
  { e with nextSeq := 0, lastRx := 255, held := [], waiting := again ++ e.waiting, resends := 0, up := true }

/-- A received frame: discarded and NAKed if it is not good; ack and NAK act; a body in sequence is accepted.  The
answer says whether a body was accepted, and whether the end was resynchronised. -/
def WdnEnd.receive (e : WdnEnd) (f : List Byte) : WdnEnd × Bool × Bool :=
  if !wdnGood f then ({ e with wire := [e.ackFrame true] }, false, false)
  else
    let typ := field f 0 1
    if typ = 5 then
      let e1 := e.restart
      (WdnEnd.flush 8 { e1 with wire := if e.up then [e1.resyncFrame] else [] }, false, true)
    else
      let e1 := { e with wire := [] }.takeAck (BitVec.ofNat 8 (field f 2 1))
      let e2 := if bitAt (field f 3 1) 0 then e1.resend else e1
      if typ = 4 then (e2, false, false)
      else
        let seq := BitVec.ofNat 8 (field f 1 1)
        if seq == e2.lastRx + 1 then
          let e3 := { e2 with
            lastRx := seq, inbox := e2.inbox ++ [(typ, field f 6 1, field f 8 3, (f.drop 12).take (f.length - 16))] }
          ({ e3 with wire := e3.wire ++ [e3.ackFrame false] }, true, false)
        else
          let past := decide ((e2.lastRx - seq).toNat < 128)
          ({ e2 with wire := e2.wire ++ [e2.ackFrame (!past)] }, false, false)

/-! ## The die's end -/

def State.wdnSend (s : State) (typ link node : Nat) (body : List Byte) : State :=
  { s with wdn := s.wdn.push typ link node body }

/-- Body of a report (Table 18-11). Log entries 92 (DEDUCED), 110 (DEDUCED). -/
def State.reportBody (s : State) : ReportKind → List Byte
  | .stateSummary => [1] ++ leBytes 8 s.bootStatusReg ++ leBytes 8 s.bootPlanReg ++ leBytes 8 s.timeStatusReg ++
      leBytes 8 s.timeEpochReg
  | .startFailed => [2] ++ leBytes 8 s.bootStatusReg
  | .paceAlarm => [3, if s.pace.alarm then 1 else 0] ++ leBytes 8 s.paceReg
  | .stackChannel k c => [4, BitVec.ofNat 8 k, BitVec.ofNat 8 c, BitVec.ofNat 8 ((s.stack k).chan c).st.code]
  | .stackDegraded => [5] ++ (List.range 8).flatMap fun k => leBytes 4 ((s.stack k).mask (· == .failed))
  | .linkQuarantine k =>
    let l := s.link k
    [6, BitVec.ofNat 8 k, BitVec.ofNat 8 l.reason.toNat, BitVec.ofNat 8 l.lastCode.toNat, BitVec.ofNat 8 (min 255 l.n)]

/-- Reports whose condition stands, with STATE_SUMMARY (R411). Log entry 110 (DEDUCED). -/
def State.standing (s : State) : List ReportKind :=
  [.stateSummary] ++ (if s.boot.reason = 0 then [] else [.startFailed]) ++ (if s.pace.alarm then [.paceAlarm] else []) ++
  ((List.range 8).flatMap fun k => ((List.range 32).filter fun c => ((s.stack k).chan c).st != .inService).map
    (ReportKind.stackChannel k ·)) ++
  (if (List.range 8).any (fun k => (s.stack k).mask (· == .failed) != 0) then [.stackDegraded] else []) ++
  ((List.range 24).filter fun k => decide (8 ≤ (s.link k).n)).map (ReportKind.linkQuarantine ·)

/-- The die sends a report that it owes. -/
def execDieReport (report : ReportKind) (s : State) : Out :=
  if s.alive && s.reports.contains report then
    .next ({ s with reports := s.reports.erase report }.wdnSend 3 0 0 (s.reportBody report))
  else .next s

/-- Group and op of a management body. -/
def bodyGroup (b : List Byte) : Nat := bits (field b 0 1) 4 4
def bodyOp (b : List Byte) : Nat := bits (field b 0 1) 0 4

/-- The management message of group 0x3 at the head of a link's buffer, if it may be served (R412). -/
def State.forwardHead (s : State) (k : Nat) : Option (List LFlit) :=
  (List.range 16).findSome? fun op => s.mgmtHead k 3 op

/-- It goes unchanged to the active warden. Log entry 93 (DEDUCED). -/
def execMgmtForward (link : Nat) (s : State) : Out :=
  match s.forwardHead link with
  | some (f :: r) =>
    let body := lineBytes f.payload ++ mgmtBody (f :: r)
    let s1 := (s.freeFlits link 7 (r.length + 1)).wdnSend 1 link f.src.toNat body
    .next { s1 with forwarded := s1.forwarded ++ [(link, bodyOp body, f.txn, f.src)] }
  | _ => .next s

/-- A warden's reply to a forwarded message returns over the link it came from; a reply that DATA follows keeps its
place until the DATA has passed. Log entry 93 (DEDUCED). -/
def State.returnReply (s : State) (body : List Byte) : State :=
  let op := bodyOp body
  match s.forwarded.find? fun e => e.2.1 == op with
  | none => s
  | some e =>
    let rest := s.forwarded.erase e
    if op = 14 then { s with forwarded := rest }.mgmtSend e.1 e.2.2.2 (body.take 64) (body.drop 64)
    else
      let more := (op == 1 || op == 2) && field body 1 1 == 0
      { s with forwarded := if more then (e.1, 14, e.2.2) :: rest else rest }.mgmtReply e.1 e.2.2.2 e.2.2.1 (body.take 64)

/-- A body of group 0x3 that the die's end accepts is a reply; one of group 0x2 waits for its unit.
Log entry 92 (DEDUCED). -/
def State.dieAccept (s : State) : State :=
  match s.wdn.inbox.getLast? with
  | some (2, _, _, body) =>
    if bodyGroup body = 3 then { s with wdn := { s.wdn with inbox := s.wdn.inbox.dropLast } }.returnReply body
    else if bodyGroup body = 2 then s
    else { s with wdn := { s.wdn with inbox := s.wdn.inbox.dropLast } }
  | _ => { s with wdn := { s.wdn with inbox := s.wdn.inbox.dropLast } }

/-- A frame at the die's end; after a resynchronisation every standing report is owed again. -/
def State.dieFrame (s : State) (frame : List Byte) : State :=
  let r := s.wdn.receive frame
  let s1 := { s with wdn := r.1 }
  if r.2.1 then s1.dieAccept
  else if r.2.2 then { s1 with reports := s1.reports ++ s1.standing.filter fun x => !s1.reports.contains x }
  else s1

end Sys2Proof.Machine
end

