-- ==== Sys2Proof/Machine/Unit.lean ====
section
/-! DEFINITION. Prune and graft (chapter 16): units and their states, the checks of requests, unit tests, what happens at
the boundary S and at S + 2, and moving streams. -/

namespace Sys2Proof.Machine

/-! ## Units (R349, R351) -/

/-- A unit field of a kind; none where a bit above the kind's is set, or the kind is reserved. -/
def unitOf (kind f : Nat) : Option UnitId :=
  if kind = 1 && f < 2 ^ 10 then some (.site (bits f 0 5) (bits f 5 5))
  else if kind = 2 && f < 2 ^ 8 then some (.channel (bits f 0 3) (bits f 3 5))
  else if kind = 3 && f < 2 ^ 8 then some (.lane (bits f 0 5) (bits f 5 3))
  else if kind = 4 && f < 2 ^ 5 then some (.link f)
  else if kind = 5 && f < 2 ^ 18 then some (.modul f)
  else none

def unitPresent : UnitId → Bool
  | .site r c => decide (r < 30) && decide (c < 32)
  | .channel k c => decide (k < 8) && decide (c < 32)
  | .lane k l => decide (k < 24) && decide (l < 5)
  | .link k => decide (k < 24)
  | .modul _ => true

def unitIsModule : UnitId → Bool
  | .modul _ => true
  | _ => false

/-- The route block in force. -/
def State.blockNow (s : State) : List Byte := (s.bank s.bankNow).block

def State.unitRec (s : State) (u : UnitId) : Option UnitRec := s.units.find? (·.unit == u)
def State.putUnit (s : State) (r : UnitRec) : State := { s with units := r :: s.units.filter (·.unit != r.unit) }
def State.delUnit (s : State) (u : UnitId) : State := { s with units := s.units.filter (·.unit != u) }

def unitIn : Nat := 0
def unitPrunePending : Nat := 1
def unitPruned : Nat := 2
def unitTesting : Nat := 3
def unitTested : Nat := 4
def unitFailed : Nat := 5
def unitGraftPending : Nat := 6
def unitSpare : Nat := 7

/-- State of a unit that no operation concerns. -/
def State.unitRest (s : State) : UnitId → Nat
  | .site r c =>
    if !blkInService s.blockNow (32 * r + c) then unitPruned
    else if (blkCoreOf s.blockNow (32 * r + c)).isNone then unitSpare else unitIn
  | .channel k c =>
    match ((s.stack k).chan c).st with
    | .inService => unitIn
    | .spare => unitSpare
    | .isolated => unitPruned
    | .retired => unitPruned
    | .failed => unitPruned
  | .lane k l =>
    let p := s.link k
    if p.rxOut.getLsbD l then unitPruned else if laneIn p.rxMap l then unitIn else unitSpare
  | .link k => if (s.link k).st = 6 && (s.link k).pruned then unitPruned else unitIn
  | .modul n => if n = s.boot.rs.node && s.stopped then unitPruned else unitIn

def State.unitState (s : State) (u : UnitId) : Nat :=
  match s.unitRec u with
  | some r => r.st
  | none => s.unitRest u

/-- The kind's own state (R351). -/
def State.unitOwn (s : State) : UnitId → Nat
  | .channel k c => ((s.stack k).chan c).st.code
  | .link k => (s.link k).st
  | _ => 0

/-- Txn of the last committed burst of a core at each stack, and which of them are valid (R358). -/
def State.unitCommits (s : State) (core : Nat × Nat) : Nat × Nat :=
  let key := (coreAddr core.1 core.2).toNat
  (((List.range 8).map fun k => ((s.stack k).commits.at key 0).toNat * 2 ^ (12 * k)).sum,
    ((List.range 8).map fun k => boolBit ((s.stack k).commits.find key).isSome k).sum)

/-- UNIT_STATUS (Table 16-5): the unit's state as it is, or a refusal of a request that names no unit.
Log entry 88 (DEDUCED). -/
def State.unitStatus (s : State) (op code : Nat) (u : Option UnitId) (name : Nat) : List Byte :=
  let r := u.bind s.unitRec
  let commits := match r with
    | some x => (match x.core, x.final with
      | some c, some f => if f ≤ s.epoch then s.unitCommits c else (0, 0)
      | _, _ => (0, 0))
    | none => (0, 0)
  [BitVec.ofNat 8 (0x20 + op), BitVec.ofNat 8 code] ++
  (match u with
    | some x => [BitVec.ofNat 8 (s.unitState x), BitVec.ofNat 8 (s.unitOwn x)]
    | none => [0, 0]) ++
  leBytes 3 name ++ [0] ++
  leBytes 8 ((r.bind (·.due)).getD 0) ++
  (match r with
    | some x => leBytes 4 x.moved.toNat ++ leBytes 4 x.errors.toNat
    | none => List.replicate 8 0) ++
  leBytes 12 commits.1 ++ leBytes 1 commits.2 ++ List.replicate 27 0

/-! ## Requests (R350) -/

/-- What a request leaves: the state, the UNIT_STATUS, and the DATA that follows it. -/
structure UnitAns where
  st : State
  status : List Byte
  data : Option (List Byte × List Byte) := none

/-- The group 0x2 message of an op that comes next from a source: its header and what follows. -/
def State.unitHead (s : State) (src : MgmtSrc) (op : Nat) : Option (List Byte × List Byte) :=
  match src with
  | .link k => (s.mgmtHead k 2 op).bind fun m => m.head?.map fun f => (lineBytes f.payload, mgmtBody m)
  | .warden =>
    s.wdn.inbox.head?.bind fun m =>
      if m.1 == 2 && s.alive && bodyGroup m.2.2.2 == 2 && bodyOp m.2.2.2 == op then
        some (m.2.2.2.take 64, m.2.2.2.drop 64)
      else none

/-- A group 0x2 message, from a partner's buffer or from the warden, is acted on and answered, or waits. -/
def State.unitMsgWait (s : State) (src : MgmtSrc) (op : Nat) (act : State → List Byte → List Byte → Option UnitAns) : Out :=
  match src with
  | .link k =>
    match s.mgmtHead k 2 op with
    | some (f :: r) =>
      match act (s.freeFlits k 7 (r.length + 1)) (lineBytes f.payload) (mgmtBody (f :: r)) with
      | none => .next s
      | some a =>
        let s1 := a.st.mgmtReply k f.src f.txn a.status
        .next (match a.data with
          | none => s1
          | some d => s1.mgmtSend k f.src d.1 d.2)
    | _ => .next s
  | .warden =>
    match s.wdn.inbox with
    | (2, _, _, b) :: rest =>
      if s.alive && bodyGroup b == 2 && bodyOp b == op then
        match act { s with wdn := { s.wdn with inbox := rest } } (b.take 64) (b.drop 64) with
        | none => .next s
        | some a =>
          let s1 := a.st.wdnSend 2 0 0 a.status
          .next (match a.data with
            | none => s1
            | some d => s1.wdnSend 2 0 0 (d.1 ++ d.2))
      else .next s
    | _ => .next s

/-- A group 0x2 message is acted on and answered. -/
def State.unitMsg (s : State) (src : MgmtSrc) (op : Nat) (act : State → List Byte → List Byte → UnitAns) : Out :=
  s.unitMsgWait src op fun s h body => some (act s h body)

/-- Bytes 5 to 7. -/
def unitField (h : List Byte) : Nat := field h 5 3

/-- The unit that a message names. -/
def unitNamed (h : List Byte) : Option UnitId := unitOf (field h 4 1) (unitField h)

/-! ## Variants (R349, R353, R354) -/

/-- A VARIANTS entry by its index, 1 onward. -/
def State.variant (s : State) (i : Nat) : Option Variant :=
  if i = 0 then none else s.boot.plan.bind fun p => p.variants[i - 1]?

/-- The route block of an index: the ROUTES block, or an entry's. -/
def State.variantBlock (s : State) (i : Nat) : Option (List Byte) :=
  if i = 0 then s.boot.plan.map (·.routes) else (s.variant i).map (·.block)

def State.variantIs (s : State) (i kind : Nat) (unit : Option Nat) : Bool :=
  match s.variant i with
  | some v => v.kind == kind && (match unit with
    | some u => v.unit == u
    | none => true)
  | none => false

/-- The index is one that Table 16-2 allows the unit. Log entry 84 (DEDUCED). -/
def State.indexOk (s : State) (u : UnitId) (i : Nat) : Bool :=
  match u with
  | .site _ _ => i == 0 || s.variantIs i 1 none
  | .channel _ _ => i == 0xFFFF
  | .lane _ _ => i == 0xFFFF
  | .link k => i == 0xFFFF || s.variantIs i 4 (some k)
  | .modul n => i == 0xFFFF || (n != s.boot.rs.node && (i == 0 || s.variantIs i 5 (some n)))

/-- The operation puts a variant in force (R355). -/
def bankChanging (i : Nat) : Bool := i != 0xFFFF

/-- A variant fits a site operation: in-service sites are those in force less or plus the unit's, and every logical
core sits on one of them. -/
def siteFits (now v : List Byte) (site : Nat) (graft : Bool) : Bool :=
  ((List.range 960).all fun n => blkInService v n == (if n = site then graft else blkInService now n)) &&
  (List.range 28).all fun r => (List.range (blkCols v)).all fun c =>
    match blkSite v r c with
    | some n => blkInService v n
    | none => false

/-- R353. Log entry 84 (DEDUCED). -/
def State.variantFits (s : State) (u : UnitId) (i : Nat) (graft : Bool) : Bool :=
  match u with
  | .site r c => (s.variantBlock i).any fun v => siteFits s.blockNow v (32 * r + c) graft
  | _ => (s.variantBlock i).isSome

/-- R354: class A rates and stream shares of every filter are those in force, but for a link operation's own. -/
def State.sharesKept (s : State) (u : UnitId) (i : Nat) : Bool :=
  (s.variantBlock i).any fun v => (List.range 24).all fun k =>
    u == .link k ||
    (fRate (blkFilter v k) == fRate (blkFilter s.blockNow k) && fStreams (blkFilter v k) == fStreams (blkFilter s.blockNow k))

/-! ## Checks (Table 16-6) -/

/-- The receive spare of a lane's port may take its place. -/
def State.laneRoom (s : State) : UnitId → Bool
  | .lane k l => !laneIn (s.link k).rxMap l || (s.link k).rxSpare
  | _ => true

def State.pruneState (s : State) (u : UnitId) : Bool :=
  (s.unitState u == unitIn || s.unitState u == unitSpare) && s.laneRoom u

/-- A unit that serves, or waits for a boundary, is not pruned; the module itself is never grafted by itself, and
another module is grafted whether or not it was pruned first (R365, R399). Log entry 85 (DEDUCED). -/
def State.graftState (s : State) (u : UnitId) : Bool :=
  let st := s.unitState u
  match u with
  | .modul n => n != s.boot.rs.node && st != unitPrunePending && st != unitGraftPending
  | _ => st != unitIn && st != unitSpare && st != unitPrunePending && st != unitGraftPending

def State.channelRoom (s : State) : UnitId → Bool
  | .channel k _ => (s.stack k).room
  | _ => true

/-- Code of a PRUNE or GRAFT. -/
def State.switchCode (s : State) (graft warden : Bool) (h body : List Byte) : Nat :=
  let i := field h 2 2
  let b := field h 8 8
  match unitNamed h with
  | none => 1
  | some u =>
    if !(zeroBytes h 1 1 && zeroBytes h 16 48 && body.isEmpty && decide (b < 2 ^ 44) && s.indexOk u i) then 1
    else if unitIsModule u && !warden then 2
    else if !unitPresent u then 3
    else if !(if graft then s.graftState u else s.pruneState u) then 4
    else if graft && !unitIsModule u && s.unitState u != unitTested then 9
    else if !graft && !s.channelRoom u then 10
    else if b < s.epoch + 2 || s.epoch + 2 ^ 20 < b then 7
    else if !bankChanging i then 0
    else if s.banksBusy then 8
    else if !s.variantFits u i graft then 5
    else if !s.sharesKept u i then 6
    else 0

/-- Logical rows of a site's column that a variant moves (Table 16-5). -/
def movedRows (now v : List Byte) (pcol : Nat) : Nat :=
  match blkColOf now pcol with
  | none => 0
  | some c => (((List.range 28).filter fun k => blkSite now k c != blkSite v k c).map (2 ^ ·)).sum

/-- The operation is accepted for its boundary; a variant goes into the bank that the plan in force does not use. -/
def State.acceptSwitch (s : State) (u : UnitId) (graft : Bool) (i b : Nat) : State :=
  let v := s.variantBlock i
  let moved := match u, v with
    | .site _ c, some v => movedRows s.blockNow v c
    | _, _ => 0
  let old := s.unitRec u
  let s1 := s.putUnit {
    unit := u, st := if graft then unitGraftPending else unitPrunePending, due := some b, graft := graft, variant := i
    moved := BitVec.ofNat 32 moved, core := if graft then old.bind (·.core) else none
    final := if graft then old.bind (·.final) else none }
  match v with
  | some block => if bankChanging i then s1.acceptNext b none block else s1
  | none => s1

/-- PRUNE and GRAFT. -/
def State.requestSwitch (s : State) (src : MgmtSrc) (op : Nat) (graft : Bool) : Out :=
  s.unitMsg src op fun s h body =>
    let u := unitNamed h
    let code := s.switchCode graft (src == .warden) h body
    let s1 := match u with
      | some x => if code = 0 then s.acceptSwitch x graft (field h 2 2) (field h 8 8) else s
      | none => s
    { st := s1, status := s1.unitStatus op code (u.filter unitPresent) (unitField h) }

/-- A prune is checked and accepted for boundary S. -/
def execPrune (src : MgmtSrc) (s : State) : Out := s.requestSwitch src 6 false

/-- A graft of a tested unit is checked and accepted for boundary S. Log entry 85 (DEDUCED). -/
def execGraft (src : MgmtSrc) (s : State) : Out := s.requestSwitch src 7 true

/-! ## Unit tests (R359) -/

/-- The unit is pruned, or failed its test, or a further test is asked for (Table 16-4); a FAILED or relocating
channel, a link that still drains, and a module are not tested. Log entry 85 (DEDUCED). -/
def State.testState (s : State) (u : UnitId) : Bool :=
  let st := s.unitState u
  (st == unitPruned || st == unitFailed || st == unitTested) &&
  (match u with
    | .channel k c => ((s.stack k).chan c).st == .retired
    | .link k => (s.link k).st == 6
    | .modul _ => false
    | _ => true)

/-- Form of UNIT_TEST and UNIT_QUERY. -/
def unitForm (h body : List Byte) : Bool := zeroBytes h 1 3 && zeroBytes h 8 56 && body.isEmpty

def namedCode (warden : Bool) (h body : List Byte) (ok : UnitId → Bool) : Nat :=
  match unitNamed h with
  | none => 1
  | some u =>
    if !unitForm h body then 1 else if unitIsModule u && !warden then 2 else if !unitPresent u then 3 else if !ok u then 4 else 0

/-- A unit takes a state, keeping what its last operation left. -/
def State.setUnit (s : State) (u : UnitId) (st : Nat) (errors : W32) : State :=
  let r := (s.unitRec u).getD { unit := u, st := st }
  s.putUnit { r with st := st, due := none, errors := errors }

/-- The test of a pruned unit starts; for a lane the partner is asked for PRBS31 (Table 16-7). -/
def State.startTest (s : State) (u : UnitId) : State :=
  let s1 := s.setUnit u unitTesting 0
  match u with
  | .lane k l =>
    let s2 := s1.modLink k fun p => { p with rxTest := some l }
    if (s2.link k).live then s2.sendCtrl k 6 (laneBody 4 l 0) else s2
  | _ => s1

/-- Log entry 85 (DEDUCED). -/
def execUnitTest (src : MgmtSrc) (s : State) : Out :=
  s.unitMsg src 8 fun s h body =>
    let u := unitNamed h
    let code := namedCode (src == .warden) h body s.testState
    let s1 := match u with
      | some x => if code = 0 then s.startTest x else s
      | none => s
    { st := s1, status := s1.unitStatus 8 code (u.filter unitPresent) (unitField h) }

/-- Bit errors that a lane or a link may show in its test. -/
def testErrorLimit : Nat := 2125000

/-- The test ends: the unit is TESTED or FAILED_TEST; a lane's count goes to the partner (Table 11-2).  A lane test that
the partner refused fails. -/
def execUnitTestEnd (u : UnitId) (pass : Bool) (errors : Nat) (s : State) : Out :=
  if s.unitState u != unitTesting then .next s
  else
    match u with
    | .lane k l =>
      let asked := (s.link k).rxTest == some l
      let ok := asked && pass && decide (errors ≤ testErrorLimit)
      let s1 := s.setUnit u (if ok then unitTested else unitFailed) (BitVec.ofNat 32 errors)
      let s2 := s1.modLink k fun p => { p with rxTest := if asked then none else p.rxTest }
      .next (if asked && (s2.link k).live then s2.sendCtrl k 6 (laneBody 5 l errors) else s2)
    | .link _ =>
      .next (s.setUnit u (if pass && decide (errors ≤ testErrorLimit) then unitTested else unitFailed) (BitVec.ofNat 32 errors))
    | _ => .next (s.setUnit u (if pass then unitTested else unitFailed) 0)

def execUnitQuery (src : MgmtSrc) (s : State) : Out :=
  s.unitMsg src 9 fun s h body =>
    { st := s
      status := s.unitStatus 9 (namedCode (src == .warden) h body fun _ => true) ((unitNamed h).filter unitPresent) (unitField h) }

/-! ## The boundary S (R356, R360 to R365) -/

/-- Entries of a queue that a move discards: READY, FILLING and CLAIMED. -/
def Queue.dropped (q : Queue) : Nat := (q.live.filter (·.st != .released)).length

def Core.dropped (c : Core) : Nat := (c.queues.toList.map (·.dropped)).sum

/-- A logical core's spill partition, apart from the entries of its site's queue (R165, R356). -/
def Queue.spillOnly (q : Queue) : Queue := { q with live := [], next := 0 }

/-- One site that a boundary gave another logical core: loaded for it, its partition's spilled entries kept with it; or
halted, with no core. -/
def State.moveSite (old : State) (was now : List Byte) (s : State) (n : Nat) : State :=
  let s1 := s.countN Ev.scnSwitchDrop n (old.core n).dropped
  match s.boot.plan, (blkCoreOf now n).filter fun _ => blkInService now n with
  | some p, some rc =>
    let c := (old.core n).fresh s.boot.rs p rc.1 rc.2
    let c1 := match blkCore was rc.1 rc.2 with
      | some m => { c with queues := (old.core m).queues.map Queue.spillOnly, spillWaits := (old.core m).spillWaits }
      | none => c
    s1.setCore n c1
  | _, _ => s1.modCore n fun c => { c.halt with
      queues := c.queues.map fun q => { q with live := [] }
      loads := [], reqs := [], held := [], tileOps := [], mma := none, fills := [], sends := [], arrivals := []
      spillWaits := [], refills := [] }

/-- Every site that the switch of banks gave another core is loaded. Log entry 81 (DESIGN CHOICE). -/
def State.moveSites (s : State) : State :=
  let was := (s.bank (1 - s.bankNow)).block
  let s1 := s.awaiting.foldl (fun t n => s.moveSite was s.blockNow t n) s
  { s1 with awaiting := [] }

/-- DOWN goes out on a live link, whose session then ends; any other enabled link is quarantined (R271, R363).
Log entry 87 (DEDUCED). -/
def State.downLink (s : State) (k : Nat) : State :=
  let l := s.link k
  if l.live then (s.transmit k 7 0 0 0 none [8]).dropLink k 8
  else if l.st = 0 then s
  else s.quarantine k 8

/-- A link leaves QUARANTINED for TRAINING. -/
def State.raiseLink (s : State) (k : Nat) : State :=
  if (s.link k).st != 6 then s
  else (s.enterLink k 2).modLink k fun l => { l with
    pruned := false, locked := false, goodRun := 0, badRun := 0, phyUp := false, train := none, gotSeen := false
    sentSeen := false }

/-- What a prune does at S. Log entry 87 (DEDUCED). -/
def State.pruneAt (s : State) (r : UnitRec) (b : Nat) : State :=
  let done := { r with st := unitPruned, due := none }
  match r.unit with
  | .site pr pc =>
    let old := (s.bank (1 - s.bankNow)).block
    s.moveSites.putUnit { done with core := blkCoreOf old (32 * pr + pc), final := some (b + 2) }
  | .channel k c =>
    let s1 := s.putUnit done
    match ((s.stack k).chan c).st with
    | .inService => s1.isolate k c
    | .spare => s1.modChan k c fun h => { h with st := .retired }
    | _ => s1
  | .lane k l =>
    let s1 := s.putUnit done
    let p := s.link k
    if !laneIn p.rxMap l then s1.modLink k fun p => { p with rxOut := p.rxOut ||| (1#5 <<< l) }
    else if !p.rxSpare then s1
    else if p.live then (s1.modLink k fun p => { p with swap := some l }).sendCtrl k 6 (laneBody 1 l 0)
    else s1.modLink k fun p => p.rxReplace l
  | .link k =>
    let s1 := s.moveSites
    if bankChanging r.variant then s1.putUnit { done with final := some (b + 2) }
    else (s1.putUnit done).downLink k
  | .modul n =>
    let s1 := s.moveSites
    if n = s.boot.rs.node then { s1 with refusing := true }.putUnit { done with final := some (b + 2) }
    else s1.putUnit done

/-- What a graft does at S. -/
def State.graftAt (s : State) (u : UnitId) : State :=
  let s1 := s.delUnit u
  match u with
  | .site _ _ => s1.moveSites
  | .channel k c => s1.modChan k c fun h => { h with st := .spare, due := false }
  | .lane k l => s1.modLink k fun p => { p with rxOut := p.rxOut &&& ~~~(1#5 <<< l) }
  | .link k => s1.moveSites.raiseLink k
  | .modul _ => s1.moveSites

/-- An accepted operation takes effect at its S. Log entry 81 (DESIGN CHOICE). -/
def execUnitSwitch (u : UnitId) (s : State) : Out :=
  match s.unitRec u with
  | none => .next s
  | some r =>
    match r.due with
    | none => .next s
    | some b => if s.epoch < b then .next s else .next (if r.graft then s.graftAt u else s.pruneAt r b)

/-- Open streams of every class. -/
def Streams.openAll (m : Streams) : Nat := m.openA + m.openB + m.openC

/-- A pruned module sends DOWN on every UP link, stops issue, and tells the warden how many streams were open.
Log entry 88 (DEDUCED). -/
def State.stopModule (s : State) (r : UnitRec) (n : Nat) : State :=
  let s1 := (List.range 24).foldl (fun s k => if (s.link k).st = 4 then s.downLink k else s) s
  let s2 := { s1 with stopped := true }.putUnit { r with moved := BitVec.ofNat 32 s.strm.openAll, final := none }
  s2.wdnSend 2 0 0 (s2.unitStatus 6 0 (some r.unit) n)

/-- At S + 2 a link pruned with a variant drops, and a pruned module stops. -/
def execPruneFinal (u : UnitId) (s : State) : Out :=
  match s.unitRec u with
  | none => .next s
  | some r =>
    match r.unit, r.final with
    | .link k, some f => if f ≤ s.epoch then .next ((s.putUnit { r with final := none }).downLink k) else .next s
    | .modul n, some f => if f ≤ s.epoch then .next (s.stopModule r n) else .next s
    | _, _ => .next s

/-! ## Moving streams (R366) -/

/-- Form of MIGRATE_OUT and MIGRATE_END, with the stream ID in range. -/
def moveForm (h body : List Byte) : Bool :=
  zeroBytes h 1 1 && zeroBytes h 4 1 && decide (unitField h < streamIds) && zeroBytes h 8 56 && body.isEmpty

def streamAns (s : State) (op code id : Nat) : UnitAns := { st := s, status := s.unitStatus op code none id }

/-- The state that MIGRATE_OUT left is kept for MIGRATE_END. -/
def State.migrating (s : State) (id st : Nat) : State :=
  { s with strm := { s.strm with earlier := s.strm.earlier.put id st } }

/-- MIGRATE_OUT: an OPEN, FULL or CLOSING stream becomes MIGRATING, and DATA carries its descriptor; it waits while the
descriptor is not in the cache (R232). Log entry 86 (DEDUCED). -/
def execMigrateOut (src : MgmtSrc) (s : State) : Out :=
  s.unitMsgWait src 11 fun s h body =>
    let id := unitField h
    if !(moveForm h body && zeroBytes h 2 2) then some (streamAns s 11 1 id)
    else
      (s.loadDesc id).map fun q =>
        if !openStates.contains (Desc.st q.2) then streamAns q.1 11 4 id
        else
          let d1 := Desc.setSt q.2 stMigrating
          { (streamAns ((q.1.putDesc id d1).migrating id (Desc.st q.2)) 11 0 id) with
            data := some ([0x2E, 0] ++ leBytes 2 128 ++ [0xB] ++ leBytes 3 id ++ List.replicate 56 0, d1) }

/-- MIGRATE_END: the source ID is freed, or the stream returns to its earlier state. -/
def execMigrateEnd (src : MgmtSrc) (s : State) : Out :=
  s.unitMsgWait src 13 fun s h body =>
    let id := unitField h
    if !(moveForm h body && decide (field h 2 2 < 2)) then some (streamAns s 13 1 id)
    else
      (s.loadDesc id).map fun q =>
        if Desc.st q.2 ≠ stMigrating then streamAns q.1 13 4 id
        else
          let s2 := { q.1 with strm := { q.1.strm with earlier := q.1.strm.earlier.del id } }
          if field h 2 2 = 1 then streamAns (s2.freeStream id q.2) 13 0 id
          else streamAns (s2.putDesc id (Desc.setSt q.2 (s.strm.earlier.at id stOpen))) 13 0 id

/-- A home span in the logical grid (R200, Table 9-7); kind 0 names one core. -/
def State.homeOk (s : State) (v : Nat) : Bool :=
  let kind := bits v 0 2
  let rl := bits v 2 5
  let rh := bits v 7 5
  let cl := bits v 12 5
  let ch := bits v 17 5
  if kind = 0 then s.inShape rl cl
  else decide (rl ≤ rh) && decide (cl ≤ ch) && s.inShape rh ch && (kind != 1 || rl == rh) && (kind != 2 || cl == ch)

/-- Reserved fields and code points of a descriptor (Table 9-7). Log entry 86 (DEDUCED). -/
def descForm (d : List Byte) : Bool :=
  d.length == 128 && Desc.cls d != 0 && recGet d 0 5 3 == 0 &&
  recGet d 8 40 24 == 0 && recGet d 16 40 24 == 0 && recGet d 24 32 32 == 0 &&
  recGet d 40 30 34 == 0 && recGet d 48 60 4 == 0 && recGet d 56 16 48 == 0 && recGet d 64 23 41 == 0 &&
  recGet d 72 44 20 == 0 && zeroBytes d 88 40

/-- The values of a descriptor that is moved in. -/
def State.movedOk (s : State) (d : List Byte) : Bool :=
  descForm d && decide (1 ≤ Desc.limit d) && decide (Desc.limit d ≤ 2097152) && decide (Desc.position d ≤ Desc.limit d) &&
  Desc.st d != 0 && decide (Desc.st d ≤ stMigrating) && recGet d 8 0 6 == 0 && Desc.harvestBase d % 64 == 0 && Desc.harvestSlots d != 0 &&
  within 6 12 (Desc.slotLog2 d) && s.homeOk (Desc.home d)

/-- A stream of class k has room in the plan in force, and in the next one (R27, R304). -/
def State.capacity (s : State) (k : Cls) : Bool :=
  s.boot.plan.any (fun p => decide (s.strm.opened k < p.cap k)) &&
  (match s.boot.next.bind (·.plan) with
   | some p => decide (s.strm.opened k < p.cap k)
   | none => true)

/-- Open class A streams whose owner_link is a link (R296). -/
def State.linkStreams (s : State) (k : Nat) : Nat :=
  (s.strm.shadow.filter fun e => !e.2.free && e.2.cls == 1 && e.2.link.toNat == k).length

/-- A class A period is long enough, and the owning link keeps its share. -/
def State.periodOk (s : State) (k : Cls) (period : Nat) : Bool :=
  k != .a || s.boot.plan.any fun p => decide (p.aMinPeriod ≤ period)
def State.shareOk (s : State) (k : Cls) (link : Nat) : Bool :=
  k != .a || decide (s.linkStreams link < fStreams (s.filter link))

/-- An ID is handed out, once its descriptor is in its engine's cache, and its generation rises (R230). -/
def State.handOut (s : State) : Option (Nat × Nat × State) :=
  s.takeId.bind fun r => (r.2.loadDesc r.1).map fun q => (r.1, (Desc.gen q.2 + 1) % 4096, q.1)

/-- The descriptor as it is written at its new module. Log entry 86 (DEDUCED). -/
def movedDesc (d : List Byte) (gen link epoch : Nat) : List Byte :=
  let st := if Desc.st d = stMigrating then (if Desc.position d = Desc.limit d then stFull else stOpen) else Desc.st d
  recSet (recSet (recSet (Desc.setSt d st) 0 52 12 gen) 64 18 5 link) 72 0 44 epoch

/-- MIGRATE_IN: the descriptor is admitted as a new stream, or refused with ADMIT; it waits while the new ID's descriptor
is not in the cache. Log entry 86 (DEDUCED). -/
def execMigrateIn (src : MgmtSrc) (s : State) : Out :=
  s.unitMsgWait src 12 fun s h body =>
    let link := field h 2 2
    if !(zeroBytes h 1 1 && zeroBytes h 4 60 && body.length == 128 && decide (link < 24)) then some (streamAns s 12 1 0)
    else
      let k := clsOf (BitVec.ofNat 2 (Desc.cls body))
      let refuse := streamAns (s.count Ev.strmRefused 0) 12 12 0
      if !(s.movedOk body && !s.refusing && s.capacity k && s.periodOk k (Desc.period body) && s.shareOk k link) then some refuse
      else
        match s.takeId, s.handOut with
        | none, _ => some refuse
        | some _, none => none
        | some _, some (id, gen, s1) => some (streamAns (s1.openStream id (movedDesc body gen link s.epoch)) 12 0 id)

end Sys2Proof.Machine
end

