-- ==== Sys2Proof/Machine/HostOps.lean ====
section
/-! DEFINITION. Host messages (chapter 17): submission and its notices, closing and ending, and reading harvest slots. -/

namespace Sys2Proof.Machine

/-! ## Messages and answers (R371 to R373) -/

/-- A HOST_STATUS (Table 17-3). -/
structure HostAns where
  code : Nat := 0
  /-- slot_status, late, trailer and expired_now as byte 2 holds them -/
  slotByte : Nat := 0
  st : Nat := 0
  id : Nat := 0
  gen : Nat := 0
  slot : Nat := 0
  take : Nat := 0
  len : Nat := 0
  notice : Nat := 0
  w24 : Nat := 0
  w32 : Nat := 0
  w40 : Nat := 0

def HostAns.bytes (a : HostAns) (op : Nat) : List Byte :=
  [BitVec.ofNat 8 (0x10 + op), BitVec.ofNat 8 a.code, BitVec.ofNat 8 a.slotByte, BitVec.ofNat 8 a.st] ++
  leBytes 3 a.id ++ [0] ++ leBytes 2 a.gen ++ [0, 0] ++ leBytes 4 a.slot ++ leBytes 4 a.take ++ leBytes 2 a.len ++
  [BitVec.ofNat 8 a.notice, 0] ++ leBytes 8 a.w24 ++ leBytes 8 a.w32 ++ leBytes 8 a.w40 ++ List.replicate 16 0

/-- The next host message of a link, once the one before has been answered. -/
def State.hostHead (s : State) (k op : Nat) : Option (List LFlit) :=
  if s.notices.any (·.link == k) then none else s.mgmtHead k 1 op

/-- Log entry 89 (DEDUCED). -/
def hostId (h : List Byte) : Nat := field h 4 3
def hostGen (h : List Byte) : Nat := field h 8 2
def hostSlot (h : List Byte) : Nat := field h 12 4

/-- Form of every host message but SUBMIT. Log entry 89 (DEDUCED). -/
def hostForm (h body : List Byte) (slotted : Bool) : Bool :=
  zeroBytes h 1 3 && zeroBytes h 7 1 && decide (hostGen h < 4096) && zeroBytes h 10 2 &&
  (slotted || zeroBytes h 12 4) && zeroBytes h 16 48 && body.isEmpty

/-- EV_STRM_REFUSED of the stack that holds the descriptor (R372). Log entries 89 (DEDUCED), 111 (DEDUCED). -/
def State.hostRefused (s : State) (id : Nat) : State := s.count Ev.strmRefused (if id < streamIds then id % 8 else 0)

/-- What an operation on a stream leaves: the answer, and the DATA that follows it; or a notice to wait for. -/
structure HostRes where
  s : State
  ans : HostAns
  data : Option (List Byte) := none
  /-- the notice to send, and the descriptor that names its home cores -/
  notice : Option (List Byte) := none

/-- DATA header (Table 17-2). -/
def hostData (a : HostAns) : List Byte :=
  [0x1E, 0] ++ leBytes 2 a.len ++ leBytes 3 a.id ++ [0] ++ leBytes 2 a.gen ++ [0, 0] ++ leBytes 4 a.slot ++ leBytes 4 a.take ++
  List.replicate 44 0

/-! ## Notices (R378) -/

/-- Cores that a home span names. -/
def homeSize (v : Nat) : Nat := if bits v 0 2 = 0 then 1 else spanSize (BitVec.ofNat 64 v)

/-- Header of a notice; its send_seq is a free value, since no thread sends it. -/
def State.noticeBytes (s : State) (d : List Byte) (id gen kind : Nat) : List Byte :=
  let v := Desc.home d
  let w2 := s.boot.rs.node % 2 ^ 18 + bits v 2 5 * 2 ^ 18 + bits v 12 5 * 2 ^ 23 + (if bits v 0 2 = 0 then 0 else 2 ^ 28)
  leBytes 4 (Desc.handler d + 256 * Desc.cls d + 8 * 2 ^ 10 + 2 ^ 20) ++ leBytes 4 (Config.noticeSeq s.free).toNat ++
  leBytes 8 (s.boot.rs.node % 2 ^ 18) ++ leBytes 8 w2 ++
  leBytes 8 (s.boot.rs.node % 2 ^ 18 * 2 ^ 21 + id % 2 ^ 21 + 2 ^ 39) ++
  leBytes 1 kind ++ leBytes 2 gen ++ List.replicate 29 0

/-- Edge stop from which a notice leaves: OPEN from the admission unit beside stack 0, the others from the stream's
engine. -/
def noticeStop (kind id : Nat) : Nat := stackPort (if kind = 1 then 0 else id % 8)

/-- A notice goes to every home core, and its host message waits for the answers. Log entry 91 (DEDUCED). -/
def State.sendNotice (s : State) (k kind id gen : Nat) (d : List Byte) (ptxn : BitVec 12) (node : BitVec 18) : State :=
  let v := Desc.home d
  let cls := clsOf (BitVec.ofNat 2 (Desc.cls d))
  let span := bits v 0 2 != 0
  let stop := noticeStop kind id
  let f (lo w : Nat) : Nat := if span then bits v lo w else 0
  let flit : Flit :=
    { kind := 0, cls := clsBits cls, resp := false, ep := s.epNow, index := 0, last := true
      dst := coreAddr (bits v 2 5) (bits v 12 5), src := edgeAddr stop
      mkind := BitVec.ofNat 2 (f 0 2), rowLo := BitVec.ofNat 5 (f 2 5), rowHi := BitVec.ofNat 5 (f 7 5)
      colLo := BitVec.ofNat 5 (f 12 5), colHi := BitVec.ofNat 5 (f 17 5)
      txn := BitVec.ofNat 12 s.nextNotice, payload := bytesLine (s.noticeBytes d id gen kind)
      hops := BitVec.ofNat 6 s.boot.rs.maxHops }
  let n : Notice := { link := k, op := kind, id := id, gen := gen, txn := s.nextNotice % 4096, await := homeSize v
                      deadline := s.now + s.classTimeout cls, ptxn := ptxn, node := node }
  { (s.injectEdge stop flit) with
    notices := s.notices ++ [n], nextNotice := (s.nextNotice + 1) % 4096, free := s.free + 1 }

/-! ## Operations on a stream (R370, R374) -/

/-- The answer so far: what the message names, and the stream's state. -/
def hostNamed (h d : List Byte) : HostAns := { id := hostId h, gen := hostGen h, slot := hostSlot h, st := Desc.st d }

/-- The host message at the head of a link's buffer is judged, acted on and answered; it waits for its turn at the
engine, its descriptor and its accesses to memory (R374).  kind is the notice's. Log entries 90 (DEDUCED),
111 (DEDUCED). -/
def State.hostOp (s : State) (k op : Nat) (slotted : Bool) (kind : Nat)
    (act : State → List Byte → HostAns → Option HostRes) : Out :=
  match s.hostHead k op with
  | some (f :: r) =>
    let h := lineBytes f.payload
    let id := hostId h
    let s0 := s.freeFlits k 7 (r.length + 1)
    let refuse (s : State) (a : HostAns) : Out := .next ((s.hostRefused id).mgmtReply k f.src f.txn (a.bytes op))
    let named : HostAns := { id := id, gen := hostGen h, slot := hostSlot h }
    if !hostForm h (mgmtBody (f :: r)) slotted then refuse s0 { named with code := 1 }
    else if streamIds ≤ id then refuse s0 { named with code := 9 }
    else
      match s0.loadDesc id with
      | none => .next s
      | some (s1, d) =>
        if Desc.st d = stFree || Desc.gen d ≠ hostGen h then refuse s1 { named with code := 9, st := Desc.st d }
        else if Desc.ownerNode d ≠ f.src.toNat then refuse s1 { (hostNamed h d) with code := 10 }
        else if Desc.st d = stMigrating && op ≠ 5 then refuse s1 { (hostNamed h d) with code := 11 }
        else
          match act s1 d (hostNamed h d) with
          | none => .next s
          | some x =>
            if x.ans.code ≠ 0 then refuse x.s x.ans
            else
              match x.notice with
              | some nd => .next (x.s.sendNotice k kind id (hostGen h) nd f.txn f.src)
              | none =>
                let s2 := x.s.mgmtReply k f.src f.txn (x.ans.bytes op)
                .next (match x.data with
                  | some b => s2.mgmtSend k f.src (hostData x.ans) b
                  | none => s2)
  | _ => .next s

/-- CLOSE: an OPEN or FULL stream becomes CLOSING, and its home cores are told. -/
def execHostClose (link : Nat) (s : State) : Out :=
  s.hostOp link 2 false 2 fun s d a =>
    if Desc.st d = stOpen || Desc.st d = stFull then
      some { s := s.putDesc a.id (Desc.setSt d stClosing), ans := { a with st := stClosing }, notice := some d }
    else some { s := s, ans := { a with code := 11 } }

/-- END: a CLOSING or FAILED stream is freed, and its home cores are told. -/
def execHostEnd (link : Nat) (s : State) : Out :=
  s.hostOp link 6 false 3 fun s d a =>
    if Desc.st d = stClosing || Desc.st d = stFailedStream then
      some { s := s.freeStream a.id d, ans := { a with st := stFree }, notice := some d }
    else some { s := s, ans := { a with code := 11 } }

/-- QUERY: the stream's state, position and counts. -/
def execHostQuery (link : Nat) (s : State) : Out :=
  s.hostOp link 5 false 0 fun s d a =>
    some { s := s, ans := { a with w24 := field d 0 8, w32 := field d 56 8, w40 := field d 80 8 } }

/-! ## Harvest slots (R380 to R384) -/

/-- A header that R382 calls not valid, with a trailer shorter than 8 B (R386). -/
def slotBad (d h : List Byte) : Bool :=
  recGet h 0 17 15 != 0 || !zeroBytes h 22 42 || bits (field h 16 6) 44 4 != 0 ||
  decide (2 ^ Desc.slotLog2 d - 64 < Slot.length h) || (Slot.st h == 0 && !Slot.isEmpty h) ||
  (Slot.trailer h == 1 && decide (Slot.length h < 8))

/-- HOST_STATUS of an access to a slot header. -/
def HostAns.slotAns (a : HostAns) (h : List Byte) (status : Nat) (expired : Bool) : HostAns :=
  { a with
    slotByte := status + Slot.late h * 4 + Slot.trailer h * 8 + (if expired then 16 else 0)
    take := Slot.takeCount h, len := Slot.length h, w24 := Slot.result h }

/-- The slot that a message names: its address and its header after any expiry, which is written; or a refusal; none
while the header waits for its channel. Log entry 90 (DEDUCED). -/
def State.slotAccess (s : State) (d : List Byte) (a : HostAns) (acc : Access)
    (act : State → Nat → List Byte → Bool → Option HostRes) : Option HostRes :=
  if Desc.harvestSlots d ≤ a.slot then some { s := s, ans := { a with code := 12 } }
  else
    let addr := slotAddr d a.slot
    (s.readHeader addr (s.streamCls a.id) acc).bind fun r =>
      match r with
      | (s1, none) => some { s := s1, ans := { a with code := 14 } }
      | (s1, some h0) =>
        if slotBad d h0 then some { s := s1, ans := { a with code := 13 } }
        else
          let e := s1.expireSlot h0
          act (if e.2 then s1.writeHeader addr e.1 else s1) addr e.1 e.2

/-- Reads of a slot's payload lines, each at its own home controller, in the class of the stream; the last flag tells
whether every line is good. -/
def State.readPayload (s : State) (cls : Cls) : List (Nat × Access) → Option (State × Bool)
  | [] => some (s, true)
  | x :: l =>
    (s.unitAccess (homeStack (64 * x.1)) x.1 cls false x.2).bind fun r =>
      (r.1.readPayload cls l).map fun q => (q.1, q.2 && r.2 == .good)

/-- HREAD: NOT_READY, or the payload with DATA or ALREADY_TAKEN. -/
def execHostHread (op : HostSlot) (s : State) : Out :=
  s.hostOp op.link 3 true 0 fun s d a =>
    s.slotAccess d a (op.acc.getD 0 {}) fun s addr h expired =>
      if Slot.st h < 2 then some { s := s, ans := a.slotAns h 2 expired }
      else
        let lines := (List.range ((Slot.length h + 63) / 64)).map fun i => (addr / 64 + 1 + i, op.acc.getD (i + 1) {})
        (s.readPayload (s.streamCls a.id) lines).map fun r =>
          if !r.2 then { s := r.1, ans := { a with code := 14 } }
          else
            let first := Slot.st h == 2
            let h1 := putBytes (recSet h 0 0 2 3) 8 (leBytes 4 (if first then 1 else Slot.takeCount h + 1))
            { s := r.1.writeHeader addr h1, ans := a.slotAns h1 (if first then 1 else 3) expired
              data := some (Mem.readN r.1.mem (addr / 64 * 64 + 64) (Slot.length h)) }

/-- HRELEASE: a FULL or TAKEN slot becomes EMPTY. Log entry 90 (DEDUCED). -/
def execHostHrelease (op : HostSlot) (s : State) : Out :=
  s.hostOp op.link 4 true 0 fun s d a =>
    s.slotAccess d a (op.acc.getD 0 {}) fun s addr h expired =>
      if Slot.st h < 2 then some { s := s, ans := { (a.slotAns h 0 expired) with code := 11 } }
      else some { s := s.writeHeader addr (Slot.clear h), ans := a.slotAns (Slot.clear h) 0 expired }

/-! ## Submission (R375 to R377) -/

/-- Layout of a SUBMIT, its reserved fields and code points, and the fields that the die writes; the owner's are not
judged (R370). Log entry 90 (DEDUCED). -/
def submitForm (h body : List Byte) : Bool :=
  zeroBytes h 1 63 && descForm body && Desc.st body == 0 && Desc.position body == 0 && Desc.gen body == 0 &&
  Desc.harvestNext body == 0 && zeroBytes body 72 16

def Desc.kvBase (d : List Byte) : Nat := recGet d 8 0 40
def Desc.kvLength (d : List Byte) : Nat := recGet d 16 0 40

/-- R376. -/
def State.regionOk (s : State) (k : Nat) (d : List Byte) : Bool :=
  let f := s.filter k
  let ring := Desc.harvestSlots d * 2 ^ Desc.slotLog2 d
  Desc.kvBase d % 64 == 0 && Desc.kvLength d % 64 == 0 && Desc.kvLength d != 0 &&
  decide (Desc.kvBase d + Desc.kvLength d ≤ planEnd) && fWindow f (Desc.kvBase d) (Desc.kvLength d) &&
  within 6 12 (Desc.slotLog2 d) && Desc.harvestBase d % 2 ^ Desc.slotLog2 d == 0 && Desc.harvestSlots d != 0 &&
  decide (Desc.harvestBase d + ring ≤ planEnd) && fWindow f (Desc.harvestBase d) ring && s.homeOk (Desc.home d)

/-- The first check of R377 that fails, before NO_ID. -/
def State.submitCode (s : State) (k : Nat) (h d : List Byte) : Nat :=
  let cls := clsOf (BitVec.ofNat 2 (Desc.cls d))
  if !submitForm h d then 1
  else if Desc.limit d = 0 || 2097152 < Desc.limit d then 2
  else if !s.regionOk k d then 7
  else if s.refusing || !s.capacity cls then 3
  else if !s.periodOk cls (Desc.period d) then 4
  else if !s.shareOk cls k then 5
  else 0

/-- The descriptor as the die writes it (R375). -/
def State.submitDesc (s : State) (d : List Byte) (gen link node : Nat) : List Byte :=
  let d1 := recSet (recSet d 0 2 3 stOpen) 0 52 12 gen
  let d2 := recSet (recSet (recSet d1 64 0 18 node) 64 18 5 link) 72 0 44 s.epoch
  if Desc.nextDue d = 0 then recSet d2 32 0 64 (s.now + Desc.period d) else d2

/-- SUBMIT: the checks, the descriptor, the count and the open notice. -/
def execHostSubmit (link : Nat) (s : State) : Out :=
  match if s.notices.any (·.op == 1) then none else s.hostHead link 1 with
  | some (f :: r) =>
    let d := mgmtBody (f :: r)
    let s0 := s.freeFlits link 7 (r.length + 1)
    let refuse (code : Nat) : Out :=
      .next ((s0.count Ev.strmRefused 0).mgmtReply link f.src f.txn (({ code := code } : HostAns).bytes 1))
    let code := s.submitCode link (lineBytes f.payload) d
    if code ≠ 0 then refuse code
    else
      match s0.takeId, s0.handOut with
      | none, _ => refuse 6
      | some _, none => .next s
      | some _, some (id, gen, s1) =>
        let d1 := s1.submitDesc d gen link f.src.toNat
        .next ((s1.openStream id d1).sendNotice link 1 id gen d1 f.txn f.src)
  | _ => .next s

/-! ## The end of a notice -/

/-- Codes that the home cores have answered a notice with, oldest first. -/
def State.noticeCodes (s : State) (n : Notice) : List Nat :=
  let stop := noticeStop n.op n.id
  (([0, 1, 2] : List Nat).flatMap fun c => s.rings.ports.at (portKey stop c 1) []).filterMap fun f =>
    if f.txn.toNat = n.txn && f.bad == 0 then some (bits (field (lineBytes f.payload) 4 1) 0 4) else none

/-- The answers to a notice leave the port. -/
def State.clearNotice (s : State) (n : Notice) : State :=
  let stop := noticeStop n.op n.id
  let s1 := ([0, 1, 2] : List Nat).foldl (fun s c =>
    let key := portKey stop c 1
    { s with rings := { s.rings with
        ports := s.rings.ports.put key ((s.rings.ports.at key []).filter fun f => f.txn.toNat != n.txn) } }) s
  { s1 with notices := s1.notices.erase n }

/-- Every home core has answered, or the class timeout has passed (R274). -/
def State.noticeOver (s : State) (n : Notice) : Bool :=
  decide (n.await ≤ (s.noticeCodes n).length) || decide (n.deadline ≤ s.now)

/-- The code that byte 22 shows: the latest refusal, TIMEOUT where a core has not answered, else SPILLED if any.
Log entry 91 (DEDUCED). -/
def State.noticeCode (s : State) (n : Notice) : Nat :=
  let l := s.noticeCodes n
  match (l.filter fun c => decide (1 < c)).getLast? with
  | some c => c
  | none => if l.length < n.await then 13 else if l.contains 1 then 1 else 0

/-- The host message that waits for a notice is answered; a refused OPEN leaves the stream FAILED with code NOTICE.
Log entry 91 (DEDUCED). -/
def State.endNotice (s : State) (n : Notice) : State :=
  let c := s.noticeCode n
  let a : HostAns := { id := n.id, gen := n.gen, notice := c }
  let s1 := s.clearNotice n
  if n.op = 1 then
    match s1.cached n.id with
    | some d =>
      if 1 < c then
        let s2 := if Desc.gen d = n.gen && openStates.contains (Desc.st d) then
          s1.putDesc n.id (Desc.setSt d stFailedStream) else s1
        s2.mgmtReply n.link n.node n.ptxn (({ a with code := 8, st := stFailedStream } : HostAns).bytes 1)
      else s1.mgmtReply n.link n.node n.ptxn (({ a with st := Desc.st d } : HostAns).bytes 1)
    | none => s1
  else
    s1.mgmtReply n.link n.node n.ptxn
      (if n.op = 2 then ({ a with st := stClosing } : HostAns).bytes 2 else ({ a with st := stFree } : HostAns).bytes 6)

/-- Once every home core has answered a notice, its host message is answered. -/
def execSubmitNoticeDone (s : State) : Out :=
  match s.notices.find? s.noticeOver with
  | none => .next s
  | some n =>
    match s.loadDesc n.id with
    | none => .next s
    | some (s1, _) => .next (s1.endNotice n)

/-! ## Fills of the stream cache (R232) -/

/-- A host or MIGRATE message, or a notice whose answers are in, waits for a descriptor: that of the stream it names, or
of the ID that is handed out next (R374). -/
def State.wantsDesc (s : State) (id : Nat) : Bool :=
  let host (k op : Nat) : Bool := match s.hostHead k op with
    | some (f :: _) => hostId (lineBytes f.payload) == id
    | _ => false
  let new : Bool := match s.takeId with
    | some r => r.1 == id
    | none => false
  let srcs : List MgmtSrc := .warden :: (List.range 24).map .link
  s.notices.any (·.id == id) || (List.range 24).any (fun k => ([2, 3, 4, 5, 6] : List Nat).any (host k)) ||
  (new && ((List.range 24).any (fun k => (s.hostHead k 1).isSome) || srcs.any fun src => (s.unitHead src 12).isSome)) ||
  srcs.any fun src => ([11, 13] : List Nat).any fun op => match s.unitHead src op with
    | some m => unitField m.1 == id
    | none => false

/-- The engine reads a descriptor into its cache for a command that waits for it (R232).
Log entry 56 (DESIGN CHOICE). -/
def execStreamCacheFill (stack : Nat) (fill : DescFill) (s : State) : Out :=
  if fill.id % 8 ≠ stack then .next s else .next (s.cacheFill fill.id fill.acc (s.wantsDesc fill.id))

end Sys2Proof.Machine
end

