-- ==== Sys2Proof/Machine/Tray.lean ====
section
/-! DEFINITION. The tray: the warden pair and its latch (R388 to R390), bays and their power (R394 to R404), the feeds
(R400, R422) and the log (R418). -/

namespace Sys2Proof.Machine

def State.modTray (s : State) (f : Tray → Tray) : State := { s with tray := f s.tray }
def Tray.bay (t : Tray) (b : Nat) : Bay := t.bays.at b {}
def State.bay (s : State) (b : Nat) : Bay := s.tray.bay b
def State.modBay (s : State) (b : Nat) (f : Bay → Bay) : State :=
  s.modTray fun t => { t with bays := t.bays.put b (f (t.bay b)) }

/-- Tray time passes. Log entry 94 (DESIGN CHOICE). -/
def State.trayAfter (s : State) (ms : Nat) : State := s.modTray fun t => { t with ms := t.ms + ms }

/-! ## The log (R418, Table 18-14) -/

namespace LogCode
def nodeMismatch : Nat := 0x01
def noImage : Nat := 0x02
def setOrder : Nat := 0x03
def compat : Nat := 0x04
def orchard : Nat := 0x05
def startFailed : Nat := 0x06
def startTimeout : Nat := 0x07
def hbLapse : Nat := 0x08
def errCorr : Nat := 0x09
def tripFast : Nat := 0x0A
def tripSlow : Nat := 0x0B
def rampAbort : Nat := 0x0C
def rampPause : Nat := 0x0D
def overload : Nat := 0x0E
def feedLow : Nat := 0x0F
def leak : Nat := 0x10
def sensorFault : Nat := 0x11
def leakClear : Nat := 0x12
def unplannedRemoval : Nat := 0x13
def senseOpen : Nat := 0x14
def cellFault : Nat := 0x15
def measureFault : Nat := 0x16
def holdupDerated : Nat := 0x17
def cable : Nat := 0x18
def mediumMismatch : Nat := 0x19
def timeAsym : Nat := 0x1A
def cableIdBad : Nat := 0x1B
def report : Nat := 0x1C
def handover : Nat := 0x1D
def restartLimit : Nat := 0x1E
end LogCode

def noBay : Nat := 0xFF

/-- An entry of the log; its milliseconds since the latest summary are a warden's own count.
Log entry 96 (DESIGN CHOICE). -/
def State.log (s : State) (bay code : Nat) (detail : List Byte) : State :=
  let t := s.tray
  let e : LogEntry := { seq := t.nextLog, epoch := t.sumEpoch, ms := Config.wardenMs s.free, bay := bay, code := code
                        detail := (detail ++ List.replicate 15 0).take 15 }
  let l := t.log ++ [e]
  { s with
    tray := { t with log := l.drop (l.length - 65536), nextLog := t.nextLog + 1 }
    free := s.free + 1 }

/-- An entry is 32 B. Log entry 96 (DESIGN CHOICE). -/
def LogEntry.bytes (e : LogEntry) : List Byte :=
  leBytes 4 e.seq ++ leBytes 6 e.epoch ++ leBytes 4 e.ms ++ leBytes 1 e.bay ++ leBytes 2 e.code ++ e.detail

/-! ## The warden pair (R388 to R390) -/

def otherWarden : Warden → Warden
  | .a => .b
  | .b => .a

def Tray.card (t : Tray) : Warden → Card
  | .a => t.cardA
  | .b => t.cardB
def Tray.setCard (t : Tray) (w : Warden) (c : Card) : Tray :=
  match w with
  | .a => { t with cardA := c }
  | .b => { t with cardB := c }
def State.modCard (s : State) (w : Warden) (f : Card → Card) : State := s.modTray fun t => t.setCard w (f (t.card w))

/-- The standby card, if the latch names an active one and the other is seated and healthy. -/
def Tray.standby (t : Tray) : Option Warden :=
  (t.active.map otherWarden).filter fun w => (t.card w).present && (t.card w).healthy

/-- Set of the active warden's running firmware. -/
def Tray.runSet (t : Tray) : Nat :=
  match t.active with
  | some w => (t.card w).run
  | none => 0

/-- The standby takes the latch: uncommitted sessions close, the rest goes on from the mirrored record.
Log entry 97 (DEDUCED). -/
def State.takeLatch (s : State) (w : Warden) : State :=
  (s.modTray fun t => { t with
    active := some w, pulsed := t.ms, released := false
    upload := t.upload.filter (·.writing) }).log noBay LogCode.handover []

/-- The active warden pulses the latch. -/
def execLatchPulse (s : State) : Out := .next (s.modTray fun t => if t.active.isSome then { t with pulsed := t.ms } else t)

/-- The latch has stood unpulsed for 100 ms, or is free. -/
def Tray.latchOpen (t : Tray) : Bool := t.active.isNone || t.released || decide (t.pulsed + 100 ≤ t.ms)

/-- The standby claims the latch: it is granted only if the latch is free or unpulsed for 100 ms.
Log entry 97 (DEDUCED). -/
def State.claim (s : State) : State :=
  match s.tray.standby with
  | some w => if s.tray.latchOpen then s.takeLatch w else s
  | none => s

def Tray.lapsed (t : Tray) : Tray := { t with ms := max t.ms (t.pulsed + 100) }

/-- A missed pulse, an absent card, a silent warden link, or HANDOVER.  A card that is taken out while the other is active
is only gone (Table 1-8). Log entries 94 (DESIGN CHOICE), 97 (DEDUCED). -/
def execLatchClaim (cause : ClaimCause) (s : State) : Out :=
  match s.tray.active with
  | none => .next s
  | some w =>
    .next (match cause with
      | .missedPulse => ((s.modTray Tray.lapsed).modCard w fun c => { c with healthy := false }).claim
      | .cardAbsent v =>
        let out (s : State) : State := s.modCard v fun c => { c with present := false, healthy := false }
        if v = w then (out (s.modTray Tray.lapsed)).claim else out s
      | .linkSilent => (s.trayAfter 200).claim
      | .commanded => if s.tray.released then s.claim else s)

/-- A card powers up: at tray power-up A claims at once and B after 1 s; an inserted card joins as standby. -/
def execWardenCardPowerUp (w : Warden) (trayPowerUp : Bool) (s : State) : Out :=
  let s1 := s.modCard w fun c => { c with present := true, healthy := true }
  if trayPowerUp && s.tray.active.isNone then
    let s2 := match w with
      | .a => s1
      | .b => s1.trayAfter 1000
    .next (s2.modTray fun t => { t with active := some w, pulsed := t.ms })
  else .next s1

/-! ## Feeds (R400, R422) -/

/-- A feed stands at 46 V or more and its path conducts. -/
def Tray.feedOk (t : Tray) : Bool := [0, 1].any fun f => !t.feedLow.contains f && !t.blocked.contains f

def addOnce (l : List Nat) (n : Nat) : List Nat := if l.contains n then l else l ++ [n]

/-- A feed below 46 V, or blocked, for 10 ms is logged. -/
def execFeedLow (feed : Nat) (s : State) : Out :=
  if 2 ≤ feed then .next s
  else .next ((s.modTray fun t => { t with feedLow := addOnce t.feedLow feed }).log noBay LogCode.feedLow [BitVec.ofNat 8 feed])

/-- A feed stands above 62 V: its ideal-diode path blocks. -/
def execFeedOvervoltageBlock (feed : Nat) (s : State) : Out :=
  if 2 ≤ feed then .next s else .next (s.modTray fun t => { t with blocked := addOnce t.blocked feed })

/-- The path of a blocked feed conducts again, and the feed supplies the bus. Log entry 100 (DEDUCED). -/
def execFeedPathUnblock (feed : Nat) (s : State) : Out :=
  .next (s.modTray fun t => { t with
    blocked := t.blocked.filter (· != feed), feedLow := t.feedLow.filter (· != feed) })

/-! ## Bay channels (R401, R402, Table 18-7) -/

def chOff : Nat := 0
def chRamp : Nat := 1
def chPaused : Nat := 2
def chOn : Nat := 3
def chTripFast : Nat := 4
def chTripSlow : Nat := 5
def chAborted : Nat := 6
def chLeakOff : Nat := 7

/-- What a bay keeps of its module ends with its power. -/
def Bay.dark (b : Bay) : Bay :=
  { b with
    pwrEn := false, resetN := false, running := false, hbOk := false, errCorr := false, errFatal := false, held := false
    wait := .none, asked := none, reports := [], set := 0 }

/-- R394, apart from the start mode; the module is seated. -/
def State.mayStart (s : State) (b : Nat) : Bool := (s.bay b).present && !s.tray.leakLatch && s.tray.feedOk

/-- The channel's ramp begins. -/
def State.beginRamp (s : State) (b : Nat) : State :=
  s.modBay b fun y => { y.dark with chan := chRamp, wait := .ramp, retried := false }

/-- A start that no operator commanded: the bay's mode is auto, and it is not held (R394, R398, R404). -/
def State.autoStart (s : State) (b : Nat) : State :=
  let y := s.bay b
  if y.auto && !y.limited && y.chan == chOff && s.mayStart b then s.beginRamp b else s

/-- After a leak, the next bay starts once the one before it is ON (R404). -/
def State.startNext (s : State) (b : Nat) : State :=
  match s.tray.startQueue with
  | x :: r =>
    if x = b then
      let s1 := s.modTray fun t => { t with startQueue := r }
      match r with
      | n :: _ => s1.autoStart n
      | [] => s1
    else s
  | [] => s

/-- The channel's output is within 0.5 V of the bus: ON; its start goes on with the images. -/
def execRampComplete (bay : Nat) (s : State) : Out :=
  if (s.bay bay).chan != chRamp then .next s
  else .next ((s.modBay bay fun y => { y with chan := chOn, reclosed := false }).startNext bay)

/-- The bus is below 44 V: the ramp holds. -/
def execRampPause (bay : Nat) (s : State) : Out :=
  if (s.bay bay).chan != chRamp then .next s
  else .next ((s.modBay bay fun y => { y with chan := chPaused }).log bay LogCode.rampPause [])

/-- The bus has stood at 44 V or more for 1 ms. -/
def execRampResume (bay : Nat) (s : State) : Out :=
  if (s.bay bay).chan != chPaused then .next s else .next (s.modBay bay fun y => { y with chan := chRamp })

/-- The bus stayed below 38 V for 5 ms, or 200 ms of active ramp have passed. -/
def execRampAbort (bay : Nat) (s : State) : Out :=
  let c := (s.bay bay).chan
  if c != chRamp && c != chPaused then .next s
  else .next ((s.modBay bay fun y => { y.dark with chan := chAborted }).log bay LogCode.rampAbort [])

def dayMs : Nat := 86400000

/-- Tray times of the last 24 hours. -/
def lastDay (now : Nat) (l : List Nat) : List Nat := l.filter fun t => decide (now < t + dayMs)

/-- A trip opens the bay's own channel; the third in 24 hours locks it out (R402). -/
def State.trip' (s : State) (bay chan code : Nat) : State :=
  let c := (s.bay bay).chan
  if c != chRamp && c != chOn then s
  else
    (s.modBay bay fun y =>
      let l := lastDay s.tray.ms y.trips ++ [s.tray.ms]
      { y.dark with
        chan := chan, trips := l, lockout := y.lockout || decide (3 ≤ l.length)
        graftOwed := y.graftOwed || y.running }).log bay code []

/-- The channel's current passes 80 A. -/
def execTripFast (bay : Nat) (s : State) : Out := .next (s.trip' bay chTripFast LogCode.tripFast)
/-- The channel's current stands at 45 A for 2 ms. -/
def execTripSlow (bay : Nat) (s : State) : Out := .next (s.trip' bay chTripSlow LogCode.tripSlow)

/-- The channel's current stands above 40 A for 100 ms. -/
def execOverload (bay : Nat) (s : State) : Out :=
  if (s.bay bay).chan != chOn then .next s else .next (s.log bay LogCode.overload [])

/-- Ten seconds after a slow trip or an abort the warden recloses the channel, once. -/
def execReclose (bay : Nat) (s : State) : Out :=
  let y := s.bay bay
  if (y.chan != chTripSlow && y.chan != chAborted) || y.reclosed || y.lockout || !s.mayStart bay then .next s
  else .next ((((s.trayAfter 10000).beginRamp bay).modBay bay fun y => { y with reclosed := true }).log bay Config.recloseCode [])

/-! ## Leaks (R403, R404) -/

/-- A zone stays wet through the debounce: the latch opens every channel. -/
def execLeak (zone : Nat) (s : State) : Out :=
  if 10 ≤ zone then .next s
  else
    let s1 := s.modTray fun t => { t with
      leakLatch := true, wet := addOnce t.wet zone, wetAt := t.ms, startQueue := [] }
    let s2 := (List.range 8).foldl (fun s b => s.modBay b fun y =>
      { y.dark with chan := chLeakOff, graftOwed := y.graftOwed || y.running }) s1
    .next (s2.log noBay LogCode.leak [BitVec.ofNat 8 zone])

/-- A zone's sense cable is open: the latch is not set. -/
def execSensorFault (zone : Nat) (s : State) : Out :=
  if 10 ≤ zone then .next s
  else .next ((s.modTray fun t => { t with sensorFault := addOnce t.sensorFault zone, wetAt := t.ms }).log noBay
    LogCode.sensorFault [BitVec.ofNat 8 zone])

/-! ## Presence (R394, R397) -/

/-- A module is seated, and its bay starts under R394; or it is withdrawn, and its channel opens; the one that replaces it
returns by graft (Table 1-9). -/
def execModPresentNChange (bay : Nat) (present : Bool) (s : State) : Out :=
  if 8 ≤ bay || (s.bay bay).present == present then .next s
  else if present then .next ((s.modBay bay fun y => { y with present := true }).autoStart bay)
  else
    let y := s.bay bay
    let open' := y.chan == chOn || y.chan == chRamp || y.chan == chPaused
    let s1 := s.modBay bay fun y => { y.dark with
      present := false, chan := if open' then chOff else y.chan, candA := false, candB := false, graftOwed := y.graftOwed || y.running
      summary := [], bootStatus := 0 }
    .next (if y.chan = chOn then s1.log bay LogCode.unplannedRemoval [] else s1)

/-! ## Images and the start of a module (R395, R396, R417) -/

/-- Magic, CRC and kind of a page 0 (R395). -/
def pageForm (page : List Byte) : Bool :=
  page.length == pageSize && pageGood page && slice page 0 8 == containerMagic && imageKind page == 1

/-- R417: the image's set is not above the warden's. -/
def Tray.setOrderOk (t : Tray) (page : List Byte) : Bool := decide (imageSet page ≤ t.runSet)

/-- R417: every other running module of the tray and the image hold each other's sets. -/
def Tray.compatOk (t : Tray) (bay : Nat) (page : List Byte) : Bool :=
  t.bays.all fun e => e.1 == bay || !e.2.running ||
    (within e.2.compatLo e.2.compatHi (imageSet page) && within (imageCompatLo page) (imageCompatHi page) e.2.set)

/-- Log codes of the reasons that an image is no candidate; none where it is one. Log entry 98 (DEDUCED). -/
def Tray.imageFaults (t : Tray) (bay : Nat) (page auth : List Byte) : List Nat :=
  if !pageForm page then [LogCode.noImage]
  else
    (if (t.bay bay).expected == some (imageNode page) then [] else [LogCode.nodeMismatch]) ++
    (if t.setOrderOk page then [] else [LogCode.setOrder]) ++
    (if t.compatOk bay page then [] else [LogCode.compat]) ++
    (match t.authority with
     | some a => if a == auth then [] else [LogCode.orchard]
     | none => [])

/-- The detail of a refused image's log entry: its number, then both node IDs (NODE_MISMATCH, Corner 1.1) or both set
numbers (SET_ORDER, Corner 1.6), those of the tray first. Log entry 96 (DESIGN CHOICE). -/
def Tray.faultDetail (t : Tray) (bay : Nat) (img : Byte) (page : List Byte) (code : Nat) : List Byte :=
  img :: if code = LogCode.nodeMismatch then leBytes 3 ((t.bay bay).expected.getD 0) ++ leBytes 3 (imageNode page)
    else if code = LogCode.setOrder then leBytes 2 t.runSet ++ leBytes 2 (imageSet page)
    else []

def imageTriple (page : List Byte) : Nat × Nat × Nat := (imageSet page, imageCompatLo page, imageCompatHi page)

/-- Straps that name the candidates (R395). -/
def strapsFor (a b : Bool) : BitVec 2 := if a && b then 2 else if a then 0 else if b then 1 else 3

/-- The header of each image is read, the straps are set, and the main regulators are enabled. Log entry 98
(DEDUCED). -/
def State.readImages (s : State) (bay : Nat) (env : BayEnv) : State :=
  let fa := s.tray.imageFaults bay env.pageA env.authA
  let fb := s.tray.imageFaults bay env.pageB env.authB
  let a := fa.isEmpty
  let b := fb.isEmpty
  let note (img : Byte) (page : List Byte) (s : State) (c : Nat) : State :=
    if c = LogCode.noImage then s else s.log bay c (s.tray.faultDetail bay img page c)
  let s1 := fb.foldl (note 1 env.pageB) (fa.foldl (note 0 env.pageA) s)
  let reason (l : List Nat) : Byte := BitVec.ofNat 8 (l.headD 0)
  let s2 := if a || b then s1 else s1.log bay LogCode.noImage [reason fa, reason fb]
  let first := if a && (!b || decide (imageSeq env.pageB ≤ imageSeq env.pageA)) then env.authA else env.authB
  let s3 := s2.modTray fun t => { t with
    authority := if t.authority.isNone && (a || b) then some first else t.authority }
  s3.modBay bay fun y => { y with
    candA := a, candB := b, imgA := imageTriple env.pageA, imgB := imageTriple env.pageB
    straps := strapsFor a b, held := !(a || b), pwrEn := true, resetN := false, retried := false, wait := .railsGood }

/-- A bay's start: the ramp, or with the channel ON the images, straps and power. -/
def execBayStart (bay : Nat) (env : BayEnv) (s : State) : Out :=
  let y := s.bay bay
  if 8 ≤ bay then .next s
  else if y.chan = chOn && y.wait = .ramp then .next (s.readImages bay env)
  else .next (s.autoStart bay)

/-! ## Failed starts and automatic restarts (R395, R398, Table 18-5) -/

/-- One more automatic restart, or more than three in 24 hours: the bay is held with MOD_RESET_N low.
Log entry 98 (DEDUCED). -/
def State.autoRestart (s : State) (bay : Nat) (go : State → State) : State :=
  let l := lastDay s.tray.ms (s.bay bay).restarts
  if 3 ≤ l.length then
    (s.modBay bay fun y => { y with resetN := false, running := false, limited := true, wait := .none }).log bay
      LogCode.restartLimit []
  else go (s.modBay bay fun y => { y with restarts := l ++ [s.tray.ms] })

/-- START_FAILED reason of the module's latest BOOT_STATUS. -/
def Bay.failReason (y : Bay) : Nat := bits y.bootStatus.toNat 7 4

/-- The other image may be tried once (R395). -/
def Bay.mayRetry (y : Bay) : Bool :=
  !y.retried && (y.failReason == 1 || y.failReason == 2) &&
  ((y.straps == 0 && y.candB) || (y.straps == 1 && y.candA))

/-- A failed start: logged, retried with the other image's straps, or else reset and power are taken away.
Log entry 98 (DEDUCED). -/
def State.startFailed (s : State) (bay : Nat) : State :=
  let y := s.bay bay
  let s1 := s.log bay LogCode.startFailed (leBytes 8 y.bootStatus.toNat)
  if y.mayRetry then
    s1.autoRestart bay fun s => s.modBay bay fun y => { y with
      straps := 1 - y.straps, retried := true, resetN := false, errFatal := false, wait := .railsGood }
  else s1.modBay bay fun y => { y with resetN := false, wait := .resetHeld, goal := .hold }

/-- The start rate is not left 35 s after reset's release. -/
def execStartTimeout (bay : Nat) (s : State) : Out :=
  let y := s.bay bay
  if !y.resetN || y.running || y.held then .next s
  else .next (((s.trayAfter 35000).log bay LogCode.startTimeout []).startFailed bay)

/-! ## Pruning a module from the warden (R364, R399) -/

/-- The warden's present epoch: the latest summary's, and the milliseconds since. Log entry 105 (DESIGN CHOICE). -/
def State.wardenEpoch (s : State) : Nat := s.tray.sumEpoch + Config.wardenMs s.free * 1000000 / 2 ^ 20

/-- A message of the warden to a module, in a type 2 frame. -/
def State.tellBay (s : State) (bay : Nat) (body : List Byte) : State :=
  s.modBay bay fun y => { y with chanEnd := y.chanEnd.push 2 0 0 body }

/-- PRUNE or GRAFT of a module for boundary S (Table 16-3). -/
def moduleMsg (op variant node boundary : Nat) : List Byte :=
  [BitVec.ofNat 8 (0x20 + op), 0] ++ leBytes 2 variant ++ [5] ++ leBytes 3 node ++ leBytes 8 boundary ++ List.replicate 48 0

/-- Bays whose modules run. -/
def Tray.runningBays (t : Tray) : List Nat := (List.range 8).filter fun b => (t.bay b).running

/-- PRUNE of a bay's module goes to the bays given: its own names no variant. -/
def State.sendPrunes (s : State) (bay variant boundary : Nat) (bays : List Nat) : State :=
  let node := (s.bay bay).expected.getD 0
  bays.foldl (fun s b => s.tellBay b (moduleMsg 6 (if b = bay then 0xFFFF else variant) node boundary)) s

/-- A running module is pruned, and its bay waits for boundary S + 2. Log entry 99 (DEDUCED). -/
def State.pruneBay (s : State) (bay variant boundary : Nat) (goal : BayGoal) (src : Option TraySrc) : State :=
  let bays := s.tray.runningBays
  (s.sendPrunes bay variant boundary bays).modBay bay fun y => { y with
    wait := .pruned (boundary + 2), goal := goal, asked := some { await := bays, boundary := boundary, src := src } }

/-- MOD_ERR_FATAL_N while threads run (R399). -/
def State.fatalRun (s : State) (bay : Nat) : State :=
  let y := s.bay bay
  let s1 := s.pruneBay bay y.pruneVariant (s.wardenEpoch + 4) (if y.fatalAction then .again else .stop) none
  { s1 with free := s1.free + 1 }

/-- A power-down of the bay is not already under way. -/
def Bay.settled (y : Bay) : Bool := y.wait == .none

/-- MOD_HB shows no edge for 600 ms. -/
def execHbLapse (bay : Nat) (s : State) : Out :=
  let y := s.bay bay
  if !y.resetN || y.held then .next s
  else
    let s1 := s.modBay bay fun y => { y with hbOk := false }
    if !y.running then .next s1
    else
      let s2 := s1.log bay LogCode.hbLapse []
      .next (if y.hbAction && y.settled then s2.fatalRun bay else s2)

/-- MOD_ERR_CORR_N is asserted: logged with the module's standing reports. -/
def execErrCorr (bay : Nat) (s : State) : Out :=
  let y := s.bay bay
  if !y.resetN then .next s
  else
    let s1 := s.modBay bay fun y => { y with errCorr := true }
    .next (if y.reports.isEmpty then s1.log bay LogCode.errCorr []
      else y.reports.foldl (fun s r => s.log bay LogCode.errCorr r) s1)

/-- MOD_ERR_FATAL_N is asserted: a failed start, or R399. -/
def execErrFatal (bay : Nat) (s : State) : Out :=
  let y := s.bay bay
  if !y.resetN then .next s
  else
    let s1 := s.modBay bay fun y => { y with errFatal := true }
    .next (if !y.running then s1.startFailed bay else if y.settled then s1.fatalRun bay else s1)

/-! ## Sequence waits (R397, Table 18-4) -/

/-- MOD_RESET_N is asserted: what follows 10 ms later is the goal's. Log entry 99 (DEDUCED). -/
def State.powerDown (s : State) (bay : Nat) (goal : BayGoal) : State :=
  s.modBay bay fun y => { y with
    resetN := false, graftOwed := y.graftOwed || y.running, running := false, hbOk := false, wait := .resetHeld
    goal := goal, asked := none }

/-- The channel opens, and the bay starts again or stays down. -/
def State.channelOpen (s : State) (bay : Nat) : State :=
  let goal := (s.bay bay).goal
  let s1 := s.modBay bay fun y => { y.dark with chan := chOff }
  match goal with
  | .stop => s1
  | .hold => s1
  | .restart => if s1.mayStart bay then s1.beginRamp bay else s1
  | .again => s1.autoRestart bay fun s => if s.mayStart bay then s.beginRamp bay else s

/-- A bay-sequence wait expires. Log entry 94 (DESIGN CHOICE). -/
def execBaySequenceTimer (bay : Nat) (s : State) : Out :=
  let y := s.bay bay
  match y.wait with
  | .none => .next s
  | .ramp => .next s
  | .railsGood => .next ((s.trayAfter 10).modBay bay fun y => { y with resetN := true, wait := .none, bootStatus := 0 })
  | .resetHeld =>
    .next ((s.trayAfter 10).modBay bay fun y => { y with
      pwrEn := false, wait := if y.goal = .hold then .none else .powerDropped })
  | .powerDropped => .next ((s.trayAfter 50).channelOpen bay)
  | .retry => .next ((s.trayAfter 10).modBay bay fun y => { y with wait := .ramp })
  | .pruned _ => .next (s.powerDown bay y.goal)

end Sys2Proof.Machine
end

