-- ==== Sys2Proof/Machine/TrayMsg.lean ====
section
/-! DEFINITION. The tray's messages: frames at a bay's end of the warden channel (R410 to R412), the service port (R413),
the warden operations of Table 18-12, rootstock writes (R414) and firmware bundles (R415, R416). -/

namespace Sys2Proof.Machine

/-! ## Answers -/

/-- A header with the trailer of R412 over it and the bytes that follow. -/
def withTrailer (h body : List Byte) : List Byte :=
  let k := (h ++ List.replicate 60 0).take 60
  k ++ leBytes 4 (crc32c (k ++ body))

/-- Log entry 104 (DEDUCED). -/
def trailerOk (h body : List Byte) : Bool := crc32c (h.take 60 ++ body) == field h 60 4

/-- Bytes of a service-port message with its CRC, framed by 0x7E and escaped with 0x7D (R413). -/
def svcEscape (b : Byte) : List Byte := if b = 0x7E || b = 0x7D then [0x7D, b ^^^ 0x20] else [b]
def svcFrame (m : List Byte) : List Byte := [0x7E] ++ (m ++ leBytes 4 (crc32c m)).flatMap svcEscape ++ [0x7E]

def svcUnescape : List Byte → Option (List Byte)
  | [] => some []
  | 0x7E :: _ => none
  | 0x7D :: b :: r => (svcUnescape r).map ((b ^^^ 0x20) :: ·)
  | [0x7D] => none
  | b :: r => (svcUnescape r).map (b :: ·)

/-- The message of a frame whose CRC is right. -/
def svcMessage (f : List Byte) : Option (List Byte) :=
  if f.headD 0 != 0x7E || f.getLastD 0 != 0x7E || f.length < 2 then none
  else
    (svcUnescape ((f.drop 1).dropLast)).bind fun m =>
      let n := m.length - 4
      if m.length < 5 || crc32c (m.take n) != field m n 4 then none else some (m.take n)

def State.svcSend (s : State) (m : List Byte) : State :=
  s.modTray fun t => { t with svc := { t.svc with out := t.svc.out ++ [svcFrame m] } }

/-- The active warden answers a message where it came from. -/
def State.trayReply (s : State) (src : TraySrc) (h body : List Byte) : State :=
  let m := withTrailer h body ++ body
  match src with
  | .channel b => s.tellBay b m
  | .service _ => s.svcSend m

/-- WDN_STATUS (R412). -/
def wdnStatus (op code session pages : Nat) : List Byte :=
  [BitVec.ofNat 8 (0x30 + op), BitVec.ofNat 8 code] ++ leBytes 2 session ++ leBytes 4 pages ++ List.replicate 52 0

/-- Log entry 96 (DESIGN CHOICE). -/
def State.trayStatus (s : State) (src : TraySrc) (op code session pages : Nat) : State :=
  s.trayReply src (wdnStatus op code session pages) []

/-! ## Frames at a bay's end -/

/-- A report replaces what the module last said of the same condition; one whose condition is over goes (R411). -/
def sameReport (a b : List Byte) : Bool :=
  let c := field a 0 1
  c == field b 0 1 && (c != 4 || slice a 1 2 == slice b 1 2) && (c != 6 || slice a 1 1 == slice b 1 1)
def reportOver (b : List Byte) : Bool :=
  (field b 0 1 == 3 && field b 1 1 == 0) || (field b 0 1 == 4 && field b 3 1 == 0)

/-- GRAFT of a module goes to the tray's other running modules (R365). Log entry 98 (DEDUCED). -/
def State.sendGrafts (s : State) (bay epoch : Nat) : State :=
  let y := s.bay bay
  let v := if y.pruneVariant = 0xFFFF then 0xFFFF else 0
  ((s.tray.runningBays.filter (· != bay)).foldl (fun s b =>
    s.tellBay b (moduleMsg 7 v (y.expected.getD 0) (epoch + 4))) s).modBay bay fun y => { y with graftOwed := false }

/-- STATE_SUMMARY: the module runs its boot plan once BOOT_STATUS.step is 9; a graft that is owed is sent when it is
LOCKED (R399). Log entry 98 (DEDUCED). -/
def State.summary (s : State) (bay : Nat) (b : List Byte) : State :=
  let st := field b 1 8
  let epoch := bits (field b 25 8) 0 44
  let runs := bits st 0 4 == 9
  let s1 := (s.modTray fun t => { t with sumEpoch := epoch }).modBay bay fun y =>
    let img := if bitAt st 6 then y.imgB else y.imgA
    let y1 := { y with summary := b.drop 1, bootStatus := BitVec.ofNat 64 st }
    if runs then { y1 with running := true, hbOk := true, set := img.1, compatLo := img.2.1, compatHi := img.2.2 } else y1
  if runs && (s.bay bay).graftOwed && bits (field b 17 8) 0 2 == syncLocked then s1.sendGrafts bay epoch else s1

/-- A report of a bay's module: all but STATE_SUMMARY are logged. -/
def State.bayReport (s : State) (bay : Nat) (b : List Byte) : State :=
  if field b 0 1 = 1 then s.summary bay b
  else
    let s1 := (s.log bay LogCode.report b).modBay bay fun y => { y with
      reports := (y.reports.filter fun r => !sameReport r b) ++ (if reportOver b then [] else [b]) }
    if field b 0 1 = 2 then s1.modBay bay fun y => { y with bootStatus := BitVec.ofNat 64 (field b 1 8) } else s1

/-- Every module has answered the PRUNE of a bay: a BAY_CTRL is answered, and given up if one was BUSY or refused it;
an automatic prune names the next boundary to those that were BUSY (R399). Log entry 99 (DEDUCED). -/
def State.settleAsk (s : State) (bay : Nat) (a : PruneAsk) : State :=
  let y := s.bay bay
  match a.src with
  | some src =>
    let op := 3
    if a.busy.isEmpty && !a.refused then (s.modBay bay fun y => { y with asked := none }).trayStatus src op 0 0 0
    else (s.modBay bay fun y => { y with asked := none, wait := .none }).trayStatus src op (if a.refused then 4 else 6) 0 0
  | none =>
    if a.busy.isEmpty then s.modBay bay fun y => { y with asked := none }
    else
      (s.sendPrunes bay y.pruneVariant (a.boundary + 1) a.busy).modBay bay fun y => { y with
        wait := .pruned (a.boundary + 3), asked := some { await := a.busy, boundary := a.boundary + 1 } }

/-- UNIT_STATUS of a module that answers a PRUNE or a GRAFT of another's node. Log entry 99 (DEDUCED). -/
def State.unitAnswer (s : State) (bay : Nat) (b : List Byte) : State :=
  let node := field b 4 3
  let code := field b 1 1
  match (List.range 8).find? fun x => (s.bay x).expected == some node with
  | none => s
  | some x =>
    if bodyOp b = 7 then (if code = 8 then s.modBay x fun y => { y with graftOwed := true } else s)
    else if bodyOp b != 6 then s
    else
      match (s.bay x).asked with
      | none => s
      | some a =>
        if !a.await.contains bay then s
        else
          let a1 := { a with
            await := a.await.erase bay, busy := if code = 8 then a.busy ++ [bay] else a.busy
            refused := a.refused || (code != 0 && code != 8) }
          let s1 := s.modBay x fun y => { y with asked := some a1 }
          if a1.await.isEmpty then s1.settleAsk x a1 else s1

/-- A body that a bay's end accepts: a report or an answer is acted on; a forwarded operation waits for its turn. -/
def State.bayAccept (s : State) (bay : Nat) : State :=
  let drop (s : State) : State := s.modBay bay fun y => { y with chanEnd := { y.chanEnd with inbox := y.chanEnd.inbox.dropLast } }
  match (s.bay bay).chanEnd.inbox.getLast? with
  | some (1, _, _, b) => if bodyGroup b = 3 then s else drop s
  | some (2, _, _, b) => if bodyGroup b = 2 then (drop s).unitAnswer bay b else drop s
  | some (3, _, _, b) => (drop s).bayReport bay b
  | _ => drop s

def State.bayFrame (s : State) (bay : Nat) (frame : List Byte) : State :=
  let r := (s.bay bay).chanEnd.receive frame
  let s1 := s.modBay bay fun y => { y with chanEnd := r.1 }
  if r.2.1 then s1.bayAccept bay else s1

/-- A frame reaches one end of a warden channel. -/
def execWardenChannelFrame (e : ChanEnd) (frame : List Byte) (s : State) : Out :=
  match e with
  | .die => if s.alive then .next (s.dieFrame frame) else .next s
  | .bay b => if b < 8 && s.tray.active.isSome then .next (s.bayFrame b frame) else .next s

/-- 1 ms has passed without an ack. -/
def execWardenChannelResend (e : ChanEnd) (s : State) : Out :=
  match e with
  | .die => .next (if s.alive then { s with wdn := s.wdn.resend } else s)
  | .bay b => .next (if b < 8 then s.modBay b fun y => { y with chanEnd := y.chanEnd.resend } else s)

/-- A channel that is down sends a resynchronisation frame. -/
def WdnEnd.resync (e : WdnEnd) : WdnEnd := if e.up then e else { e with wire := [e.resyncFrame] }
def execWardenChannelResync (e : ChanEnd) (s : State) : Out :=
  match e with
  | .die => .next (if s.alive then { s with wdn := s.wdn.resync } else s)
  | .bay b => .next (if b < 8 then s.modBay b fun y => { y with chanEnd := y.chanEnd.resync } else s)

/-! ## Warden operations (Table 18-12) -/

/-- What an operation leaves: the state, the fields of its WDN_STATUS, the DATA after it; RS_COMMIT and FW_COMMIT are
answered later, and so is a BAY_CTRL that prunes. -/
structure TrayAns where
  st : State
  code : Nat := 0
  session : Nat := 0
  pages : Nat := 0
  data : Option (List Byte) := none
  later : Bool := false

/-- The next operation from a source, with what is left of it there. -/
def State.trayHead (s : State) (src : TraySrc) : Option (List Byte × State) :=
  match src with
  | .channel b =>
    match (s.bay b).chanEnd.inbox with
    | (1, _, _, m) :: rest => some (m, s.modBay b fun y => { y with chanEnd := { y.chanEnd with inbox := rest } })
    | _ => none
  | .service f => (svcMessage f).map fun m => (m, s)

/-- Fields that a message may set; every other byte from 2 to 59 is zero. -/
def onlyFields (h : List Byte) (used : List (Nat × Nat)) : Bool :=
  (List.range 58).all fun i => used.any (fun u => decide (u.1 ≤ i + 2) && decide (i + 2 < u.1 + u.2)) || zeroBytes h (i + 2) 1

/-- The bay of a message, or 0xFF for the tray. -/
def trayBay (h : List Byte) : Nat := field h 1 1

/-- The level of the service port's session allows the op (R413). -/
def Tray.svcMay (t : Tray) (op : Nat) : Bool :=
  op == 1 || op == 2 || t.svc.level == some 3 || (op == 4 && t.authority.isNone)

/-- An operation of Table 18-12 that a warden may be sent. -/
def trayDefined (m : List Byte) : Bool := decide (1 ≤ bodyOp m) && decide (bodyOp m ≤ 13)

/-- An operation is taken, judged, acted on and answered; one with a reserved op that stands before it is answered as
malformed (R9). Log entry 118 (DEDUCED). -/
def State.trayMsg (s : State) (src : TraySrc) (op : Nat) (pick : List Byte → Bool) (form : List Byte → List Byte → Bool)
    (act : State → List Byte → List Byte → TrayAns) : Out :=
  match s.trayHead src with
  | none => .next s
  | some (m, s0) =>
    let h := m.take 64
    let body := m.drop 64
    if !s.tray.active.isNone && bodyGroup m == 3 && !trayDefined m then
      .next (s0.trayStatus src (bodyOp m) (if trailerOk h body then 1 else 2) 0 0)
    else if s.tray.active.isNone || bodyGroup m != 3 || bodyOp m != op || !pick h then .next s
    else if !trailerOk h body then .next (s0.trayStatus src op 2 0 0)
    else if m.length < 64 || !form h body then .next (s0.trayStatus src op 1 0 0)
    else if (match src with
        | .service _ => !s.tray.svcMay op
        | .channel _ => false) then .next (s0.trayStatus src op 3 0 0)
    else
      let a := act s0 h body
      if a.later then .next a.st
      else
        let s1 := a.st.trayStatus src op a.code a.session a.pages
        .next (match a.data with
          | none => s1
          | some d => s1.trayReply src ([0x3E, BitVec.ofNat 8 (trayBay h)] ++ leBytes 2 d.length) d)

def always (_ : List Byte) : Bool := true
/-- Form of a message with no fields beyond those given, for a bay or for the tray. -/
def trayForm (used : List (Nat × Nat)) (n : Nat) (h body : List Byte) : Bool :=
  (decide (trayBay h < 8) || trayBay h == 0xFF) && onlyFields h used && body.length == n
def bayForm (used : List (Nat × Nat)) (h body : List Byte) : Bool :=
  decide (trayBay h < 8) && onlyFields h used && body.isEmpty

/-! ## Status and log -/

/-- Usable energy in J: ½ × (300/18) F × (V² − 27²) at 96 %, times (18 − k)/18 (R405, R408), rounded down.
Log entry 101 (DEDUCED). -/
def usableJ (h : HoldUp) : Nat :=
  if !h.fitted || !h.converter || !h.failed.isEmpty then 0
  else 300 * (h.total * h.total - 27000 * 27000) * 96 * (18 - h.unknown.length) / (36 * 18 * 100 * 1000000)

/-- TRW_BAY (Table 18-15). Log entry 105 (DESIGN CHOICE). -/
def State.trwBay (s : State) (b : Nat) : Nat :=
  let y := s.bay b
  y.chan % 8 + boolBit y.present 3 + boolBit y.hbOk 4 + boolBit y.pwrEn 5 + boolBit y.errCorr 6 + boolBit y.errFatal 7 +
  y.straps.toNat * 2 ^ 8 + y.expected.getD 0 % 2 ^ 18 * 2 ^ 10 + y.set % 2 ^ 16 * 2 ^ 28 +
  min 15 (lastDay s.tray.ms y.restarts).length * 2 ^ 44 + (Config.bayCurrent (s.free + b)).toNat * 2 ^ 48

def maskOf (l : List Nat) (n : Nat) : Nat := (((List.range n).filter l.contains).map (2 ^ ·)).sum

/-- TRW_TRAY (Table 18-15). -/
def State.trwTray (s : State) : Nat :=
  let t := s.tray
  boolBit (t.active == some .b) 0 + boolBit t.leakLatch 1 + boolBit t.standby.isSome 2 + maskOf t.wet 10 * 2 ^ 3 +
  maskOf t.sensorFault 10 * 2 ^ 13 + maskOf (t.holdUp.unknown.map (· - 1)) 18 * 2 ^ 23 + usableJ t.holdUp % 2 ^ 16 * 2 ^ 41

def execTrayQuery (src : TraySrc) (s : State) : Out :=
  s.trayMsg src 1 always (trayForm [] 0) fun s _ _ =>
    { st := { s with free := s.free + 8 }
      data := some (((List.range 8).flatMap fun b => leBytes 8 (s.trwBay b)) ++ leBytes 8 s.trwTray) }

/-- LOG_READ: entries from a seq on, 1 to 64. -/
def execLogRead (src : TraySrc) (s : State) : Out :=
  s.trayMsg src 2 always (fun h body => trayForm [(4, 5)] 0 h body && within 1 64 (field h 8 1)) fun s h _ =>
    { st := s
      data := some (((s.tray.log.filter fun e => decide (field h 4 4 ≤ e.seq)).take (field h 8 1)).flatMap LogEntry.bytes) }

/-! ## BAY_CTRL -/

def ctrlAction (h : List Byte) : Nat := field h 4 1

/-- Reset is held for 10 ms, and start goes on from row 4 of Table 18-4 (R394). -/
def State.fromRow4 (s : State) (bay : Nat) : State :=
  s.modBay bay fun y => { y with resetN := false, held := false, limited := false, wait := .retry }

/-- START: a held or powered-down module starts from its images, any other from the channel's ramp. -/
def State.ctrlStart (s : State) (bay : Nat) : TrayAns :=
  let y := s.bay bay
  if s.tray.leakLatch then { st := s, code := 7 }
  else if !s.mayStart bay || y.running || !y.settled || y.lockout then { st := s, code := 4 }
  else if y.chan = chOn then (if y.held || !y.resetN then { st := s.fromRow4 bay } else { st := s, code := 4 })
  else { st := (s.modBay bay fun y => { y with limited := false }).beginRamp bay }

/-- STOP and RESTART: a running module is pruned first; one that has not started is powered down at once (R397). -/
def State.ctrlDown (s : State) (src : TraySrc) (h : List Byte) (goal : BayGoal) : TrayAns :=
  let bay := trayBay h
  let y := s.bay bay
  if y.chan != chOn || !y.settled then { st := s, code := 4 }
  else if y.running then { st := s.pruneBay bay (field h 16 2) (field h 8 8) goal (some src), later := true }
  else { st := s.powerDown bay goal }

def downForm (h body : List Byte) : Bool := bayForm [(4, 1), (8, 10)] h body && decide (field h 8 8 < 2 ^ 44)

/-- START; it also answers a BAY_CTRL of a reserved action. -/
def execBayCtrlStart (src : TraySrc) (s : State) : Out :=
  s.trayMsg src 3 (fun h => ctrlAction h != 2 && ctrlAction h != 3 && ctrlAction h != 4)
    (fun h body => bayForm [(4, 1)] h body && ctrlAction h == 1) fun s h _ => s.ctrlStart (trayBay h)

/-- Log entry 99 (DEDUCED). -/
def execBayCtrlStop (src : TraySrc) (s : State) : Out :=
  s.trayMsg src 3 (fun h => ctrlAction h == 2) downForm fun s h _ => s.ctrlDown src h .stop

/-- RESTART; of a held module, a start from row 4. -/
def execBayCtrlRestart (src : TraySrc) (s : State) : Out :=
  s.trayMsg src 3 (fun h => ctrlAction h == 3) downForm fun s h _ =>
    if s.tray.leakLatch then { st := s, code := 7 }
    else if (s.bay (trayBay h)).held && (s.bay (trayBay h)).settled then { st := s.fromRow4 (trayBay h) }
    else s.ctrlDown src h .restart

/-- RESET_LOCKOUT: the lockout and the count of trips are cleared, and a tripped channel is OFF. -/
def execBayCtrlResetLockout (src : TraySrc) (s : State) : Out :=
  s.trayMsg src 3 (fun h => ctrlAction h == 4) (bayForm [(4, 1)]) fun s h _ =>
    { st := s.modBay (trayBay h) fun y => { y with
        lockout := false, trips := []
        chan := if y.chan = chTripFast || y.chan = chTripSlow || y.chan = chAborted then chOff else y.chan } }

/-! ## TRAY_CFG, LEAK_CLEAR, HANDOVER -/

/-- TRAY_CFG: a bay's expected node, modes and prune variant; or the learned authority is cleared (R396). -/
def execTrayCfg (src : TraySrc) (s : State) : Out :=
  s.trayMsg src 4 always
    (fun h body => bayForm [(4, 6)] h body && decide (field h 4 3 < 2 ^ 18) && decide (field h 7 1 < 32)) fun s h _ =>
    let f := field h 7 1
    let s1 := s.modBay (trayBay h) fun y => { y with
      expected := if bitAt f 0 then some (field h 4 3) else none
      auto := bitAt f 1, hbAction := bitAt f 2, fatalAction := bitAt f 3, pruneVariant := field h 8 2 }
    { st := if bitAt f 4 then s1.modTray fun t => { t with authority := none } else s1 }

/-- LEAK_CLEAR: accepted once every zone has read dry, with no fault, for 60 s; bays then start one at a time.
Log entry 100 (DEDUCED). -/
def execLeakClear (src : TraySrc) (s : State) : Out :=
  s.trayMsg src 13 always (trayForm [] 0) fun s _ _ =>
    if !s.tray.leakLatch || s.tray.ms < s.tray.wetAt + 60000 then { st := s, code := 4 }
    else
      let s1 := s.modTray fun t => { t with
        leakLatch := false, wet := [], sensorFault := []
        bays := t.bays.map fun e => if e.2.chan = chLeakOff then (e.1, { e.2 with chan := chOff }) else e }
      let q := (List.range 8).filter fun b => (s1.bay b).auto && (s1.bay b).present && (s1.bay b).chan == chOff
      let s2 := (s1.modTray fun t => { t with startQueue := q }).log noBay LogCode.leakClear []
      { st := match q with
          | b :: _ => s2.autoStart b
          | [] => s2 }

/-- HANDOVER: the active warden frees the latch for the standby, if it has one. Log entry 97 (DEDUCED). -/
def execHandover (src : TraySrc) (s : State) : Out :=
  s.trayMsg src 12 always (trayForm [] 0) fun s _ _ =>
    if s.tray.standby.isNone then { st := s, code := 4 }
    else { st := s.modTray fun t => { t with released := true } }

/-! ## Uploads (R414, R415) -/

def Upload.whole (u : Upload) : Nat :=
  ((List.range u.pages).filter fun p => (u.chunks.find (2 * p)).isSome && (u.chunks.find (2 * p + 1)).isSome).length
def Upload.image (u : Upload) : List Byte := (List.range (2 * u.pages)).flatMap fun c => u.chunks.at c []

/-- A session opens, if none is. -/
def State.openUpload (s : State) (src : TraySrc) (bundle : Bool) (bay : Nat) (second : Bool) (pages : Nat) : TrayAns :=
  if s.tray.upload.isSome then { st := s, code := 6 }
  else
    let id := s.tray.nextUpload
    { st := s.modTray fun t => { t with
        upload := some { id := id, bundle := bundle, bay := bay, second := second, pages := pages, src := src }
        nextUpload := if id = 65535 then 1 else id + 1 }
      session := id }

def pagesOk (h : List Byte) : Bool := within 3 65536 (field h 8 4)

/-- Log entry 104 (DEDUCED). -/
def execRsOpen (src : TraySrc) (s : State) : Out :=
  s.trayMsg src 5 always (fun h body => bayForm [(4, 1), (8, 4)] h body && decide (field h 4 1 < 2) && pagesOk h)
    fun s h _ => s.openUpload src false (trayBay h) (field h 4 1 == 1) (field h 8 4)

def execFwOpen (src : TraySrc) (s : State) : Out :=
  s.trayMsg src 8 always (fun h body => trayForm [(8, 4)] 0 h body && pagesOk h)
    fun s h _ => s.openUpload src true 0 false (field h 8 4)

/-- The open session that a message names. -/
def State.uploadOf (s : State) (bundle : Bool) (h : List Byte) : Option Upload :=
  s.tray.upload.filter fun u => u.bundle == bundle && u.id == field h 2 2 && !u.writing

/-- 2,048 B at a multiple of 2,048 below the image's end. -/
def State.chunk (s : State) (bundle : Bool) (h body : List Byte) : TrayAns :=
  match s.uploadOf bundle h with
  | none => { st := s, code := 8, session := field h 2 2 }
  | some u =>
    if 4096 * u.pages ≤ field h 4 4 then { st := s, code := 8, session := u.id, pages := u.whole }
    else
      let u1 := { u with chunks := u.chunks.put (field h 4 4 / 2048) body }
      { st := s.modTray fun t => { t with upload := some u1 }, session := u.id, pages := u1.whole }

def chunkForm (h body : List Byte) : Bool := trayForm [(2, 6)] 2048 h body && field h 4 4 % 2048 == 0

def execRsChunk (src : TraySrc) (s : State) : Out :=
  s.trayMsg src 6 always chunkForm fun s h body => s.chunk false h body

def execFwChunk (src : TraySrc) (s : State) : Out :=
  s.trayMsg src 9 always chunkForm fun s h body => s.chunk true h body

def State.endUpload (s : State) : State := s.modTray fun t => { t with upload := none }

/-- The authority that an image carries. -/
def imageAuthority (img : List Byte) : List Byte := (sectionOf img 2).getD []

/-- R414: the image is one that the bay's module may start; the codes that the log gets. -/
def State.rsFaults (s : State) (bay : Nat) (img : List Byte) : List Nat :=
  s.tray.imageFaults bay (imagePage img 0) ((s.tray.authority).getD (imageAuthority img))

/-- The bay's module runs from the image that a session would write (R414). Log entry 104 (DEDUCED). -/
def Bay.runsImage (y : Bay) (second : Bool) : Bool := y.running && bitAt y.bootStatus.toNat 6 == second

/-- MOD_RESET_N is released with straps 00, 01 or 10, and start has not ended: neither image is written (R337). -/
def Bay.starting (y : Bay) : Bool := y.resetN && !y.running && y.straps != 3

/-- RS_COMMIT: the checks, and then the write, whose end answers it. Log entry 104 (DEDUCED). -/
def execRsCommit (src : TraySrc) (s : State) : Out :=
  s.trayMsg src 7 always (trayForm [(2, 2)] 0) fun s h _ =>
    match s.uploadOf false h with
    | none => { st := s, code := 8, session := field h 2 2 }
    | some u =>
      let ans (s : State) (code : Nat) : TrayAns := { st := s, code := code, session := u.id, pages := u.whole }
      let y := s.bay u.bay
      if u.whole ≠ u.pages then ans s 8
      else if y.chan != chOn || y.starting || y.runsImage u.second then ans s 4
      else
        let faults := s.rsFaults u.bay u.image
        let detail (t : Tray) (c : Nat) := t.faultDetail u.bay (if u.second then 1 else 0) (imagePage u.image 0) c
        let s1 := (faults.filter fun c => c != LogCode.noImage).foldl (fun s c => s.log u.bay c (detail s.tray c)) s
        if !rootstockValid u.image || !faults.isEmpty then ans s1.endUpload 5
        else if s.tray.authority.any (· != imageAuthority u.image) then ans (s1.log u.bay LogCode.orchard []).endUpload 9
        else { st := s1.modTray fun t => { t with upload := some { u with writing := true, src := src } }, later := true }

/-- The write that a session asked for, if one is under way. -/
def State.writingOf (s : State) (bundle : Bool) : Option Upload :=
  s.tray.upload.filter fun u => u.writing && u.bundle == bundle

/-- The modelled module's flash holds an image. Log entry 95 (DESIGN CHOICE). -/
def State.flash (s : State) (second : Bool) (img : List Byte) : State :=
  { s with boot := if second then { s.boot with flashB := img } else { s.boot with flashA := img } }

/-- A rootstock's write and read-back end: RS_COMMIT is answered, and a held bay starts from its images (R394); while the
module starts, the write waits (R337).
Log entry 95 (DESIGN CHOICE). -/
def execRootstockWriteDone (ok : Bool) (s : State) : Out :=
  match s.writingOf false with
  | none => .next s
  | some u =>
    if (s.bay u.bay).starting then .next s
    else
    let img := u.image
    let s1 := if u.bay = Config.ownBay then s.flash u.second (if ok then img else []) else s
    let s2 := s1.endUpload.modTray fun t => { t with
      written := (t.written.filter fun w => !(w.1 == u.bay && w.2.1 == u.second)) ++
        (if ok then [(u.bay, u.second, img)] else []) }
    let y := s.bay u.bay
    let s3 := if ok && y.held && y.settled && (s.rsFaults u.bay img).isEmpty then s2.fromRow4 u.bay else s2
    .next (s3.trayStatus u.src 7 (if ok then 0 else 5) u.id u.pages)

def bundleMagic : List Byte := asciiBytes "OBPELFW1"

/-- A firmware bundle (R415). -/
def bundleValid (img : List Byte) : Bool :=
  let ch := sigChain img
  pagesGood img && headerForm img bundleMagic 0 && imageSeq img == 0 && versionOk img [0x30, 0x31] &&
  sectionTypes img [0x30] (fun _ => 1) && sigForm img && (chainCerts ch).all certForm &&
  chainOk ch Config.releaseKey [3] && certIssuer (chainLeaf ch) == 0 && sigGood img

/-- FW_COMMIT: the bundle is checked, and then written to both wardens. -/
def execFwCommit (src : TraySrc) (s : State) : Out :=
  s.trayMsg src 10 always (trayForm [(2, 2)] 0) fun s h _ =>
    match s.uploadOf true h with
    | none => { st := s, code := 8, session := field h 2 2 }
    | some u =>
      if u.whole ≠ u.pages then { st := s, code := 8, session := u.id, pages := u.whole }
      else if !bundleValid u.image then { st := s.endUpload, code := 5, session := u.id, pages := u.whole }
      else { st := s.modTray fun t => { t with upload := some { u with writing := true, src := src } }, later := true }

/-- The bundle is in the STAGED slot of both wardens, or its write failed. -/
def execBundleWriteDone (ok : Bool) (s : State) : Out :=
  match s.writingOf true with
  | none => .next s
  | some u =>
    let put (c : Card) : Card := if c.present && ok then { c with staged := some { set := imageSet u.image } } else c
    .next ((s.endUpload.modTray fun t => { t with cardA := put t.cardA, cardB := put t.cardB }).trayStatus u.src 10
      (if ok then 0 else 5) u.id u.pages)

/-! ## Activation (R416) -/

/-- A card boots its staged bundle: it becomes RUN, and the old RUN becomes PREV. -/
def Card.bootStaged (c : Card) : Card :=
  match c.staged with
  | some b => { c with run := b.set, prev := c.run, healthy := false }
  | none => c

/-- The rebooted card goes back to PREV, and its bundle is marked failed. -/
def Card.fallBack (c : Card) : Card :=
  { c with run := c.prev, healthy := true, staged := c.staged.map fun b => { b with failed := true } }

/-- Both wardens hold the same staged bundle, not failed, with a set above their own, and the standby is healthy. -/
def Tray.mayActivate (t : Tray) : Bool :=
  t.activation == 0 && t.standby.isSome &&
  (match t.cardA.staged, t.cardB.staged with
   | some a, some b => a.set == b.set && !a.failed && !b.failed && decide (t.cardA.run < a.set) && decide (t.cardB.run < a.set)
   | _, _ => false)

/-- FW_ACTIVATE: the standby card is power-cycled onto the staged bundle. -/
def execFwActivate (src : TraySrc) (s : State) : Out :=
  s.trayMsg src 11 always (trayForm [] 0) fun s _ _ =>
    match s.tray.standby with
    | some w =>
      if s.tray.mayActivate then { st := (s.modCard w Card.bootStaged).modTray fun t => { t with activation := 1 } }
      else { st := s, code := 4 }
    | none => { st := s, code := 4 }

/-- The card that boots the staged bundle. -/
def Tray.booting (t : Tray) : Option Warden := if t.activation = 0 then none else t.active.map otherWarden

def Tray.dropStaged (t : Tray) : Tray :=
  { t with cardA := { t.cardA with staged := none }, cardB := { t.cardB with staged := none } }

/-- The rebooted warden has rejoined and stayed healthy for 60 s: handover and the second card, or the end. -/
def execFwRejoinHealthy (s : State) : Out :=
  match s.tray.booting with
  | none => .next s
  | some w =>
    let s1 := (s.trayAfter 60000).modCard w fun c => { c with healthy := true }
    if s.tray.activation = 1 then
      .next (((s1.takeLatch w).modCard (otherWarden w) Card.bootStaged).modTray fun t => { t with activation := 2 })
    else .next (s1.modTray fun t => { t.dropStaged with activation := 0 })

/-- The rebooted warden has not rejoined in 120 s, or not stayed healthy: it returns to PREV, the bundle is marked
failed on both cards, and activation ends. -/
def execFwRejoinTimeout (s : State) : Out :=
  match s.tray.booting with
  | none => .next s
  | some w =>
    let fail (c : Card) : Card := { c with staged := c.staged.map fun b => { b with failed := true } }
    .next ((((s.trayAfter 120000).modCard w Card.fallBack).modTray fun t =>
      { (t.setCard (otherWarden w) (fail (t.card (otherWarden w)))) with activation := 0 }).log noBay Config.activationCode [])

/-! ## The service port (R413) -/

/-- A group 0x4 message of a frame. -/
def spMessage (f : List Byte) (op : Nat) : Option (List Byte) :=
  (svcMessage f).filter fun m => bodyGroup m == 4 && bodyOp m == op

/-- SP_HELLO: a 32 B nonce is the answer, and the session starts anew. Log entry 103 (DEDUCED). -/
def execSpHello (frame : List Byte) (s : State) : Out :=
  match spMessage frame 1 with
  | none => .next s
  | some m =>
    if m.length ≠ 1 || s.tray.active.isNone then .next s
    else
      let nonce := leBytes 32 (Config.random s.free)
      let s1 := { s with free := s.free + 1 }.modTray fun t => { t with svc := { t.svc with nonce := nonce, level := none } }
      .next (s1.svcSend ([0x41] ++ nonce))

/-- A chain of one or two certificates and a signature over the nonce (R413). Log entry 103 (DEDUCED). -/
def spLevel (t : Tray) (m : List Byte) : Option Nat :=
  let n := (m.length - 97) / 272
  let ch := (m.drop 1).take (272 * n)
  match t.authority with
  | none => none
  | some a =>
    if !within 1 2 n || m.length ≠ 97 + 272 * n || t.svc.nonce.isEmpty then none
    else if (chainCerts ch).all certForm && chainOk ch (slice a 0 97) [1, 2] &&
        ecdsaVerify (certKey (chainLeaf ch)) (asciiBytes "OBPEL SP 1" ++ t.svc.nonce) (m.drop (1 + 272 * n)) then
      some (((chainCerts ch).map certPriv).foldl min 3)
    else none

/-- SP_AUTH: the session's level is the lower max_priv of the chain; a nonce serves once. Log entry 103 (DEDUCED). -/
def execSpAuth (frame : List Byte) (s : State) : Out :=
  match spMessage frame 2 with
  | none => .next s
  | some m =>
    .next (s.modTray fun t => { t with svc := { t.svc with level := spLevel t m, nonce := [] } })

/-- USB detach, or 10 minutes idle. -/
def execSpSessionEnd (s : State) : Out := .next (s.modTray fun t => { t with svc := {} })

end Sys2Proof.Machine
end

