-- ==== Sys2Proof/Machine/TraySense.lean ====
section
/-! DEFINITION. The hold-up string (R405 to R408) and the rear connectors (R409, R423). -/

namespace Sys2Proof.Machine

/-! ## The string monitor (R406) -/

/-- Sum of the cells and string total differ by 60 mV or less. -/
def consistentSum (cells : List Nat) (total : Nat) : Bool :=
  decide (cells.sum ≤ total + 60) && decide (total ≤ cells.sum + 60)

/-- Numbers of the known cells, 1 to 18. -/
def HoldUp.known (h : HoldUp) : List Nat := (List.range 18).map (· + 1) |>.filter fun c => !h.unknown.contains c

def cellV (cells : List Nat) (c : Nat) : Nat := cells.getD (c - 1) 0

/-- Known cells more than 20 mV above the mean of the known cells. -/
def HoldUp.balance (h : HoldUp) (cells : List Nat) : List Nat :=
  let k := h.known
  let sum := (k.map (cellV cells)).sum
  k.filter fun c => decide (sum + 20 * k.length < cellV cells c * k.length)

/-- Two adjacent cells stand more than 100 mV from the mean, on opposite sides (R407). -/
def suspiciousPair (cells : List Nat) : Bool :=
  let n := cells.length
  let above (i : Nat) : Bool := decide (cells.sum + 100 * n < cells.getD i 0 * n)
  let below (i : Nat) : Bool := decide (cells.getD i 0 * n + 100 * n < cells.sum)
  (List.range 17).any fun i => (above i && below (i + 1)) || (below i && above (i + 1))

/-- Known cells below 1.50 V or above 2.75 V. Log entry 101 (DEDUCED). -/
def HoldUp.faults (h : HoldUp) (cells : List Nat) : List Nat :=
  h.known.filter fun c => decide (cellV cells c < 1500) || decide (2750 < cellV cells c)

/-- Once a second: every cell is measured, balanced and judged. -/
def execStringMeasure (cells : List Nat) (total : Nat) (s : State) : Out :=
  let s0 := s.modTray fun t => { t with ms := (t.ms / 1000 + 1) * 1000 }
  let h := s.tray.holdUp
  if !h.fitted || cells.length ≠ 18 then .next s0
  else
    let good := consistentSum cells total
    let new := (if good then h.faults cells else []).filter fun c => !h.failed.contains c
    let h1 := { h with
      cells := cells, total := total, bleed := h.balance cells, failed := h.failed ++ new
      charging := h.charging && new.isEmpty, suspicious := good && suspiciousPair cells }
    .next (new.foldl (fun s c => s.log noBay LogCode.cellFault [BitVec.ofNat 8 c])
      (s0.modTray fun t => { t with holdUp := h1 }))

/-! ## The tap test (R407, Table 18-8) -/

def tapMove (moves : List Nat) (j : Nat) : Nat := moves.getD j 0

/-- A tap found open by its movement: an interior one, or an end one while the sum disagrees. -/
def tapOpen (moves : List Nat) (consistent : Bool) (j : Nat) : Bool :=
  decide (200 < tapMove moves j) && (within 1 17 j || !consistent)

def tapMarginal (moves : List Nat) (j : Nat) : Bool := within 5 200 (tapMove moves j)
def tapSound (moves : List Nat) (j : Nat) : Bool := decide (tapMove moves j < 5)

/-- Cells that an open tap leaves unknown. -/
def tapCells (j : Nat) : List Nat := if j = 0 then [1] else if j = 18 then [18] else [j, j + 1]

/-- What the test finds of the taps: marginal runs, and open taps. Log entry 101 (DEDUCED). -/
def HoldUp.taps (h : HoldUp) (moves : List Nat) (consistent : Bool) : Tab Nat × List Nat :=
  let js := List.range 19
  let run : Tab Nat := (js.filter (tapMarginal moves)).map fun j => (j, h.marginal.at j 0 + 1)
  (run, js.filter fun j =>
    tapOpen moves consistent j || (Tab.at run j 0 ≥ 3) || (h.openTaps.contains j && !tapSound moves j))

/-- Each tap is tested: open ones leave their cells unknown, sound ones return theirs; k unknown cells derate. -/
def execTapTest (moves : List Nat) (consistent : Bool) (s : State) : Out :=
  let h := s.tray.holdUp
  let s0 := if h.suspicious then s else s.modTray fun t => { t with ms := (t.ms / 10000 + 1) * 10000 }
  if !h.fitted || moves.length ≠ 19 then .next s0
  else
    let fault := !consistent && (List.range 19).all (tapSound moves)
    let r := h.taps moves consistent
    let all := (List.range 18).map (· + 1)
    let unknown := if fault then all else all.filter fun c => r.2.any fun j => (tapCells j).contains c
    let h1 := { h with
      marginal := r.1, openTaps := r.2, measureFault := fault, unknown := unknown, suspicious := false
      charging := h.failed.isEmpty && decide (unknown.length < 18), bleed := h.bleed.filter fun c => !unknown.contains c }
    let s1 := s0.modTray fun t => { t with holdUp := h1 }
    let s2 := (r.2.filter fun j => !h.openTaps.contains j).foldl (fun s j => s.log noBay LogCode.senseOpen [BitVec.ofNat 8 j]) s1
    let s3 := if fault && !h.measureFault then s2.log noBay LogCode.measureFault [] else s2
    .next (if unknown.length = h.unknown.length then s3
      else s3.log noBay LogCode.holdupDerated [BitVec.ofNat 8 unknown.length])

/-- The pack is removed, its converter stopped first; or a new one is fitted. -/
def execHoldupPackChange (fitted : Bool) (s : State) : Out :=
  let h := s.tray.holdUp
  if fitted == h.fitted then .next s
  else
    let h1 : HoldUp := if fitted then {} else { h with fitted := false, converter := false, charging := false, bleed := [] }
    let s1 := s.modTray fun t => { t with holdUp := h1 }
    .next (if h1.unknown.length = h.unknown.length then s1 else s1.log noBay LogCode.holdupDerated [BitVec.ofNat 8 h1.unknown.length])

/-! ## Rear connectors (R409, Table 18-9) -/

/-- A cable's identity record was read whole, passes its CRC, and is not malformed (R8, R9). Log entry 102 (DEDUCED). -/
def cableGood (r : List Byte) : Bool :=
  r.length == 64 && crc32c (r.take 60) == field r 60 4 && slice r 0 4 == asciiBytes "OBCB" && field r 4 1 == 1 &&
  decide (field r 5 1 ≤ 2) && zeroBytes r 26 34

/-- Bay and link of a connector's position (R423). -/
def connectorLink (conn pos : Nat) : Nat × Nat :=
  let e := 4 * conn + pos
  (e / 17, 7 + e % 17)

/-- The medium bit of a link in the rootstock of its bay's module: the modelled module's own, or another's.
Log entry 105 (DESIGN CHOICE). -/
def State.linkMedium (s : State) (bay link : Nat) : Bool :=
  if bay = Config.ownBay then s.boot.rs.medium.getLsbD link else Config.bayMedium bay link

/-- The record's medium is a cable where the rootstock says cable, a backplane where it says backplane. -/
def State.mediumOk (s : State) (conn : Nat) (r : List Byte) : Bool :=
  (List.range 4).all fun p =>
    let bl := connectorLink conn p
    s.linkMedium bl.1 bl.2 == (field r 5 1 == 2)

/-- A skew above 2,000 ps in either direction. Log entry 102 (DEDUCED). -/
def cableSkewed (r : List Byte) : Bool := decide (2000 < (toSigned 16 (field r 8 2)).natAbs)

/-- A debounced presence change: the record is read, and the change and what the record shows are logged.
Log entry 102 (DEDUCED). -/
def execCablePresenceChange (conn : Nat) (present : Bool) (record : List Byte) (s : State) : Out :=
  if 34 ≤ conn || (s.tray.cables.at conn {}).present == present then .next s
  else
    let c : Cable := { present := present, record := if present then record else [] }
    let n : Byte := BitVec.ofNat 8 conn
    let s1 := (s.modTray fun t => { t with cables := t.cables.put conn c }).log noBay LogCode.cable [if present then 1 else 0, n]
    if !present then .next s1
    else if !cableGood record then .next (s1.log noBay LogCode.cableIdBad [n])
    else
      let s2 := if s.mediumOk conn record then s1 else s1.log noBay LogCode.mediumMismatch [n]
      .next (if cableSkewed record then s2.log noBay LogCode.timeAsym [n] else s2)

end Sys2Proof.Machine
end

