-- ==== Sys2Proof/Machine/Crs.lean ====
section
/-! DEFINITION. The control registers (Table 3-14): what a read of each shows, what a write does, clears of event
registers (R322 to R326), and the debug window (R179, R367). -/

namespace Sys2Proof.Machine

/-- Who reads a register: the core and its site, the reading thread if one reads, and the stack, link and VC that its
selectors name (R283, R326). -/
structure View where
  row : Nat
  col : Nat
  site : Nat
  reader : Option (BitVec 2)
  stack : Nat
  link : Nat
  vc : Nat
  deriving DecidableEq, Repr

/-! ## Core and thread registers (Tables 3-15 to 3-19, 2-12, 4-12, 4-13) -/

/-- Code of a thread state (Table 3-2). -/
def ThrSt.code : ThrSt → Nat
  | .run => 0
  | .sleep => 1
  | .block => 2
  | .park => 3
  | .stop => 4

/-- Owner of a slot (R62). -/
def Core.owner (c : Core) (slot : Nat) : BitVec 2 := BitVec.ofNat 2 (bits c.slotOwner.toNat (2 * slot) 2)

/-- Bit s set if the thread owns slot s. -/
def Core.owned (c : Core) (t : BitVec 2) : Nat :=
  (((List.range 8).filter fun n => c.owner n == t).map (2 ^ ·)).sum

def threads4 : List (BitVec 2) := [0, 1, 2, 3]

def coreId (s : State) (v : View) : Nat :=
  v.row + v.col * 2 ^ 5 + v.site / 32 % 32 * 2 ^ 10 + boolBit (blkReduced (s.routes s.epoch)) 15

def Core.issueReg (c : Core) : Nat :=
  boolBit c.readyMode 0 + c.slotOwner.toNat * 2 ^ 2 + (threads4.map fun t => (c.thr t).cls.toNat * 2 ^ (18 + 2 * t.toNat)).sum

def Core.issueStats (c : Core) : Nat := c.emptySlots.toNat + c.lentSlots.toNat * 2 ^ 32

def State.hbReg (s : State) (v : View) : Nat :=
  boolBit s.hb.toggling 0 + boolBit s.hb.lapsed 1 + boolBit s.hb.bootRate 2 +
  boolBit (v.reader.any fun t => s.isHbThread ⟨BitVec.ofNat 5 v.row, BitVec.ofNat 5 v.col, t⟩) 3

/-- The state that THR_STATE shows: a thread that a tag control word or WINV still holds is in BLOCK (Tables 6-4, 6-6). -/
def Core.stateCode (c : Core) (th : Thread) : Nat :=
  if th.st == .run && decide (c.steps < th.busyUntil) then ThrSt.block.code else th.st.code

/-- Register i of thread t; registers 11 to 15 are not assigned (R105). -/
def Core.threadReg (c : Core) (t : BitVec 2) (i : Nat) : Option Nat :=
  let th := c.thr t
  match i with
  | 0 => some (c.stateCode th + boolBit th.inFault 3 + boolBit th.loopActive 4 + th.cls.toNat * 2 ^ 5 + c.owned t * 2 ^ 7)
  | 1 => some (th.cause.toNat + boolBit th.deferred 8)
  | 2 => some (th.fpc.toNat * 4)
  | 3 => some th.faddr.toNat
  | 4 => some (th.fvecEntry.toNat * 4 + boolBit th.fvecEnable 15)
  | 5 => some (th.flags.toNat + th.rm.toNat * 2 ^ 5)
  | 6 => some (th.lbeg.toNat + th.lend.toNat * 2 ^ 16)
  | 7 => some th.lcnt.toNat
  | 8 => some th.tcmp.toNat
  | 9 => some th.srState.toNat
  | 10 => some (th.satLanes.toNat + boolBit th.nanLost 32 + boolBit th.scaleClamped 33)
  | _ => none

/-! ## Event registers (Tables 14-4 and 14-6) -/

def EvReg.word (e : EvReg) : Nat := e.count.toNat + boolBit e.pending 31 + e.miss.toNat * 2 ^ 32

def isEvCrn (crn : Nat) : Bool := (within 0x080 0x0BF crn && crn != 0x0A1) || crn == 0x0C5 || crn == 0x0C6

/-- Scope of an event register (R326): the instance that a reader sees, none for a link above 23. -/
def evUnit (v : View) (crn : Nat) : Option Nat :=
  if crn == 0x082 || within 0x098 0x0A0 crn || crn == 0x0C5 || crn == 0x0C6 then some 0
  else if within 0x0A2 0x0AD crn then some v.stack
  else if within 0x0AE 0x0BF crn then (if v.link < 24 then some v.link else none)
  else some v.site

def State.evReg (s : State) (crn unit : Nat) : EvReg := s.events.at (evKey crn unit) {}

def State.evWord (s : State) (v : View) (crn : Nat) : Nat :=
  match evUnit v crn with
  | some u => (s.evReg crn u).word
  | none => 0

/-! ## Tile and scratchpad registers (Tables 5-12 to 5-14 and 6-9) -/

def Core.tileState (c : Core) (code : BitVec 4) : Nat :=
  let m := c.mreg code
  m.valid.toNat + (if code.toNat < 8 then m.fmt.toNat * 2 ^ 32 + m.lay.toNat * 2 ^ 36 else 0) +
  boolBit m.loading 38 + boolBit m.rowFault.isSome 39 + boolBit (m.poisoned && within 8 11 code.toNat) 40

def TileFault.word (f : TileFault) : Nat := f.reg.toNat + f.row.toNat * 2 ^ 4 + f.reason.toNat * 2 ^ 9

def Core.kindWord (c : Core) (first : Nat) : Nat :=
  ((List.range 32).map fun k => (c.kinds.at (first + k) 0).toNat * 4 ^ k).sum

/-- SPD_WAIT: the blocked tagged access of each thread. Log entry 73 (DEDUCED). -/
def Core.waitWord (c : Core) : Nat :=
  (threads4.map fun t => match (c.thr t).block with
    | .tagged w => (w.slots.headD 0 % 8192 + 2 ^ 13 + w.kind % 4 * 2 ^ 14) * 2 ^ (16 * t.toNat)
    | _ => 0).sum

def State.scrubWord (s : State) (c : Core) : Nat :=
  s.boot.rs.scrubEpochs % 2 ^ 16 + (if c.scrubRun then c.nextSlot % 8192 else 0) * 2 ^ 16 + c.passes.toNat * 2 ^ 29

/-! ## Scion registers (Table 7-13) -/

def Core.qcfgWord (c : Core) (k : Cls) : Nat :=
  c.qBase k + c.qDepth k * 2 ^ 13 + c.qSlots k * 2 ^ 22 + c.spillSize k * 2 ^ 32 +
  (c.retryLimit[(qIdx k).val]).toNat * 2 ^ 45

def SendEntry.delayed (e : SendEntry) : Bool :=
  match e.st with
  | .delay _ => true
  | _ => false

def Core.sendWord (c : Core) : Nat :=
  (sendCap .a - c.sendCount .a) + (sendCap .b - c.sendCount .b) * 2 ^ 3 + (sendCap .c - c.sendCount .c) * 2 ^ 8 +
  (c.sends.filter (·.delayed)).length * 2 ^ 13

def Core.dispWord (c : Core) : Nat := c.dmask.toNat + c.staleEntry.toNat * 2 ^ 16

def Bounce.word (b : Bounce) : Nat :=
  b.handler.toNat + b.code.toNat * 2 ^ 8 + b.cls.toNat * 2 ^ 12 + b.thread.toNat * 2 ^ 14 + b.seq.toNat * 2 ^ 16

def Core.spillWord (c : Core) : Nat :=
  (c.queue .b).head % 4096 + (c.queue .b).tail % 4096 * 2 ^ 12 + (c.queue .c).head % 4096 * 2 ^ 24 +
  (c.queue .c).tail % 4096 * 2 ^ 36

/-! ## Ring, stack and stream registers (Tables 8-7 and 9-10) -/

def State.ringShape (s : State) : Nat :=
  boolBit s.boot.reduced 0 + (if s.boot.reduced then s.boot.givenCol % 32 else 0) * 2 + boolBit s.boot.recomputed 6 +
  s.boot.failedSites.length % 1024 * 2 ^ 7

/-- Log entries 50 (DEDUCED), 73 (DEDUCED). -/
def State.ringBank (s : State) : Nat :=
  boolBit (s.bank 0).loaded 0 + boolBit (s.bank 1).loaded 1 + s.bankIdx s.epoch % 2 * 2 ^ 2

def Stack.chanWord (k : Stack) : Nat :=
  k.mask (fun st => st == .retired || st == .failed) + k.mask (fun st => st == .failed) * 2 ^ 32

/-- Log entry 73 (DEDUCED). -/
def Stack.infoWord (k : Stack) : Nat :=
  let r := k.reloc.getD { chan := 0, copied := 0, total := 0 }
  r.chan % 32 + boolBit k.reloc.isSome 5 + boolBit k.room 6 + (k.inSt .spare).headD 0 * 2 ^ 7 +
  boolBit (!(k.inSt .spare).isEmpty) 12 + k.bursts.length % 128 * 2 ^ 13 + r.copied % 2 ^ 25 * 2 ^ 20

/-- STRM_ARG0, STRM_ARG1, STRM_CMD, STRM_RESP and STRM_STAT of a thread. -/
def Thread.strmReg (th : Thread) (i : Nat) : Nat :=
  match i with
  | 0 => th.strmArg0.toNat
  | 1 => th.strmArg1.toNat
  | 3 => th.strmResp.toNat
  | 4 => th.strmStat.toNat
  | _ => 0

/-! ## Link and admission registers (Tables 11-12 and 12-14) -/

/-- Bursts beyond committed_through that the record knows: in flight, committed or refused (R277, R279).
Log entry 73 (DEDUCED). -/
def BurstRec.beyond (r : BurstRec) : Nat :=
  ((List.range 64).filter fun i =>
    let n := r.committed + 1 + BitVec.ofNat 12 i
    r.bitmap.getLsbD i || r.out.contains n || r.refused.contains n).length

/-- Request records of a VC's class; TIME and MGMT carry none. Log entry 73 (DEDUCED). -/
def Sess.recordsOf (m : Sess) (vc : Nat) : Nat :=
  match vc / 2 with
  | 0 => m.recCount .a
  | 1 => m.recCount .b
  | 2 => m.recCount .c
  | _ => 0

/-- Whole milliseconds of backoff left (R298). Log entry 73 (DEDUCED). -/
def State.backoffLeft (s : State) (l : Link) : Nat :=
  if l.st = 6 && !l.pruned then (l.backoffEnd - s.now) / 1000000 else 0

/-- A register of the selected link, by its number. Log entries 68 (DEDUCED), 72 (DEDUCED). -/
def State.linkReg (s : State) (k vc crn : Nat) : Nat :=
  let l := s.link k
  let c := l.sess.vc vc
  match crn with
  | 0x341 =>
    l.st % 8 + l.reason.toNat * 2 ^ 3 + boolBit (l.live && l.sess.enc) 7 + boolBit l.apart 8 + boolBit l.stallA 9 +
    boolBit l.stallB 10 + boolBit l.stallC 11 + (if l.st = 4 then l.partnerNode.toNat else 0) * 2 ^ 12
  | 0x342 => l.rxMap.toNat + l.txMap.toNat * 2 ^ 12 + (l.rxOut ||| l.txOut).toNat * 2 ^ 24 + l.worstCe.toNat * 2 ^ 32
  | 0x343 => l.txData.toNat + l.rxData.toNat * 2 ^ 32
  | 0x344 => l.sess.avail vc % 4096 + c.rx.length % 4096 * 2 ^ 12 + l.sess.recordsOf vc % 2 ^ 11 * 2 ^ 24
  | 0x345 => l.brec.committed.toNat + boolBit l.brec.valid 12 + l.brec.beyond * 2 ^ 13
  | 0x346 => l.sess.held.length % 1024 + boolBit l.sess.nak 10
  | 0x347 =>
    let r := s.boot.rs
    r.timeoutA % 2 ^ 10 + r.timeoutB % 2 ^ 14 * 2 ^ 10 + r.timeoutC % 2 ^ 14 * 2 ^ 24 + r.stallLimit % 2 ^ 14 * 2 ^ 38 +
    r.maxHops % 2 ^ 6 * 2 ^ 52
  | 0x348 => s.boot.rs.linkEnable.toNat + s.boot.rs.medium.toNat * 2 ^ 24
  | 0x349 => s.boot.rs.laneDegrade % 2 ^ 24
  | 0x360 =>
    (if l.st = 4 then l.grant.toNat else 0) + l.lastCode.toNat * 2 ^ 2 + min l.n 15 * 2 ^ 6 +
    s.backoffLeft l % 2 ^ 18 * 2 ^ 10
  | 0x361 => if l.st = 4 then l.leafSerial.toNat else 0
  | 0x362 => l.score % 2 ^ 16 + l.lastScore % 2 ^ 16 * 2 ^ 16
  | 0x363 => s.windowCount k % 2 ^ 8 + s.linkStreams k % 2 ^ 22 * 2 ^ 8
  | _ => 0

/-! ## Reading a register by its number (R81) -/

/-- STRM_ARG0 to STRM_STAT, EV_SEL and LNK_SEL as a view shows them: the reading thread's own; a free value of the
field's width where no thread reads. Log entry 72 (DEDUCED). -/
def State.threadSel (s : State) (v : View) (crn w : Nat) (own : Thread → Nat) : Nat :=
  match v.reader with
  | some t => own ((s.core v.site).thr t)
  | none => Config.windowReg (2048 * s.free + crn) % 2 ^ w

/-- Registers 0x000 to 0x0FF. -/
def State.lowReg (s : State) (v : View) (crn : Nat) : Option Nat :=
  let c := s.core v.site
  if crn = 0 then some (coreId s v)
  else if crn = 1 then some c.issueReg
  else if crn = 2 then some c.issueStats
  else if crn = 3 then some (s.hbReg v)
  else if within 0x040 0x07F crn then c.threadReg (BitVec.ofNat 2 ((crn - 0x40) / 16)) (crn % 16)
  else if crn = 0x0A1 then some (s.threadSel v crn 3 fun th => th.evSel.toNat)
  else if isEvCrn crn then some (s.evWord v crn)
  else if crn = 0x0C0 then some s.timeNowReg
  else if crn = 0x0C1 then some s.timeStatusReg
  else if crn = 0x0C2 then some s.timeEpochReg
  else if crn = 0x0C3 then some s.timeServoReg
  else if crn = 0x0C4 then some s.paceReg
  else none

/-- Registers 0x180 to 0x2FF. -/
def State.midReg (s : State) (v : View) (crn : Nat) : Option Nat :=
  let c := s.core v.site
  if crn = 0x180 then some c.tileOwn.toNat
  else if within 0x181 0x190 crn then some (c.tileState (BitVec.ofNat 4 (crn - 0x181)))
  else if within 0x191 0x194 crn then some (c.thr (BitVec.ofNat 2 (crn - 0x191))).tileFault.word
  else if crn = 0x200 then some (c.kindWord 0)
  else if crn = 0x201 then some (c.kindWord 32)
  else if crn = 0x202 then some c.aWays.toNat
  else if crn = 0x203 then some (c.wcHits.toNat + c.wcMisses.toNat * 2 ^ 32)
  else if crn = 0x204 then some c.waitWord
  else if crn = 0x205 then some (s.scrubWord c)
  else if crn = 0x280 then some c.qstat
  else if crn = 0x281 then some (c.qcfgWord .a)
  else if crn = 0x282 then some (c.qcfgWord .b)
  else if crn = 0x283 then some (c.qcfgWord .c)
  else if crn = 0x284 then some c.sendWord
  else if crn = 0x285 then some c.dispWord
  else if crn = 0x286 then some (match c.bounce with
    | some b => b.word
    | none => 0)
  else if crn = 0x287 then some (match c.bounce with
    | some b => b.dest.toNat
    | none => 0)
  else if crn = 0x288 then some c.spillWord
  else none

/-- Registers 0x300 to 0x37F. -/
def State.highReg (s : State) (v : View) (crn : Nat) : Option Nat :=
  let c := s.core v.site
  if crn = 0x300 then some s.ringShape
  else if crn = 0x301 then some (blkColEntry (s.routes s.epoch) v.col % 2 ^ 56)
  else if crn = 0x302 then some s.ringBank
  else if crn = 0x303 then some (c.injected.toNat + c.delivered.toNat * 2 ^ 32)
  else if crn = 0x304 then some (c.transitRow.toNat + c.transitCol.toNat * 2 ^ 32)
  else if crn = 0x305 then some (c.aWaitMax.toNat + c.aAheadMax.toNat * 2 ^ 16)
  else if within 0x310 0x31F crn then
    some (if crn % 2 = 0 then (s.stack ((crn - 0x310) / 2)).chanWord else (s.stack ((crn - 0x310) / 2)).infoWord)
  else if crn = 0x320 then some (s.threadSel v crn 21 fun th => th.strmReg 0)
  else if crn = 0x321 then some (s.threadSel v crn 64 fun th => th.strmReg 1)
  else if crn = 0x322 then some 0
  else if crn = 0x323 then some (s.threadSel v crn 64 fun th => th.strmReg 3)
  else if crn = 0x324 then some (s.threadSel v crn 3 fun th => th.strmReg 4)
  else if crn = 0x325 then some (s.strm.openA % 2 ^ 22 + s.strm.openB % 2 ^ 22 * 2 ^ 22)
  else if crn = 0x326 then some (s.strm.openC % 2 ^ 22)
  else if crn = 0x327 then some (s.strm.hits.toNat + s.strm.misses.toNat * 2 ^ 32)
  else if crn = 0x340 then some (s.threadSel v crn 8 fun th => th.lnkSel.toNat)
  else if within 0x341 0x349 crn || within 0x360 0x363 crn then
    some (if v.link < 24 then s.linkReg v.link v.vc crn else 0)
  else if crn = 0x364 then some s.boot.rs.ceilings.toNat
  else if crn = 0x365 then some (s.boot.rs.admitTimeout % 2 ^ 11 + s.boot.rs.misbehaveLimit % 2 ^ 16 * 2 ^ 11)
  else none

/-- What a control register shows; none where no chapter assigns it (R81). -/
def State.creg (s : State) (v : View) (crn : Nat) : Option Nat :=
  if crn < 0x100 then s.lowReg v crn else if crn < 0x300 then s.midReg v crn else s.highReg v crn

def crAssigned (crn : Nat) : Bool :=
  (crn < 4) || (within 0x040 0x07F crn && decide (crn % 16 < 11)) || within 0x080 0x0C6 crn || within 0x180 0x194 crn ||
  within 0x200 0x205 crn || within 0x280 0x288 crn || within 0x300 0x305 crn || within 0x310 0x327 crn ||
  within 0x340 0x349 crn || within 0x360 0x365 crn

/-- The view of a thread. -/
def threadView (s : State) (a : ThreadAt) (site : Nat) (th : Thread) : View :=
  { row := a.row.toNat, col := a.col.toNat, site := (s.siteOf a.row.toNat a.col.toNat).getD site, reader := some a.t
    stack := th.evSel.toNat, link := th.lnkSel.toNat % 32, vc := th.lnkSel.toNat / 32 }

def unassigned (i : Instr) (crn : BitVec 11) : Option FaultRec :=
  if crAssigned crn.toNat then none else some (illegalFault i)

/-- rd := register crn. -/
def execRdcr (t : ThreadAt) (o : CrRd) (s : State) : Out :=
  s.issue (.rdcr t o) t (fun _ => unassigned (.rdcr t o) o.crn) fun site _ th =>
    let x := (s.creg (threadView s t site th) o.crn.toNat).getD 0
    .ok (s.setThr site t.t (th.wx o.rd (BitVec.ofNat 64 x)).retire)

/-! ## Writing a register (R10, R81) -/

/-- A write to register i of the writing thread; read-only ones are unchanged, and a zero generator state is replaced
(R99). -/
def Thread.writeReg (th : Thread) (i : Nat) (v : W64) : Thread :=
  match i with
  | 2 => { th with fpc := v.extractLsb' 2 13 }
  | 4 => { th with fvecEntry := v.extractLsb' 2 13, fvecEnable := v.getLsbD 15 }
  | 5 => { th with flags := v.extractLsb' 0 5, rm := v.extractLsb' 5 3 }
  | 8 => { th with tcmp := v }
  | 9 => { th with srState := srSeed v.toNat }
  | 10 => { th with satLanes := v.extractLsb' 0 32, nanLost := v.getLsbD 32, scaleClamped := v.getLsbD 33 }
  | _ => th

/-- The selectors and stream arguments of the writing thread. -/
def Thread.writeSel (th : Thread) (crn : Nat) (v : W64) : Thread :=
  match crn with
  | 0x0A1 => { th with evSel := v.extractLsb' 0 3 }
  | 0x320 => { th with strmArg0 := v.extractLsb' 0 21 }
  | 0x321 => { th with strmArg1 := v }
  | 0x340 => { th with lnkSel := v.extractLsb' 0 8 }
  | _ => th

/-- A clear of an event register with the count that was read, or a clear miss (R324). -/
def EvReg.clear (e : EvReg) (v : BitVec 31) : EvReg :=
  if v = e.count then { e with pending := false } else { e with miss := e.miss + 1 }

/-- The clear of the instance that the view selects; a link above 23 selects none.
Log entries 20 (DESIGN CHOICE), 75 (DEDUCED). -/
def State.clearEv (s : State) (v : View) (crn : Nat) (w : W64) : State :=
  match evUnit v crn with
  | some u => { s with events := s.events.put (evKey crn u) ((s.evReg crn u).clear (w.extractLsb' 0 31)) }
  | none => s

/-- register crn := ra, within its access code: a stream command, a clear, or a write of the thread's own. -/
def State.writeCr (s : State) (a : ThreadAt) (site : Nat) (th : Thread) (crn : Nat) (w : W64) : State :=
  if crn = 0x322 then s.sendStream site a.t (w.toNat % 16)
  else if isEvCrn crn then (s.clearEv (threadView s a site th) crn w).setThr site a.t th.retire
  else if within 0x040 0x07F crn then
    s.setThr site a.t (if (crn - 0x40) / 16 = a.t.toNat then th.writeReg (crn % 16) w else th).retire
  else s.setThr site a.t (th.writeSel crn w).retire

/-- Log entries 57 (DEDUCED), 75 (DEDUCED). -/
def execWrcr (t : ThreadAt) (o : CrWr) (s : State) : Out :=
  s.issue (.wrcr t o) t (fun _ => unassigned (.wrcr t o) o.crn) fun site _ th =>
    .ok (s.writeCr t site th o.crn.toNat (th.rx o.ra))

/-- The WRCR that clears an event register: the same word, the same effect. Log entry 75 (DEDUCED). -/
def execEvClear (t : ThreadAt) (o : CrWr) (s : State) : Out :=
  s.issue (.wrcr t o) t (fun _ => unassigned (.wrcr t o) o.crn) fun site _ th =>
    .ok (s.writeCr t site th o.crn.toNat (th.rx o.ra))

/-! ## The debug window (R179, Table 7-8) -/

/-- The view of the window of a core: stack col mod 8, link col mod 24 with VC 0 (R326). Log entry 76 (DESIGN CHOICE). -/
def windowView (row col site : Nat) : View :=
  { row := row, col := col, site := site, reader := none, stack := col % 8, link := col % 24, vc := 0 }

/-- Header of the oldest READY or CLAIMED entry of a queue. -/
def Core.oldestHeader (c : Core) (k : Cls) : List Byte :=
  match (c.queue k).live.find? fun e => e.st != .filling && e.st != .released with
  | some e => Mem.readN c.pad (64 * c.qSlot k e.idx) 64
  | none => List.replicate 64 0

/-- Header of the oldest spilled entry of a partition. -/
def State.spilledHeader (s : State) (v : View) (k : Cls) : List Byte :=
  let c := s.core v.site
  match (c.queue k).spill.find? (·.st == .held) with
  | some r => Mem.readN s.mem (spillAddr v.row v.col (c.spillPlace k r.idx)) 64
  | none => List.replicate 64 0

/-- The bytes of the window above the register area, at an offset that is a multiple of 8.
Log entry 76 (DESIGN CHOICE). -/
def State.windowHigh (s : State) (v : View) (off : Nat) : Nat :=
  let c := s.core v.site
  let at8 := fun (base : Nat) (b : List Byte) => field b (off - base) 8
  if off = 0x1C00 then c.qstat
  else if within 0x1C40 0x1C7F off then at8 0x1C40 (c.oldestHeader .a)
  else if within 0x1C80 0x1CBF off then at8 0x1C80 (c.oldestHeader .b)
  else if within 0x1CC0 0x1CFF off then at8 0x1CC0 (c.oldestHeader .c)
  else if within 0x1D00 0x1D3F off then at8 0x1D00 (s.spilledHeader v .b)
  else if within 0x1D40 0x1D7F off then at8 0x1D40 (s.spilledHeader v .c)
  else if within 0x1D80 0x1DBF off then at8 0x1D80 (match c.bounce with
    | some b => b.header
    | none => [])
  else 0

/-- One 8 B word of the window; a core that is being loaded or isolated shows only its registers (R367).
Log entries 47 (DEDUCED), 76 (DESIGN CHOICE). -/
def State.windowWord (s : State) (v : View) (up : Bool) (off : Nat) : Nat :=
  if off < 0x1C00 then (s.creg v (off / 8)).getD 0 else if up then s.windowHigh v off else 0

/-- Log entry 47 (DEDUCED). -/
def State.windowBytes (s : State) (row col off n : Nat) : List Byte :=
  let site := (blkSite (s.routes s.epoch) row col).getD 0
  let v := windowView row col site
  (List.range (n / 8)).flatMap fun i =>
    leBytes 8 (s.windowWord v (s.siteOf row col).isSome (off + 8 * i))

/-- DBG_READ: length 8 to 256 B, core in the grid, bytes within the window (Table 16-6). Log entry 47 (DEDUCED). -/
def execDbgRead (link : Nat) (s : State) : Out :=
  s.unitMsg (.link link) 10 fun s h body =>
    let n := field h 2 2
    let row := field h 4 1
    let col := field h 5 1
    let off := field h 6 2
    let form := zeroBytes h 1 1 && zeroBytes h 8 56 && body.isEmpty && within 8 256 n && n % 8 == 0 && off % 8 == 0 &&
      decide (row < 32) && decide (col < 32) && decide (off < 8192)
    let code :=
      if !form then 1
      else if !(decide (row < 28) && decide (col < blkCols (s.routes s.epoch))) then 3
      else if 8192 < off + n then 13
      else 0
    let status := s.unitStatus 10 code none (unitField h)
    if code ≠ 0 then { st := s, status := status }
    else
      { st := { s with free := s.free + 1 }, status := status
        data := some ([0x2E, 0] ++ leBytes 2 n ++ [0xA, 0, 0, 0] ++ leBytes 8 off ++ List.replicate 48 0,
          s.windowBytes row col off n) }

end Sys2Proof.Machine
end

