-- ==== Sys2Proof/Machine/Issue.lean ====
section
/-! DEFINITION. The issue frame of a core (R61 to R65): which thread issues in a slot, and what its word does. -/

namespace Sys2Proof.Machine

/-- The instruction that a word spells takes its effect; every other command is left out. -/
def runWord (i : Instr) (s : State) : Out :=
  match i with
  | .add t o => execAdd t o s
  | .sub t o => execSub t o s
  | .andR t o => execAndR t o s
  | .orR t o => execOrR t o s
  | .xorR t o => execXorR t o s
  | .andn t o => execAndn t o s
  | .sll t o => execSll t o s
  | .srl t o => execSrl t o s
  | .sra t o => execSra t o s
  | .ror t o => execRor t o s
  | .lts t o => execLts t o s
  | .ltu t o => execLtu t o s
  | .minS t o => execMinS t o s
  | .maxS t o => execMaxS t o s
  | .minu t o => execMinu t o s
  | .maxu t o => execMaxu t o s
  | .clz t o => execClz t o s
  | .ctz t o => execCtz t o s
  | .popc t o => execPopc t o s
  | .mul t o => execMul t o s
  | .mulhiS t o => execMulhiS t o s
  | .mulhiU t o => execMulhiU t o s
  | .mulhiSu t o => execMulhiSu t o s
  | .div t o => execDiv t o s
  | .divu t o => execDivu t o s
  | .rem t o => execRem t o s
  | .remu t o => execRemu t o s
  | .addi t o => execAddi t o s
  | .andi t o => execAndi t o s
  | .ori t o => execOri t o s
  | .xori t o => execXori t o s
  | .ltsi t o => execLtsi t o s
  | .ltui t o => execLtui t o s
  | .slli t o => execSlli t o s
  | .srli t o => execSrli t o s
  | .srai t o => execSrai t o s
  | .rori t o => execRori t o s
  | .liu t o => execLiu t o s
  | .beq t o => execBeq t o s
  | .bne t o => execBne t o s
  | .blt t o => execBlt t o s
  | .bge t o => execBge t o s
  | .bltu t o => execBltu t o s
  | .bgeu t o => execBgeu t o s
  | .jmp t o => execJmp t o s
  | .jal t o => execJal t o s
  | .jlr t o => execJlr t o s
  | .ldB t o => execLdB t o s
  | .ldBu t o => execLdBu t o s
  | .ldH t o => execLdH t o s
  | .ldHu t o => execLdHu t o s
  | .ldW t o => execLdW t o s
  | .ldWu t o => execLdWu t o s
  | .ldD t o => execLdD t o s
  | .stB t o => execStB t o s
  | .stH t o => execStH t o s
  | .stW t o => execStW t o s
  | .stD t o => execStD t o s
  | .fldS t o => execFldS t o s
  | .fldD t o => execFldD t o s
  | .fstS t o => execFstS t o s
  | .fstD t o => execFstD t o s
  | .fadd t o => execFadd t o s
  | .fsub t o => execFsub t o s
  | .fmul t o => execFmul t o s
  | .fdiv t o => execFdiv t o s
  | .fsqrt t o => execFsqrt t o s
  | .fmin t o => execFmin t o s
  | .fmax t o => execFmax t o s
  | .fsgnC t o => execFsgnC t o s
  | .fsgnN t o => execFsgnN t o s
  | .fsgnX t o => execFsgnX t o s
  | .feq t o => execFeq t o s
  | .flt t o => execFlt t o s
  | .fle t o => execFle t o s
  | .fclass t o => execFclass t o s
  | .ftoiS64 t o => execFtoiS64 t o s
  | .ftoiU64 t o => execFtoiU64 t o s
  | .ftoiS32 t o => execFtoiS32 t o s
  | .ftoiU32 t o => execFtoiU32 t o s
  | .itofS64 t o => execItofS64 t o s
  | .itofU64 t o => execItofU64 t o s
  | .itofS32 t o => execItofS32 t o s
  | .itofU32 t o => execItofU32 t o s
  | .fnarrow t o => execFnarrow t o s
  | .fwiden t o => execFwiden t o s
  | .movfx t o => execMovfx t o s
  | .movxf t o => execMovxf t o s
  | .fmadd t o => execFmadd t o s
  | .fmsub t o => execFmsub t o s
  | .fnmadd t o => execFnmadd t o s
  | .fnmsub t o => execFnmsub t o s
  | .loopI t o => execLoopI t o s
  | .rdtime t o => execRdtime t o s
  | .settc t o => execSettc t o s
  | .waitt t o => execWaitt t o s
  | .rdcr t o => execRdcr t o s
  | .wrcr t o => execWrcr t o s
  | .fence t => execFence t s
  | .hbarm t => execHbarm t s
  | .fret t => execFret t s
  | .park t => execPark t s
  | .yieldI t => execYieldI t s
  | .trap t o => execTrap t o s
  | .vld t o => execVld t o s
  | .vst t o => execVst t o s
  | .vbcW t o => execVbcW t o s
  | .vbcD t o => execVbcD t o s
  | .vldsW t o => execVldsW t o s
  | .vstsW t o => execVstsW t o s
  | .vldsD t o => execVldsD t o s
  | .vstsD t o => execVstsD t o s
  | .vadd t o => execVadd t o s
  | .vsub t o => execVsub t o s
  | .vand t o => execVand t o s
  | .vor t o => execVor t o s
  | .vxor t o => execVxor t o s
  | .vsll t o => execVsll t o s
  | .vsrl t o => execVsrl t o s
  | .vsra t o => execVsra t o s
  | .vmin t o => execVmin t o s
  | .vmax t o => execVmax t o s
  | .vminu t o => execVminu t o s
  | .vmaxu t o => execVmaxu t o s
  | .vmul t o => execVmul t o s
  | .vcmpeq t o => execVcmpeq t o s
  | .vcmplt t o => execVcmplt t o s
  | .vcmpltu t o => execVcmpltu t o s
  | .vsplat t o => execVsplat t o s
  | .vext t o => execVext t o s
  | .vins t o => execVins t o s
  | .vperm t o => execVperm t o s
  | .vpermb t o => execVpermb t o s
  | .vsel t o => execVsel t o s
  | .vfadd t o => execVfadd t o s
  | .vfsub t o => execVfsub t o s
  | .vfmul t o => execVfmul t o s
  | .vfdiv t o => execVfdiv t o s
  | .vfsqrt t o => execVfsqrt t o s
  | .vfmin t o => execVfmin t o s
  | .vfmax t o => execVfmax t o s
  | .vfamax t o => execVfamax t o s
  | .vfsgnC t o => execVfsgnC t o s
  | .vfsgnN t o => execVfsgnN t o s
  | .vfsgnX t o => execVfsgnX t o s
  | .vfcmpeq t o => execVfcmpeq t o s
  | .vfcmplt t o => execVfcmplt t o s
  | .vfcmple t o => execVfcmple t o s
  | .vfclass t o => execVfclass t o s
  | .vfrmax t o => execVfrmax t o s
  | .vfrmin t o => execVfrmin t o s
  | .vframax t o => execVframax t o s
  | .vfrsum t o => execVfrsum t o s
  | .vfmadd t o => execVfmadd t o s
  | .vfmsub t o => execVfmsub t o s
  | .vfnmadd t o => execVfnmadd t o s
  | .vfnmsub t o => execVfnmsub t o s
  | .vcvt t o => execVcvt t o s
  | .vmxDown t o => execVmxDown t o s
  | .vmxUp t o => execVmxUp t o s
  | .vmand t o => execVmand t o s
  | .vmor t o => execVmor t o s
  | .vmxor t o => execVmxor t o s
  | .vmandn t o => execVmandn t o s
  | .vmpopc t o => execVmpopc t o s
  | .vmfirst t o => execVmfirst t o s
  | .vmfx t o => execVmfx t o s
  | .vmtx t o => execVmtx t o s
  | .vmxr t o => execVmxr t o s
  | .vmxw t o => execVmxw t o s
  | .vmxs t o => execVmxs t o s
  | .vcrc64 t o => execVcrc64 t o s
  | .tld t o => execTld t o s
  | .tst t o => execTst t o s
  | .tlds t o => execTlds t o s
  | .tsts t o => execTsts t o s
  | .tscw t o => execTscw t o s
  | .tscf t o => execTscf t o s
  | .twr t o => execTwr t o s
  | .trd t o => execTrd t o s
  | .trl t o => execTrl t o s
  | .tz t o => execTz t o s
  | .mma t o => execMma t o s
  | .azero t o => execAzero t o s
  | .acopy t o => execAcopy t o s
  | .amax t o => execAmax t o s
  | .amin t o => execAmin t o s
  | .ard t o => execArd t o s
  | .awr t o => execAwr t o s
  | .armax t o => execArmax t o s
  | .armin t o => execArmin t o s
  | .ascr t o => execAscr t o s
  | .asubr t o => execAsubr t o s
  | .lde t o => execLde t o s
  | .ldk t o => execLdk t o s
  | .stf t o => execStf t o s
  | .stp t o => execStp t o s
  | .tprobe t o => execTprobe t o s
  | .tsete t o => execTsete t o s
  | .tsetf t o => execTsetf t o s
  | .szero t o => execSzero t o s
  | .ldvD t o => execLdvD t o s
  | .ldvW t o => execLdvW t o s
  | .ldvL t o => execLdvL t o s
  | .winv t o => execWinv t o s
  | .amoAdd t o => execAmoAdd t o s
  | .amoAnd t o => execAmoAnd t o s
  | .amoOr t o => execAmoOr t o s
  | .amoXor t o => execAmoXor t o s
  | .amoMin t o => execAmoMin t o s
  | .amoMax t o => execAmoMax t o s
  | .amoMinu t o => execAmoMinu t o s
  | .amoMaxu t o => execAmoMaxu t o s
  | .amoSwap t o => execAmoSwap t o s
  | .amoCas t o => execAmoCas t o s
  | .send t o => execSend t o s
  | .dispatch t o => execDispatch t o s
  | .qdone t o => execQdone t o s
  | .qstat t o => execQstat t o s
  | .hent t o => execHent t o s
  | .sndstat t o => execSndstat t o s
  | _ => .next s

/-! ## Result latencies (R67) -/

/-- A plain or tagged load: shape, address, and its steps where the scratchpad, or where the window cache, gives the data
(Tables 3-8, 4-5 and 6-4). -/
def loadSteps (i : Instr) (th : Thread) : Option (LoadShape × W64 × Nat × Nat) :=
  match i with
  | .ldB _ o | .ldBu _ o | .ldH _ o | .ldHu _ o | .ldW _ o | .ldWu _ o | .ldD _ o =>
    some (.int 1 false o.rd, effAddr th o, 4, 6)
  | .fldS _ o | .fldD _ o => some (.fp64 o.rd, effAddr th o, 4, 6)
  | .vld _ o => some (.vec o.vd (th.rm' o.m), vecAddr th o.ra o.imm, 6, 8)
  | .vbcW _ o => some (.bcast o.vd (th.rm' o.m) 4, vecAddr th o.ra o.imm, 6, 8)
  | .vbcD _ o => some (.bcast o.vd (th.rm' o.m) 8, vecAddr th o.ra o.imm, 6, 8)
  | .vldsW _ o => some (.strided o.vd (th.rm' o.m) 4 (th.rx o.rb), vecAddr th o.ra o.imm, 14, 16)
  | .vldsD _ o => some (.strided o.vd (th.rm' o.m) 8 (th.rx o.rb), vecAddr th o.ra o.imm, 10, 12)
  | .lde _ o | .ldk _ o => some (tagShape o, tagAddr th o, if o.sz = 2 then 6 else 4, if o.sz = 2 then 6 else 4)
  | _ => none

/-- Lines that WINV names (R153). -/
def winvLines (a n : Nat) : Nat := if n = 0 then 128 else min 128 ((a + n - 1) / 64 - a / 64 + 1)

/-- Steps for which a word keeps its thread in BLOCK after it has issued (Tables 6-4 and 6-6). -/
def holdSteps (i : Instr) (th : Thread) : Nat :=
  match i with
  | .tsete _ o | .tsetf _ o | .szero _ o => ((th.rx o.rb).toNat + 15) / 16 + 2
  | .winv _ o => winvLines (th.rx o.ra).toNat (th.rx o.rb).toNat + 2
  | _ => 0

/-- Registers that thread th's instruction has written, with its result latency: those of a load whose data have come,
the send_seq of a SEND by the slots of its image (Table 7-10), else those of its table. -/
def Core.written (c : Core) (t : BitVec 2) (i : Instr) (th : Thread) : List (RegRef × Nat) :=
  match i with
  | .send _ o =>
    match c.sends.find? fun e => e.thread == t && e.seq == th.sendSeq with
    | some e => [(.x o.rd, 2 + e.image.length / 64)]
    | none => []
  | _ =>
    match loadSteps i th with
    | some (sh, a, pad, hit) =>
      match sh.dest with
      | some r =>
        if (c.thr t).waiting.any (·.1 == r) then []
        else [(r, if (sh.pieces a).all fun p => decide (padBase ≤ p.2.1) then pad else hit)]
      | none => []
    | none => results i

/-- The instruction that thread th issued has taken a fault. -/
def Thread.tookFault (th after : Thread) : Bool := after.st == .stop || (!th.inFault && after.inFault)

/-- After instruction i of thread t has issued in the step that has just passed: the steps from which its results serve
dependents, and the engine other instructions (R65, R67); th is the thread as it was. -/
def State.noteIssue (s : State) (site : Nat) (t : BitVec 2) (i : Instr) (th : Thread) : State :=
  let c := s.core site
  let after := c.thr t
  if th.tookFault after then s
  else
    let due (n : Nat) : Nat := c.steps + n - 1
    let regs := if after.st == .run then c.written t i th else []
    let fwd : RegRef → Bool
      | .mx _ => isVmx i
      | _ => false
    let late : List (RegRef × Nat × Bool) := (regs.filter fun p => p.1 != RegRef.x 0).map fun p => (p.1, due p.2, fwd p.1)
    let mats : List (BitVec 4 × Nat × Bool) := (matResults i).map fun p => (p.1, due p.2, false)
    let c1 : Core := { c with
      lateMat := renew c.steps c.lateMat mats
      engineAt := if usesEngine i then due (engineSteps i) else c.engineAt }
    s.setCore site (c1.setThr t { after with
      late := renew c.steps after.late late
      busyUntil := due (holdSteps i th) })

/-! ## The issue frame -/

/-- The word at a thread's pc is uncorrectable (R318). Log entry 25 (DEDUCED). -/
def Core.badWord (c : Core) (t : BitVec 2) : Bool := c.istoreBad.contains ((c.thr t).pc.toNat / 4)

/-- The thread is ready in this step (R61, R67); one whose word faults needs no source.
Log entries 7 (DESIGN CHOICE), 25 (DEDUCED). -/
def Core.mayIssue (c : Core) (core : CoreAt) (t : BitVec 2) : Bool :=
  (c.thr t).st == .run && !(c.thr t).yielded && decide ((c.thr t).busyUntil ≤ c.steps) && (c.badWord t ||
    match c.head core.row core.col t with
    | none => true
    | some i => c.readyFor ⟨core.row, core.col, t⟩ i && settledAt c.steps (c.thr t) c.lateMat c.engineAt i)

/-- YIELD holds to the end of its frame. Log entry 25 (DEDUCED). -/
def Core.newFrame (c : Core) : Core :=
  { c with threads := Vector.ofFn fun (t : Fin 4) => { c.threads[t] with yielded := false } }

/-- Threads that the slot goes to, first ready first: its owner, then in ready mode the others in turn (R63). -/
def Core.slotOrder (c : Core) : List (BitVec 2) :=
  let o := c.owner c.slot.toNat
  if c.readyMode then [o, o + 1, o + 2, o + 3] else [o]

/-- The thread's word has a single-bit error, which fetch corrects and EV_SPD_CE counts (R58, R316). -/
def State.fetched (s : State) (site : Nat) (t : BitVec 2) : State :=
  if (s.core site).istoreFlip.contains ((s.thr site t).pc.toNat / 4) then s.count Ev.spdCe site else s

/-- The chosen thread fetches and issues: FETCH on an uncorrectable word, ILLEGAL_INSTR on a malformed one.
Log entry 7 (DESIGN CHOICE). -/
def State.issueHead (s : State) (core : CoreAt) (site : Nat) (t : BitVec 2) : Out :=
  let c := s.core site
  let th := c.thr t
  if c.badWord t then
    .next ((s.count Ev.spdUe site).raise site t { cause := Cause.fetch, addr := th.pc.zeroExtend 64 })
  else
    match c.head core.row core.col t with
    | none =>
      .next ((s.fetched site t).raise site t
        { cause := Cause.illegal, addr := (c.istore.at (th.pc.toNat / 4) 0).zeroExtend 64 })
    | some i =>
      match runWord i (s.fetched site t) with
      | .next s' => .next (s'.noteIssue site t i th)
      | .fault f => .fault f
      | .refused r => .refused r

/-- One slot of a core's frame: the owner issues if it is ready; otherwise the slot is lent, or stays empty.
Log entry 7 (DESIGN CHOICE). -/
def execIssueSlot (core : CoreAt) (s : State) : Out :=
  match s.siteOf core.row.toNat core.col.toNat with
  | none => .next s
  | some site =>
    if !s.running then .next s
    else
      let c := if (s.core site).slot = 0 then (s.core site).newFrame else s.core site
      let c1 := { c with slot := c.slot + 1, steps := c.steps + 1 }
      match c.slotOrder.find? (c.mayIssue core) with
      | none => .next (s.setCore site { c1 with emptySlots := c1.emptySlots + 1 })
      | some t =>
        (s.setCore site (if t = c.owner c.slot.toNat then c1 else { c1 with lentSlots := c1.lentSlots + 1 })).issueHead
          core site t

end Sys2Proof.Machine
end

