-- ==== Sys2Proof/Machine/Dispatch.lean ====
section
/-! DEFINITION. One arm per command: its meaning. -/

namespace Sys2Proof.Machine

def exec (i : Instr) (s : State) : Host.Outcome State Fault Refusal :=
  match i with
  | .add t o => Sys2Proof.Machine.execAdd t o s
  | .sub t o => Sys2Proof.Machine.execSub t o s
  | .andR t o => Sys2Proof.Machine.execAndR t o s
  | .orR t o => Sys2Proof.Machine.execOrR t o s
  | .xorR t o => Sys2Proof.Machine.execXorR t o s
  | .andn t o => Sys2Proof.Machine.execAndn t o s
  | .sll t o => Sys2Proof.Machine.execSll t o s
  | .srl t o => Sys2Proof.Machine.execSrl t o s
  | .sra t o => Sys2Proof.Machine.execSra t o s
  | .ror t o => Sys2Proof.Machine.execRor t o s
  | .lts t o => Sys2Proof.Machine.execLts t o s
  | .ltu t o => Sys2Proof.Machine.execLtu t o s
  | .minS t o => Sys2Proof.Machine.execMinS t o s
  | .maxS t o => Sys2Proof.Machine.execMaxS t o s
  | .minu t o => Sys2Proof.Machine.execMinu t o s
  | .maxu t o => Sys2Proof.Machine.execMaxu t o s
  | .clz t o => Sys2Proof.Machine.execClz t o s
  | .ctz t o => Sys2Proof.Machine.execCtz t o s
  | .popc t o => Sys2Proof.Machine.execPopc t o s
  | .mul t o => Sys2Proof.Machine.execMul t o s
  | .mulhiS t o => Sys2Proof.Machine.execMulhiS t o s
  | .mulhiU t o => Sys2Proof.Machine.execMulhiU t o s
  | .mulhiSu t o => Sys2Proof.Machine.execMulhiSu t o s
  | .div t o => Sys2Proof.Machine.execDiv t o s
  | .divu t o => Sys2Proof.Machine.execDivu t o s
  | .rem t o => Sys2Proof.Machine.execRem t o s
  | .remu t o => Sys2Proof.Machine.execRemu t o s
  | .addi t o => Sys2Proof.Machine.execAddi t o s
  | .andi t o => Sys2Proof.Machine.execAndi t o s
  | .ori t o => Sys2Proof.Machine.execOri t o s
  | .xori t o => Sys2Proof.Machine.execXori t o s
  | .ltsi t o => Sys2Proof.Machine.execLtsi t o s
  | .ltui t o => Sys2Proof.Machine.execLtui t o s
  | .slli t o => Sys2Proof.Machine.execSlli t o s
  | .srli t o => Sys2Proof.Machine.execSrli t o s
  | .srai t o => Sys2Proof.Machine.execSrai t o s
  | .rori t o => Sys2Proof.Machine.execRori t o s
  | .liu t o => Sys2Proof.Machine.execLiu t o s
  | .beq t o => Sys2Proof.Machine.execBeq t o s
  | .bne t o => Sys2Proof.Machine.execBne t o s
  | .blt t o => Sys2Proof.Machine.execBlt t o s
  | .bge t o => Sys2Proof.Machine.execBge t o s
  | .bltu t o => Sys2Proof.Machine.execBltu t o s
  | .bgeu t o => Sys2Proof.Machine.execBgeu t o s
  | .jmp t o => Sys2Proof.Machine.execJmp t o s
  | .jal t o => Sys2Proof.Machine.execJal t o s
  | .jlr t o => Sys2Proof.Machine.execJlr t o s
  | .ldB t o => Sys2Proof.Machine.execLdB t o s
  | .ldBu t o => Sys2Proof.Machine.execLdBu t o s
  | .ldH t o => Sys2Proof.Machine.execLdH t o s
  | .ldHu t o => Sys2Proof.Machine.execLdHu t o s
  | .ldW t o => Sys2Proof.Machine.execLdW t o s
  | .ldWu t o => Sys2Proof.Machine.execLdWu t o s
  | .ldD t o => Sys2Proof.Machine.execLdD t o s
  | .stB t o => Sys2Proof.Machine.execStB t o s
  | .stH t o => Sys2Proof.Machine.execStH t o s
  | .stW t o => Sys2Proof.Machine.execStW t o s
  | .stD t o => Sys2Proof.Machine.execStD t o s
  | .fldS t o => Sys2Proof.Machine.execFldS t o s
  | .fldD t o => Sys2Proof.Machine.execFldD t o s
  | .fstS t o => Sys2Proof.Machine.execFstS t o s
  | .fstD t o => Sys2Proof.Machine.execFstD t o s
  | .fadd t o => Sys2Proof.Machine.execFadd t o s
  | .fsub t o => Sys2Proof.Machine.execFsub t o s
  | .fmul t o => Sys2Proof.Machine.execFmul t o s
  | .fdiv t o => Sys2Proof.Machine.execFdiv t o s
  | .fsqrt t o => Sys2Proof.Machine.execFsqrt t o s
  | .fmin t o => Sys2Proof.Machine.execFmin t o s
  | .fmax t o => Sys2Proof.Machine.execFmax t o s
  | .fsgnC t o => Sys2Proof.Machine.execFsgnC t o s
  | .fsgnN t o => Sys2Proof.Machine.execFsgnN t o s
  | .fsgnX t o => Sys2Proof.Machine.execFsgnX t o s
  | .feq t o => Sys2Proof.Machine.execFeq t o s
  | .flt t o => Sys2Proof.Machine.execFlt t o s
  | .fle t o => Sys2Proof.Machine.execFle t o s
  | .fclass t o => Sys2Proof.Machine.execFclass t o s
  | .ftoiS64 t o => Sys2Proof.Machine.execFtoiS64 t o s
  | .ftoiU64 t o => Sys2Proof.Machine.execFtoiU64 t o s
  | .ftoiS32 t o => Sys2Proof.Machine.execFtoiS32 t o s
  | .ftoiU32 t o => Sys2Proof.Machine.execFtoiU32 t o s
  | .itofS64 t o => Sys2Proof.Machine.execItofS64 t o s
  | .itofU64 t o => Sys2Proof.Machine.execItofU64 t o s
  | .itofS32 t o => Sys2Proof.Machine.execItofS32 t o s
  | .itofU32 t o => Sys2Proof.Machine.execItofU32 t o s
  | .fnarrow t o => Sys2Proof.Machine.execFnarrow t o s
  | .fwiden t o => Sys2Proof.Machine.execFwiden t o s
  | .movfx t o => Sys2Proof.Machine.execMovfx t o s
  | .movxf t o => Sys2Proof.Machine.execMovxf t o s
  | .fmadd t o => Sys2Proof.Machine.execFmadd t o s
  | .fmsub t o => Sys2Proof.Machine.execFmsub t o s
  | .fnmadd t o => Sys2Proof.Machine.execFnmadd t o s
  | .fnmsub t o => Sys2Proof.Machine.execFnmsub t o s
  | .loopI t o => Sys2Proof.Machine.execLoopI t o s
  | .rdtime t o => Sys2Proof.Machine.execRdtime t o s
  | .settc t o => Sys2Proof.Machine.execSettc t o s
  | .waitt t o => Sys2Proof.Machine.execWaitt t o s
  | .rdcr t o => Sys2Proof.Machine.execRdcr t o s
  | .wrcr t o => Sys2Proof.Machine.execWrcr t o s
  | .fence t => Sys2Proof.Machine.execFence t s
  | .hbarm t => Sys2Proof.Machine.execHbarm t s
  | .fret t => Sys2Proof.Machine.execFret t s
  | .park t => Sys2Proof.Machine.execPark t s
  | .yieldI t => Sys2Proof.Machine.execYieldI t s
  | .trap t o => Sys2Proof.Machine.execTrap t o s
  | .vld t o => Sys2Proof.Machine.execVld t o s
  | .vst t o => Sys2Proof.Machine.execVst t o s
  | .vldsW t o => Sys2Proof.Machine.execVldsW t o s
  | .vstsW t o => Sys2Proof.Machine.execVstsW t o s
  | .vldsD t o => Sys2Proof.Machine.execVldsD t o s
  | .vstsD t o => Sys2Proof.Machine.execVstsD t o s
  | .vbcW t o => Sys2Proof.Machine.execVbcW t o s
  | .vbcD t o => Sys2Proof.Machine.execVbcD t o s
  | .vadd t o => Sys2Proof.Machine.execVadd t o s
  | .vsub t o => Sys2Proof.Machine.execVsub t o s
  | .vand t o => Sys2Proof.Machine.execVand t o s
  | .vor t o => Sys2Proof.Machine.execVor t o s
  | .vxor t o => Sys2Proof.Machine.execVxor t o s
  | .vsll t o => Sys2Proof.Machine.execVsll t o s
  | .vsrl t o => Sys2Proof.Machine.execVsrl t o s
  | .vsra t o => Sys2Proof.Machine.execVsra t o s
  | .vmin t o => Sys2Proof.Machine.execVmin t o s
  | .vmax t o => Sys2Proof.Machine.execVmax t o s
  | .vminu t o => Sys2Proof.Machine.execVminu t o s
  | .vmaxu t o => Sys2Proof.Machine.execVmaxu t o s
  | .vmul t o => Sys2Proof.Machine.execVmul t o s
  | .vcmpeq t o => Sys2Proof.Machine.execVcmpeq t o s
  | .vcmplt t o => Sys2Proof.Machine.execVcmplt t o s
  | .vcmpltu t o => Sys2Proof.Machine.execVcmpltu t o s
  | .vsplat t o => Sys2Proof.Machine.execVsplat t o s
  | .vext t o => Sys2Proof.Machine.execVext t o s
  | .vins t o => Sys2Proof.Machine.execVins t o s
  | .vperm t o => Sys2Proof.Machine.execVperm t o s
  | .vpermb t o => Sys2Proof.Machine.execVpermb t o s
  | .vsel t o => Sys2Proof.Machine.execVsel t o s
  | .vfadd t o => Sys2Proof.Machine.execVfadd t o s
  | .vfsub t o => Sys2Proof.Machine.execVfsub t o s
  | .vfmul t o => Sys2Proof.Machine.execVfmul t o s
  | .vfdiv t o => Sys2Proof.Machine.execVfdiv t o s
  | .vfsqrt t o => Sys2Proof.Machine.execVfsqrt t o s
  | .vfmin t o => Sys2Proof.Machine.execVfmin t o s
  | .vfmax t o => Sys2Proof.Machine.execVfmax t o s
  | .vfamax t o => Sys2Proof.Machine.execVfamax t o s
  | .vfsgnC t o => Sys2Proof.Machine.execVfsgnC t o s
  | .vfsgnN t o => Sys2Proof.Machine.execVfsgnN t o s
  | .vfsgnX t o => Sys2Proof.Machine.execVfsgnX t o s
  | .vfcmpeq t o => Sys2Proof.Machine.execVfcmpeq t o s
  | .vfcmplt t o => Sys2Proof.Machine.execVfcmplt t o s
  | .vfcmple t o => Sys2Proof.Machine.execVfcmple t o s
  | .vfclass t o => Sys2Proof.Machine.execVfclass t o s
  | .vfrmax t o => Sys2Proof.Machine.execVfrmax t o s
  | .vfrmin t o => Sys2Proof.Machine.execVfrmin t o s
  | .vframax t o => Sys2Proof.Machine.execVframax t o s
  | .vfrsum t o => Sys2Proof.Machine.execVfrsum t o s
  | .vfmadd t o => Sys2Proof.Machine.execVfmadd t o s
  | .vfmsub t o => Sys2Proof.Machine.execVfmsub t o s
  | .vfnmadd t o => Sys2Proof.Machine.execVfnmadd t o s
  | .vfnmsub t o => Sys2Proof.Machine.execVfnmsub t o s
  | .vcvt t o => Sys2Proof.Machine.execVcvt t o s
  | .vmxDown t o => Sys2Proof.Machine.execVmxDown t o s
  | .vmxUp t o => Sys2Proof.Machine.execVmxUp t o s
  | .vmand t o => Sys2Proof.Machine.execVmand t o s
  | .vmor t o => Sys2Proof.Machine.execVmor t o s
  | .vmxor t o => Sys2Proof.Machine.execVmxor t o s
  | .vmandn t o => Sys2Proof.Machine.execVmandn t o s
  | .vmpopc t o => Sys2Proof.Machine.execVmpopc t o s
  | .vmfirst t o => Sys2Proof.Machine.execVmfirst t o s
  | .vmfx t o => Sys2Proof.Machine.execVmfx t o s
  | .vmtx t o => Sys2Proof.Machine.execVmtx t o s
  | .vmxr t o => Sys2Proof.Machine.execVmxr t o s
  | .vmxw t o => Sys2Proof.Machine.execVmxw t o s
  | .vmxs t o => Sys2Proof.Machine.execVmxs t o s
  | .vcrc64 t o => Sys2Proof.Machine.execVcrc64 t o s
  | .tld t o => Sys2Proof.Machine.execTld t o s
  | .tst t o => Sys2Proof.Machine.execTst t o s
  | .tlds t o => Sys2Proof.Machine.execTlds t o s
  | .tsts t o => Sys2Proof.Machine.execTsts t o s
  | .tscw t o => Sys2Proof.Machine.execTscw t o s
  | .tscf t o => Sys2Proof.Machine.execTscf t o s
  | .twr t o => Sys2Proof.Machine.execTwr t o s
  | .trd t o => Sys2Proof.Machine.execTrd t o s
  | .trl t o => Sys2Proof.Machine.execTrl t o s
  | .tz t o => Sys2Proof.Machine.execTz t o s
  | .mma t o => Sys2Proof.Machine.execMma t o s
  | .azero t o => Sys2Proof.Machine.execAzero t o s
  | .acopy t o => Sys2Proof.Machine.execAcopy t o s
  | .amax t o => Sys2Proof.Machine.execAmax t o s
  | .amin t o => Sys2Proof.Machine.execAmin t o s
  | .ard t o => Sys2Proof.Machine.execArd t o s
  | .awr t o => Sys2Proof.Machine.execAwr t o s
  | .armax t o => Sys2Proof.Machine.execArmax t o s
  | .armin t o => Sys2Proof.Machine.execArmin t o s
  | .ascr t o => Sys2Proof.Machine.execAscr t o s
  | .asubr t o => Sys2Proof.Machine.execAsubr t o s
  | .lde t o => Sys2Proof.Machine.execLde t o s
  | .ldk t o => Sys2Proof.Machine.execLdk t o s
  | .stf t o => Sys2Proof.Machine.execStf t o s
  | .stp t o => Sys2Proof.Machine.execStp t o s
  | .tprobe t o => Sys2Proof.Machine.execTprobe t o s
  | .tsete t o => Sys2Proof.Machine.execTsete t o s
  | .tsetf t o => Sys2Proof.Machine.execTsetf t o s
  | .szero t o => Sys2Proof.Machine.execSzero t o s
  | .ldvD t o => Sys2Proof.Machine.execLdvD t o s
  | .ldvW t o => Sys2Proof.Machine.execLdvW t o s
  | .ldvL t o => Sys2Proof.Machine.execLdvL t o s
  | .winv t o => Sys2Proof.Machine.execWinv t o s
  | .amoAdd t o => Sys2Proof.Machine.execAmoAdd t o s
  | .amoAnd t o => Sys2Proof.Machine.execAmoAnd t o s
  | .amoOr t o => Sys2Proof.Machine.execAmoOr t o s
  | .amoXor t o => Sys2Proof.Machine.execAmoXor t o s
  | .amoMin t o => Sys2Proof.Machine.execAmoMin t o s
  | .amoMax t o => Sys2Proof.Machine.execAmoMax t o s
  | .amoMinu t o => Sys2Proof.Machine.execAmoMinu t o s
  | .amoMaxu t o => Sys2Proof.Machine.execAmoMaxu t o s
  | .amoSwap t o => Sys2Proof.Machine.execAmoSwap t o s
  | .amoCas t o => Sys2Proof.Machine.execAmoCas t o s
  | .send t o => Sys2Proof.Machine.execSend t o s
  | .dispatch t o => Sys2Proof.Machine.execDispatch t o s
  | .qdone t o => Sys2Proof.Machine.execQdone t o s
  | .qstat t o => Sys2Proof.Machine.execQstat t o s
  | .hent t o => Sys2Proof.Machine.execHent t o s
  | .sndstat t o => Sys2Proof.Machine.execSndstat t o s
  | .paceWindowEnd counts => Sys2Proof.Machine.execPaceWindowEnd counts s
  | .thermalConversion temps => Sys2Proof.Machine.execThermalConversion temps s
  | .sensePointSample points => Sys2Proof.Machine.execSensePointSample points s
  | .epochBoundary => Sys2Proof.Machine.execEpochBoundary s
  | .syncReqTimer => Sys2Proof.Machine.execSyncReqTimer s
  | .syncReq link => Sys2Proof.Machine.execSyncReq link s
  | .syncResp link => Sys2Proof.Machine.execSyncResp link s
  | .syncRespTimeout => Sys2Proof.Machine.execSyncRespTimeout s
  | .upstreamExclusionEnd link => Sys2Proof.Machine.execUpstreamExclusionEnd link s
  | .linkAnnounce link => Sys2Proof.Machine.execLinkAnnounce link s
  | .rootAnnounce link => Sys2Proof.Machine.execRootAnnounce link s
  | .holdoverLimit => Sys2Proof.Machine.execHoldoverLimit s
  | .timerCompareMatch t => Sys2Proof.Machine.execTimerCompareMatch t s
  | .heartbeatExpiry => Sys2Proof.Machine.execHeartbeatExpiry s
  | .modHbToggle => Sys2Proof.Machine.execModHbToggle s
  | .fenceComplete t => Sys2Proof.Machine.execFenceComplete t s
  | .issueSlot core => Sys2Proof.Machine.execIssueSlot core s
  | .corePlanSwitch core => Sys2Proof.Machine.execCorePlanSwitch core s
  | .tilePortRow core => Sys2Proof.Machine.execTilePortRow core s
  | .tileRowResponse core => Sys2Proof.Machine.execTileRowResponse core s
  | .mmaComplete core mismatch => Sys2Proof.Machine.execMmaComplete core mismatch s
  | .taggedAccessGrant t => Sys2Proof.Machine.execTaggedAccessGrant t s
  | .deposit core => Sys2Proof.Machine.execDeposit core s
  | .scrubPeriodStart core => Sys2Proof.Machine.execScrubPeriodStart core s
  | .scrubSlotRead core => Sys2Proof.Machine.execScrubSlotRead core s
  | .windowCacheFill core => Sys2Proof.Machine.execWindowCacheFill core s
  | .memoryResponse core => Sys2Proof.Machine.execMemoryResponse core s
  | .requestDeadline core req => Sys2Proof.Machine.execRequestDeadline core req s
  | .sendResume t => Sys2Proof.Machine.execSendResume t s
  | .scionInject core cls => Sys2Proof.Machine.execScionInject core cls s
  | .scionResponse core => Sys2Proof.Machine.execScionResponse core s
  | .scionRetry core cls entry => Sys2Proof.Machine.execScionRetry core cls entry s
  | .scionOfferTimeout core cls entry => Sys2Proof.Machine.execScionOfferTimeout core cls entry s
  | .scionArrival core => Sys2Proof.Machine.execScionArrival core s
  | .scionFlitWrite core => Sys2Proof.Machine.execScionFlitWrite core s
  | .spillCommit core cls => Sys2Proof.Machine.execSpillCommit core cls s
  | .refillEntry core => Sys2Proof.Machine.execRefillEntry core s
  | .dbgRead link => Sys2Proof.Machine.execDbgRead link s
  | .routerFlitArrival inp => Sys2Proof.Machine.execRouterFlitArrival inp s
  | .ringOutputSend out => Sys2Proof.Machine.execRingOutputSend out s
  | .ringCreditReturn inp => Sys2Proof.Machine.execRingCreditReturn inp s
  | .epochHeldRequest core => Sys2Proof.Machine.execEpochHeldRequest core s
  | .controllerRead stack cls => Sys2Proof.Machine.execControllerRead stack cls s
  | .controllerWrite stack cls => Sys2Proof.Machine.execControllerWrite stack cls s
  | .controllerAtomic stack cls => Sys2Proof.Machine.execControllerAtomic stack cls s
  | .channelSlot stack chan refresh => Sys2Proof.Machine.execChannelSlot stack chan refresh s
  | .channelTransferDone stack chan result => Sys2Proof.Machine.execChannelTransferDone stack chan result s
  | .burstFlit stack cls => Sys2Proof.Machine.execBurstFlit stack cls s
  | .burstStagingGrant stack cls => Sys2Proof.Machine.execBurstStagingGrant stack cls s
  | .burstAbandonLink stack link => Sys2Proof.Machine.execBurstAbandonLink stack link s
  | .burstAbandonAge stack => Sys2Proof.Machine.execBurstAbandonAge stack s
  | .channelIsolate stack chan => Sys2Proof.Machine.execChannelIsolate stack chan s
  | .relocationCopy stack => Sys2Proof.Machine.execRelocationCopy stack s
  | .streamRead t => Sys2Proof.Machine.execStreamRead t s
  | .streamAdvance t => Sys2Proof.Machine.execStreamAdvance t s
  | .streamSetdue t => Sys2Proof.Machine.execStreamSetdue t s
  | .streamLate t => Sys2Proof.Machine.execStreamLate t s
  | .streamHarvest t => Sys2Proof.Machine.execStreamHarvest t s
  | .streamFail t => Sys2Proof.Machine.execStreamFail t s
  | .streamCacheFill stack fill => Sys2Proof.Machine.execStreamCacheFill stack fill s
  | .streamIdAvailable stack => Sys2Proof.Machine.execStreamIdAvailable stack s
  | .laneDegrade link lane ce => Sys2Proof.Machine.execLaneDegrade link lane ce s
  | .laneLoss link lane => Sys2Proof.Machine.execLaneLoss link lane s
  | .laneMirror link => Sys2Proof.Machine.execLaneMirror link s
  | .laneMirrorOn link => Sys2Proof.Machine.execLaneMirrorOn link s
  | .laneSwitched link => Sys2Proof.Machine.execLaneSwitched link s
  | .laneTest link => Sys2Proof.Machine.execLaneTest link s
  | .laneTestResult link => Sys2Proof.Machine.execLaneTestResult link s
  | .laneRefuse link => Sys2Proof.Machine.execLaneRefuse link s
  | .frameReceive link frame fec => Sys2Proof.Machine.execFrameReceive link frame fec s
  | .frameBuild link => Sys2Proof.Machine.execFrameBuild link s
  | .nakResend link => Sys2Proof.Machine.execNakResend link s
  | .replayTimeout link => Sys2Proof.Machine.execReplayTimeout link s
  | .signalDetect link => Sys2Proof.Machine.execSignalDetect link s
  | .signalLoss link => Sys2Proof.Machine.execSignalLoss link s
  | .train link => Sys2Proof.Machine.execTrain link s
  | .trainingTimeout link => Sys2Proof.Machine.execTrainingTimeout link s
  | .retrainTimeout link => Sys2Proof.Machine.execRetrainTimeout link s
  | .linkDown link => Sys2Proof.Machine.execLinkDown link s
  | .ingressForward link vc => Sys2Proof.Machine.execIngressForward link vc s
  | .egressReserve link cls => Sys2Proof.Machine.execEgressReserve link cls s
  | .requestRecordTimeout link rec => Sys2Proof.Machine.execRequestRecordTimeout link rec s
  | .stallDrainEnter link cls => Sys2Proof.Machine.execStallDrainEnter link cls s
  | .apertureBurstDelivered link bseq => Sys2Proof.Machine.execApertureBurstDelivered link bseq s
  | .admitEngineStart => Sys2Proof.Machine.execAdmitEngineStart s
  | .admitHello link => Sys2Proof.Machine.execAdmitHello link s
  | .admitProve link => Sys2Proof.Machine.execAdmitProve link s
  | .admitResult link => Sys2Proof.Machine.execAdmitResult link s
  | .admitResend link => Sys2Proof.Machine.execAdmitResend link s
  | .admitTimeout link => Sys2Proof.Machine.execAdmitTimeout link s
  | .quarantineBackoffEnd link => Sys2Proof.Machine.execQuarantineBackoffEnd link s
  | .quarantineCountReset link => Sys2Proof.Machine.execQuarantineCountReset link s
  | .acapWindowEnd link => Sys2Proof.Machine.execAcapWindowEnd link s
  | .evClear t o => Sys2Proof.Machine.execEvClear t o s
  | .modResetNRelease env => Sys2Proof.Machine.execModResetNRelease env s
  | .bootPlanThreadStart => Sys2Proof.Machine.execBootPlanThreadStart s
  | .modResetNAssert => Sys2Proof.Machine.execModResetNAssert s
  | .modPwrEnChange on => Sys2Proof.Machine.execModPwrEnChange on s
  | .planOpen link => Sys2Proof.Machine.execPlanOpen link s
  | .planChunk link => Sys2Proof.Machine.execPlanChunk link s
  | .planInstall link => Sys2Proof.Machine.execPlanInstall link s
  | .planAbort link => Sys2Proof.Machine.execPlanAbort link s
  | .planQuery link => Sys2Proof.Machine.execPlanQuery link s
  | .planSessionIdle => Sys2Proof.Machine.execPlanSessionIdle s
  | .oldBankRelease => Sys2Proof.Machine.execOldBankRelease s
  | .prune src => Sys2Proof.Machine.execPrune src s
  | .graft src => Sys2Proof.Machine.execGraft src s
  | .unitTest src => Sys2Proof.Machine.execUnitTest src s
  | .unitTestEnd u pass errors => Sys2Proof.Machine.execUnitTestEnd u pass errors s
  | .unitQuery src => Sys2Proof.Machine.execUnitQuery src s
  | .unitSwitch u => Sys2Proof.Machine.execUnitSwitch u s
  | .pruneFinal u => Sys2Proof.Machine.execPruneFinal u s
  | .migrateOut src => Sys2Proof.Machine.execMigrateOut src s
  | .migrateIn src => Sys2Proof.Machine.execMigrateIn src s
  | .migrateEnd src => Sys2Proof.Machine.execMigrateEnd src s
  | .hostSubmit link => Sys2Proof.Machine.execHostSubmit link s
  | .submitNoticeDone => Sys2Proof.Machine.execSubmitNoticeDone s
  | .hostClose link => Sys2Proof.Machine.execHostClose link s
  | .hostHread op => Sys2Proof.Machine.execHostHread op s
  | .hostHrelease op => Sys2Proof.Machine.execHostHrelease op s
  | .hostQuery link => Sys2Proof.Machine.execHostQuery link s
  | .hostEnd link => Sys2Proof.Machine.execHostEnd link s
  | .latchPulse => Sys2Proof.Machine.execLatchPulse s
  | .latchClaim cause => Sys2Proof.Machine.execLatchClaim cause s
  | .handover src => Sys2Proof.Machine.execHandover src s
  | .modPresentNChange bay present => Sys2Proof.Machine.execModPresentNChange bay present s
  | .bayStart bay env => Sys2Proof.Machine.execBayStart bay env s
  | .startTimeout bay => Sys2Proof.Machine.execStartTimeout bay s
  | .hbLapse bay => Sys2Proof.Machine.execHbLapse bay s
  | .errCorr bay => Sys2Proof.Machine.execErrCorr bay s
  | .errFatal bay => Sys2Proof.Machine.execErrFatal bay s
  | .feedLow feed => Sys2Proof.Machine.execFeedLow feed s
  | .rampComplete bay => Sys2Proof.Machine.execRampComplete bay s
  | .rampPause bay => Sys2Proof.Machine.execRampPause bay s
  | .rampResume bay => Sys2Proof.Machine.execRampResume bay s
  | .rampAbort bay => Sys2Proof.Machine.execRampAbort bay s
  | .tripFast bay => Sys2Proof.Machine.execTripFast bay s
  | .tripSlow bay => Sys2Proof.Machine.execTripSlow bay s
  | .overload bay => Sys2Proof.Machine.execOverload bay s
  | .reclose bay => Sys2Proof.Machine.execReclose bay s
  | .leak zone => Sys2Proof.Machine.execLeak zone s
  | .sensorFault zone => Sys2Proof.Machine.execSensorFault zone s
  | .leakClear src => Sys2Proof.Machine.execLeakClear src s
  | .stringMeasure cells total => Sys2Proof.Machine.execStringMeasure cells total s
  | .tapTest moves consistent => Sys2Proof.Machine.execTapTest moves consistent s
  | .cablePresenceChange conn present record => Sys2Proof.Machine.execCablePresenceChange conn present record s
  | .wardenChannelFrame e frame => Sys2Proof.Machine.execWardenChannelFrame e frame s
  | .wardenChannelResend e => Sys2Proof.Machine.execWardenChannelResend e s
  | .wardenChannelResync e => Sys2Proof.Machine.execWardenChannelResync e s
  | .dieReport report => Sys2Proof.Machine.execDieReport report s
  | .mgmtForward link => Sys2Proof.Machine.execMgmtForward link s
  | .trayQuery src => Sys2Proof.Machine.execTrayQuery src s
  | .logRead src => Sys2Proof.Machine.execLogRead src s
  | .bayCtrlStart src => Sys2Proof.Machine.execBayCtrlStart src s
  | .bayCtrlStop src => Sys2Proof.Machine.execBayCtrlStop src s
  | .bayCtrlRestart src => Sys2Proof.Machine.execBayCtrlRestart src s
  | .bayCtrlResetLockout src => Sys2Proof.Machine.execBayCtrlResetLockout src s
  | .trayCfg src => Sys2Proof.Machine.execTrayCfg src s
  | .rsOpen src => Sys2Proof.Machine.execRsOpen src s
  | .rsChunk src => Sys2Proof.Machine.execRsChunk src s
  | .rsCommit src => Sys2Proof.Machine.execRsCommit src s
  | .fwOpen src => Sys2Proof.Machine.execFwOpen src s
  | .fwChunk src => Sys2Proof.Machine.execFwChunk src s
  | .fwCommit src => Sys2Proof.Machine.execFwCommit src s
  | .fwActivate src => Sys2Proof.Machine.execFwActivate src s
  | .fwRejoinTimeout => Sys2Proof.Machine.execFwRejoinTimeout s
  | .spHello frame => Sys2Proof.Machine.execSpHello frame s
  | .spAuth frame => Sys2Proof.Machine.execSpAuth frame s
  | .spSessionEnd => Sys2Proof.Machine.execSpSessionEnd s
  | .feedOvervoltageBlock feed => Sys2Proof.Machine.execFeedOvervoltageBlock feed s
  | .inputUndervoltage => Sys2Proof.Machine.execInputUndervoltage s
  | .phyTrainingDone link => Sys2Proof.Machine.execPhyTrainingDone link s
  | .trainFrameTimer link => Sys2Proof.Machine.execTrainFrameTimer link s
  | .feedPathUnblock feed => Sys2Proof.Machine.execFeedPathUnblock feed s
  | .holdupPackChange fitted => Sys2Proof.Machine.execHoldupPackChange fitted s
  | .wardenCardPowerUp w trayPowerUp => Sys2Proof.Machine.execWardenCardPowerUp w trayPowerUp s
  | .rootstockWriteDone ok => Sys2Proof.Machine.execRootstockWriteDone ok s
  | .bundleWriteDone ok => Sys2Proof.Machine.execBundleWriteDone ok s
  | .baySequenceTimer bay => Sys2Proof.Machine.execBaySequenceTimer bay s
  | .fwRejoinHealthy => Sys2Proof.Machine.execFwRejoinHealthy s

end Sys2Proof.Machine
end

