-- ==== Sys2Proof/Machine/Idle.lean ====
section
/-! DEFINITION. A reference cycle with no command waiting (R41). -/

namespace Sys2Proof.Machine

/-- The nominal increment of chip time per reference cycle, in units of 2^-40 ns: 1 / 2.656 25 ns (R33, R41). -/
def nominalIncrement : Nat := 2 ^ 40 * 32 / 85

/-- The increment that the servo sets: nominal, trimmed by the frequency estimate and the offset slew in
parts per 10^9 (R41, R47). -/
def TimeState.increment (t : TimeState) : Nat :=
  ((nominalIncrement : Int) + (nominalIncrement : Int) * (t.freqEst + t.slew) / 1000000000).toNat

/-- One reference cycle: chip time rises by the increment (R41) while the module is powered and out of reset.
Log entry 1 (DESIGN CHOICE). -/
def State.idle (s : State) : State :=
  if s.boot.powered && !s.boot.inReset then
    { s with time := { s.time with clock := s.time.clock + BitVec.ofNat 104 s.time.increment } }
  else s

end Sys2Proof.Machine
end

