-- ==== Sys2Proof/Machine/Step.lean ====
section
/-! DEFINITION. One step of the block: the command at the front of the queue is taken off and executed on
the state with the queue's rest; with no command waiting, one cycle of the reference oscillator passes. -/

namespace Sys2Proof.Machine

/-- A step (three outcomes: next, fault, refusal). Log entries 1 (DESIGN CHOICE), 112 (DESIGN CHOICE). -/
def step (s : State) : Host.Outcome State Fault Refusal :=
  match s.pending with
  | [] => .next s.idle
  | c :: rest => exec c { s with pending := rest }

/-- The state with the command that a table word spells at the front of its queue.
Log entries 1 (DESIGN CHOICE), 4 (DESIGN CHOICE). -/
def State.withFetchWord (s : State) (nbits w : Nat) : State :=
  match decodeTableWord nbits w with
  | some c => { s with pending := c :: s.pending }
  | none => s

end Sys2Proof.Machine
end

