-- ==== Sys2Proof/Safety.lean ====
section
/-! DEFINITION. The terms in which claims are stated: when a thread issues a word, what the tables of the spec give
as the result of a register word, written on integers and rationals and not on the model's operators, and the
invariants. -/

namespace Sys2Proof.Machine

/-! ## Issue -/

/-- The thread that a core word names; none for the commands that are no core word. -/
def threadOf : Instr → Option ThreadAt
  | .add a _ => some a
  | .sub a _ => some a
  | .andR a _ => some a
  | .orR a _ => some a
  | .xorR a _ => some a
  | .andn a _ => some a
  | .sll a _ => some a
  | .srl a _ => some a
  | .sra a _ => some a
  | .ror a _ => some a
  | .lts a _ => some a
  | .ltu a _ => some a
  | .minS a _ => some a
  | .maxS a _ => some a
  | .minu a _ => some a
  | .maxu a _ => some a
  | .clz a _ => some a
  | .ctz a _ => some a
  | .popc a _ => some a
  | .mul a _ => some a
  | .mulhiS a _ => some a
  | .mulhiU a _ => some a
  | .mulhiSu a _ => some a
  | .div a _ => some a
  | .divu a _ => some a
  | .rem a _ => some a
  | .remu a _ => some a
  | .addi a _ => some a
  | .andi a _ => some a
  | .ori a _ => some a
  | .xori a _ => some a
  | .ltsi a _ => some a
  | .ltui a _ => some a
  | .slli a _ => some a
  | .srli a _ => some a
  | .srai a _ => some a
  | .rori a _ => some a
  | .liu a _ => some a
  | .beq a _ => some a
  | .bne a _ => some a
  | .blt a _ => some a
  | .bge a _ => some a
  | .bltu a _ => some a
  | .bgeu a _ => some a
  | .jmp a _ => some a
  | .jal a _ => some a
  | .jlr a _ => some a
  | .ldB a _ => some a
  | .ldBu a _ => some a
  | .ldH a _ => some a
  | .ldHu a _ => some a
  | .ldW a _ => some a
  | .ldWu a _ => some a
  | .ldD a _ => some a
  | .stB a _ => some a
  | .stH a _ => some a
  | .stW a _ => some a
  | .stD a _ => some a
  | .fldS a _ => some a
  | .fldD a _ => some a
  | .fstS a _ => some a
  | .fstD a _ => some a
  | .fadd a _ => some a
  | .fsub a _ => some a
  | .fmul a _ => some a
  | .fdiv a _ => some a
  | .fsqrt a _ => some a
  | .fmin a _ => some a
  | .fmax a _ => some a
  | .fsgnC a _ => some a
  | .fsgnN a _ => some a
  | .fsgnX a _ => some a
  | .feq a _ => some a
  | .flt a _ => some a
  | .fle a _ => some a
  | .fclass a _ => some a
  | .ftoiS64 a _ => some a
  | .ftoiU64 a _ => some a
  | .ftoiS32 a _ => some a
  | .ftoiU32 a _ => some a
  | .itofS64 a _ => some a
  | .itofU64 a _ => some a
  | .itofS32 a _ => some a
  | .itofU32 a _ => some a
  | .fnarrow a _ => some a
  | .fwiden a _ => some a
  | .movfx a _ => some a
  | .movxf a _ => some a
  | .fmadd a _ => some a
  | .fmsub a _ => some a
  | .fnmadd a _ => some a
  | .fnmsub a _ => some a
  | .loopI a _ => some a
  | .rdtime a _ => some a
  | .settc a _ => some a
  | .waitt a _ => some a
  | .rdcr a _ => some a
  | .wrcr a _ => some a
  | .fence a => some a
  | .hbarm a => some a
  | .fret a => some a
  | .park a => some a
  | .yieldI a => some a
  | .trap a _ => some a
  | .vld a _ => some a
  | .vst a _ => some a
  | .vldsW a _ => some a
  | .vstsW a _ => some a
  | .vldsD a _ => some a
  | .vstsD a _ => some a
  | .vbcW a _ => some a
  | .vbcD a _ => some a
  | .vadd a _ => some a
  | .vsub a _ => some a
  | .vand a _ => some a
  | .vor a _ => some a
  | .vxor a _ => some a
  | .vsll a _ => some a
  | .vsrl a _ => some a
  | .vsra a _ => some a
  | .vmin a _ => some a
  | .vmax a _ => some a
  | .vminu a _ => some a
  | .vmaxu a _ => some a
  | .vmul a _ => some a
  | .vcmpeq a _ => some a
  | .vcmplt a _ => some a
  | .vcmpltu a _ => some a
  | .vsplat a _ => some a
  | .vext a _ => some a
  | .vins a _ => some a
  | .vperm a _ => some a
  | .vpermb a _ => some a
  | .vsel a _ => some a
  | .vfadd a _ => some a
  | .vfsub a _ => some a
  | .vfmul a _ => some a
  | .vfdiv a _ => some a
  | .vfsqrt a _ => some a
  | .vfmin a _ => some a
  | .vfmax a _ => some a
  | .vfamax a _ => some a
  | .vfsgnC a _ => some a
  | .vfsgnN a _ => some a
  | .vfsgnX a _ => some a
  | .vfcmpeq a _ => some a
  | .vfcmplt a _ => some a
  | .vfcmple a _ => some a
  | .vfclass a _ => some a
  | .vfrmax a _ => some a
  | .vfrmin a _ => some a
  | .vframax a _ => some a
  | .vfrsum a _ => some a
  | .vfmadd a _ => some a
  | .vfmsub a _ => some a
  | .vfnmadd a _ => some a
  | .vfnmsub a _ => some a
  | .vcvt a _ => some a
  | .vmxDown a _ => some a
  | .vmxUp a _ => some a
  | .vmand a _ => some a
  | .vmor a _ => some a
  | .vmxor a _ => some a
  | .vmandn a _ => some a
  | .vmpopc a _ => some a
  | .vmfirst a _ => some a
  | .vmfx a _ => some a
  | .vmtx a _ => some a
  | .vmxr a _ => some a
  | .vmxw a _ => some a
  | .vmxs a _ => some a
  | .vcrc64 a _ => some a
  | .tld a _ => some a
  | .tst a _ => some a
  | .tlds a _ => some a
  | .tsts a _ => some a
  | .tscw a _ => some a
  | .tscf a _ => some a
  | .twr a _ => some a
  | .trd a _ => some a
  | .trl a _ => some a
  | .tz a _ => some a
  | .mma a _ => some a
  | .azero a _ => some a
  | .acopy a _ => some a
  | .amax a _ => some a
  | .amin a _ => some a
  | .ard a _ => some a
  | .awr a _ => some a
  | .armax a _ => some a
  | .armin a _ => some a
  | .ascr a _ => some a
  | .asubr a _ => some a
  | .lde a _ => some a
  | .ldk a _ => some a
  | .stf a _ => some a
  | .stp a _ => some a
  | .tprobe a _ => some a
  | .tsete a _ => some a
  | .tsetf a _ => some a
  | .szero a _ => some a
  | .ldvD a _ => some a
  | .ldvW a _ => some a
  | .ldvL a _ => some a
  | .winv a _ => some a
  | .amoAdd a _ => some a
  | .amoAnd a _ => some a
  | .amoOr a _ => some a
  | .amoXor a _ => some a
  | .amoMin a _ => some a
  | .amoMax a _ => some a
  | .amoMinu a _ => some a
  | .amoMaxu a _ => some a
  | .amoSwap a _ => some a
  | .amoCas a _ => some a
  | .send a _ => some a
  | .dispatch a _ => some a
  | .qdone a _ => some a
  | .qstat a _ => some a
  | .hent a _ => some a
  | .sndstat a _ => some a
  | _ => none

/-- Thread a, of the core at `site`, issues word i in s, and no fault precedes the word's own effect: the die runs,
the thread is ready (R61), the word is well formed (R66), and its sources are good (R72, R91). -/
structure Issues (i : Instr) (a : ThreadAt) (s : State) (site : Nat) : Prop where
  core : s.siteOf a.row.toNat a.col.toNat = some site
  running : s.running = true
  wellFormed : i.wf = true
  ready : (s.core site).readyFor a i = true
  sound : (s.thr site a.t).sourceFault (sources i) = none

/-! ## Integer results on integers -/

/-- A source as a signed number, of 64 bits or of its low 32 in the W form. -/
def sgnOf (w : Bool) (v : W64) : Int := toSigned (if w then 32 else 64) v.toNat
/-- A source as an unsigned number. -/
def unsOf (w : Bool) (v : W64) : Nat := if w then v.toNat % 2 ^ 32 else v.toNat
/-- A result modulo 2^64, or modulo 2^32 and then sign-extended (R68). -/
def wrapOf (w : Bool) (r : Int) : W64 :=
  if w then BitVec.ofInt 64 (toSigned 32 (r % 2 ^ 32).toNat) else BitVec.ofInt 64 r
/-- The shift amount: rb[5:0], or rb[4:0] in the W form. -/
def amtOf (w : Bool) (v : W64) : Nat := if w then v.toNat % 32 else v.toNat % 64
/-- Largest and least signed numbers of the width. -/
def topOf (w : Bool) : Int := if w then 2 ^ 31 - 1 else 2 ^ 63 - 1
def botOf (w : Bool) : Int := if w then -2 ^ 31 else -2 ^ 63
def widthOf (w : Bool) : Nat := if w then 32 else 64

/-- Quotient of DIV (R69). -/
def divRule (w : Bool) (a b : Int) : Int :=
  if b = 0 then (if 0 ≤ a then topOf w else botOf w)
  else if a = botOf w ∧ b = -1 then topOf w else a.tdiv b
/-- Remainder of REM (R69). -/
def remRule (w : Bool) (a b : Int) : Int :=
  if b = 0 then a else if a = botOf w ∧ b = -1 then -1 else a.tmod b

/-- Rotation right by k of a number of n bits. -/
def rorRule (n u k : Nat) : Nat := u / 2 ^ k + u % 2 ^ k * 2 ^ (n - k)

/-- Destination and result of the words of Table 3-6, from the two sources as numbers. -/
def intRule : Instr → Thread → Option (BitVec 5 × W64)
  | .add _ o, th => some (o.rd, wrapOf o.w (sgnOf o.w (th.rx o.ra) + sgnOf o.w (th.rx o.rb)))
  | .sub _ o, th => some (o.rd, wrapOf o.w (sgnOf o.w (th.rx o.ra) - sgnOf o.w (th.rx o.rb)))
  | .mul _ o, th => some (o.rd, wrapOf o.w (sgnOf o.w (th.rx o.ra) * sgnOf o.w (th.rx o.rb)))
  | .andR _ o, th => some (o.rd, wrapOf o.w (unsOf o.w (th.rx o.ra) &&& unsOf o.w (th.rx o.rb) : Nat))
  | .orR _ o, th => some (o.rd, wrapOf o.w (unsOf o.w (th.rx o.ra) ||| unsOf o.w (th.rx o.rb) : Nat))
  | .xorR _ o, th => some (o.rd, wrapOf o.w (unsOf o.w (th.rx o.ra) ^^^ unsOf o.w (th.rx o.rb) : Nat))
  | .andn _ o, th => some (o.rd, wrapOf o.w
      ((unsOf o.w (th.rx o.ra) : Int) - (unsOf o.w (th.rx o.ra) &&& unsOf o.w (th.rx o.rb) : Nat)))
  | .sll _ o, th => some (o.rd, wrapOf o.w (sgnOf o.w (th.rx o.ra) * 2 ^ amtOf o.w (th.rx o.rb)))
  | .srl _ o, th => some (o.rd, wrapOf o.w (unsOf o.w (th.rx o.ra) / 2 ^ amtOf o.w (th.rx o.rb) : Nat))
  | .sra _ o, th => some (o.rd, wrapOf o.w (sgnOf o.w (th.rx o.ra) / 2 ^ amtOf o.w (th.rx o.rb)))
  | .ror _ o, th => some (o.rd, wrapOf o.w (rorRule (widthOf o.w) (unsOf o.w (th.rx o.ra)) (amtOf o.w (th.rx o.rb)) : Nat))
  | .lts _ o, th => some (o.rd, if sgnOf o.w (th.rx o.ra) < sgnOf o.w (th.rx o.rb) then 1 else 0)
  | .ltu _ o, th => some (o.rd, if unsOf o.w (th.rx o.ra) < unsOf o.w (th.rx o.rb) then 1 else 0)
  | .minS _ o, th => some (o.rd, wrapOf o.w (min (sgnOf o.w (th.rx o.ra)) (sgnOf o.w (th.rx o.rb))))
  | .maxS _ o, th => some (o.rd, wrapOf o.w (max (sgnOf o.w (th.rx o.ra)) (sgnOf o.w (th.rx o.rb))))
  | .minu _ o, th => some (o.rd, wrapOf o.w (min (unsOf o.w (th.rx o.ra)) (unsOf o.w (th.rx o.rb)) : Nat))
  | .maxu _ o, th => some (o.rd, wrapOf o.w (max (unsOf o.w (th.rx o.ra)) (unsOf o.w (th.rx o.rb)) : Nat))
  | .div _ o, th => some (o.rd, wrapOf o.w (divRule o.w (sgnOf o.w (th.rx o.ra)) (sgnOf o.w (th.rx o.rb))))
  | .rem _ o, th => some (o.rd, wrapOf o.w (remRule o.w (sgnOf o.w (th.rx o.ra)) (sgnOf o.w (th.rx o.rb))))
  | .divu _ o, th => some (o.rd, wrapOf o.w
      (if unsOf o.w (th.rx o.rb) = 0 then -1 else (unsOf o.w (th.rx o.ra) / unsOf o.w (th.rx o.rb) : Nat)))
  | .remu _ o, th => some (o.rd, wrapOf o.w (unsOf o.w (th.rx o.ra) % unsOf o.w (th.rx o.rb) : Nat))
  | .mulhiS _ o, th => some (o.rd, wrapOf false (sgnOf false (th.rx o.ra) * sgnOf false (th.rx o.rb) / 2 ^ 64))
  | .mulhiU _ o, th => some (o.rd, wrapOf false (unsOf false (th.rx o.ra) * unsOf false (th.rx o.rb) / 2 ^ 64 : Nat))
  | .mulhiSu _ o, th => some (o.rd, wrapOf false (sgnOf false (th.rx o.ra) * (unsOf false (th.rx o.rb) : Int) / 2 ^ 64))
  | .clz _ o, th => some (o.rd, wrapOf o.w
      (let u := unsOf o.w (th.rx o.ra); if u = 0 then widthOf o.w else widthOf o.w - 1 - Nat.log2 u : Nat))
  | .ctz _ o, th => some (o.rd, wrapOf o.w
      (let u := unsOf o.w (th.rx o.ra)
       ((List.range (widthOf o.w)).takeWhile fun k => u / 2 ^ k % 2 == 0).length : Nat))
  | .popc _ o, th => some (o.rd, wrapOf o.w
      (let u := unsOf o.w (th.rx o.ra); ((List.range (widthOf o.w)).map fun k => u / 2 ^ k % 2).sum : Nat))
  | _, _ => none

/-- imm16 as a signed number, and as an unsigned one (R68). -/
def simm (i : BitVec 16) : Int := toSigned 16 i.toNat
def uimm (i : BitVec 16) : Nat := i.toNat

/-- Destination and result of the immediate words of Table 3-7. -/
def immRule : Instr → Thread → Option (BitVec 5 × W64)
  | .addi _ o, th => some (o.rd, wrapOf false (sgnOf false (th.rx o.ra) + simm o.imm))
  | .andi _ o, th => some (o.rd, wrapOf false ((th.rx o.ra).toNat &&& uimm o.imm : Nat))
  | .ori _ o, th => some (o.rd, wrapOf false ((th.rx o.ra).toNat ||| uimm o.imm : Nat))
  | .xori _ o, th => some (o.rd, wrapOf false ((th.rx o.ra).toNat ^^^ uimm o.imm : Nat))
  | .ltsi _ o, th => some (o.rd, if sgnOf false (th.rx o.ra) < simm o.imm then 1 else 0)
  | .ltui _ o, th => some (o.rd, if (th.rx o.ra).toNat < uimm o.imm then 1 else 0)
  | .slli _ o, th => some (o.rd, wrapOf o.w (sgnOf o.w (th.rx o.ra) * 2 ^ o.amt.toNat))
  | .srli _ o, th => some (o.rd, wrapOf o.w (unsOf o.w (th.rx o.ra) / 2 ^ o.amt.toNat : Nat))
  | .srai _ o, th => some (o.rd, wrapOf o.w (sgnOf o.w (th.rx o.ra) / 2 ^ o.amt.toNat))
  | .rori _ o, th => some (o.rd, wrapOf o.w (rorRule (widthOf o.w) (unsOf o.w (th.rx o.ra)) o.amt.toNat : Nat))
  | .liu _ o, _ => some (o.rd, wrapOf false (toSigned 21 o.imm.toNat * 2 ^ 16))
  | _, _ => none

/-! ## Control transfers on numbers (R58, R70) -/

/-- A relative target: pc plus four times a signed offset, modulo 32 KiB. -/
def target (pc : BitVec 15) (off : Int) : BitVec 15 := BitVec.ofNat 15 (((pc.toNat : Int) + 4 * off) % 2 ^ 15).toNat

/-- What a branch compares, and where it goes when that holds (Table 3-7). -/
def branchRule : Instr → Thread → Option (Bool × BitVec 15)
  | .beq _ o, th => some (decide (th.rx o.ra = th.rx o.rb), target th.pc (simm o.off))
  | .bne _ o, th => some (decide (th.rx o.ra ≠ th.rx o.rb), target th.pc (simm o.off))
  | .blt _ o, th => some (decide (sgnOf false (th.rx o.ra) < sgnOf false (th.rx o.rb)), target th.pc (simm o.off))
  | .bge _ o, th => some (decide (sgnOf false (th.rx o.rb) ≤ sgnOf false (th.rx o.ra)), target th.pc (simm o.off))
  | .bltu _ o, th => some (decide ((th.rx o.ra).toNat < (th.rx o.rb).toNat), target th.pc (simm o.off))
  | .bgeu _ o, th => some (decide ((th.rx o.rb).toNat ≤ (th.rx o.ra).toNat), target th.pc (simm o.off))
  | _, _ => none

/-- The address after an instruction, as a link value. -/
def linkRule (th : Thread) : W64 := BitVec.ofNat 64 ((th.pc.toNat + 4) % 2 ^ 15)

/-- A loop whose body the word at pc ends, with a thread that is not in a handler's frozen loop (R74). -/
def atLoopEnd (th : Thread) : Bool := th.loopActive && !th.loopFrozen && th.pc == th.lend
/-- A target outside the body of an active loop (R74). -/
def leavesLoop (th : Thread) (pc : BitVec 15) : Bool :=
  th.loopActive && !th.loopFrozen && (decide (pc.toNat < th.lbeg.toNat) || decide (th.lend.toNat < pc.toNat))

/-! ## Floating-point words (Table 3-9, R59, R73) -/

/-- A binary32 or binary64 source: bits [63:32] count only in binary64 (R59). -/
def fsource (d : Bool) (v : W64) : Nat := if d then v.toNat else v.toNat % 2 ^ 32
/-- The register value of a result: bits [63:32] are zero in binary32 (R59). -/
def fresult (d : Bool) (v : Nat) : W64 := BitVec.ofNat 64 (if d then v else v % 2 ^ 32)
/-- The rounding direction of a word's rm field, or of THR_FPCSR.rm where the field is 0 (R73). -/
def roundRule (rm dyn : BitVec 3) : Rnd :=
  match (if rm.toNat = 0 then dyn.toNat else rm.toNat) with
  | 2 => .nearestAway
  | 3 => .zero
  | 4 => .up
  | 5 => .down
  | _ => .nearestEven

/-- The rm field of the words that round; none for those that do not (R73). -/
def rmField : Instr → Option (BitVec 3)
  | .fadd _ o | .fsub _ o | .fmul _ o | .fdiv _ o => some o.rm
  | .fsqrt _ o | .ftoiS64 _ o | .ftoiU64 _ o | .ftoiS32 _ o | .ftoiU32 _ o
  | .itofS64 _ o | .itofU64 _ o | .itofS32 _ o | .itofU32 _ o => some o.rm
  | .fnarrow _ o | .fwiden _ o => some o.rm
  | .fmadd _ o | .fmsub _ o | .fnmadd _ o | .fnmsub _ o => some o.rm
  | .vfadd _ o | .vfsub _ o | .vfmul _ o | .vfdiv _ o => some o.rm
  | .vfsqrt _ o | .vfrsum _ o => some o.rm
  | .vfmadd _ _ | .vfmsub _ _ | .vfnmadd _ _ | .vfnmsub _ _ => some 0
  | _ => none

/-- The effective mode is one of the five of R73, wherever the word rounds. -/
def modeGood (i : Instr) (th : Thread) : Bool :=
  match rmField i with
  | none => true
  | some rm =>
    let m := (if rm = 0 then th.rm else rm).toNat
    decide (1 ≤ m ∧ m ≤ 5)

/-- What a floating-point word writes: an f register or an x register, and the flags it raises. -/
structure FpEffect where
  f : Option (BitVec 5 × W64) := none
  x : Option (BitVec 5 × W64) := none
  flags : Flags := 0

/-- The register of an effect written, the flags joined. -/
def FpEffect.on (e : FpEffect) (th : Thread) : Thread :=
  let th1 := match e.f with
    | some p => th.wf p.1 p.2
    | none => th
  let th2 := match e.x with
    | some p => th1.wx p.1 p.2
    | none => th1
  { th2 with flags := th.flags ||| e.flags }

def fpF (d : Bool) (rd : BitVec 5) (v : Nat × Flags) : Option FpEffect :=
  some { f := some (rd, fresult d v.1), flags := v.2 }
def fpX (rd : BitVec 5) (v : Int) (fl : Flags) : Option FpEffect :=
  some { x := some (rd, BitVec.ofInt 64 v), flags := fl }

/-- The format of the D bit. -/
def fmtD (d : Bool) : FFmt := if d then binary64 else binary32

def fpBin (op : FFmt → Rnd → Nat → Nat → Nat × Flags) (o : FpOp) (th : Thread) : Option FpEffect :=
  fpF o.d o.rd (op (fmtD o.d) (roundRule o.rm th.rm) (fsource o.d (th.rf o.ra)) (fsource o.d (th.rf o.rb)))
def fpTwoSrc (op : FFmt → Nat → Nat → Nat × Flags) (o : FpCmp) (th : Thread) : Option FpEffect :=
  fpF o.d o.rd (op (fmtD o.d) (fsource o.d (th.rf o.ra)) (fsource o.d (th.rf o.rb)))
def fpCompare (op : FFmt → Nat → Nat → Bool × Flags) (o : FpCmp) (th : Thread) : Option FpEffect :=
  let v := op (fmtD o.d) (fsource o.d (th.rf o.ra)) (fsource o.d (th.rf o.rb))
  fpX o.rd (if v.1 then 1 else 0) v.2
/-- To an integer of the range lo to hi (R73). -/
def fpInteger (lo hi : Int) (o : FpUn) (th : Thread) : Option FpEffect :=
  let v := toInteger (roundRule o.rm th.rm) lo hi ((fmtD o.d).decode (fsource o.d (th.rf o.ra)))
  fpX o.rd v.1 v.2
def fpFrom (v : Int) (o : FpUn) (th : Thread) : Option FpEffect :=
  fpF o.d o.rd ((fmtD o.d).ofInteger (roundRule o.rm th.rm) v)
def fpFma (negProd negAdd : Bool) (o : FmaOp) (th : Thread) : Option FpEffect :=
  fpF o.d o.rd ((fmtD o.d).fma negProd negAdd (roundRule o.rm th.rm)
    (fsource o.d (th.rf o.ra)) (fsource o.d (th.rf o.rb)) (fsource o.d (th.rf o.rc)))

/-- What the words of Table 3-9 and of the FMA group write. -/
def fpRule : Instr → Thread → Option FpEffect
  | .fadd _ o, th => fpBin FFmt.add o th
  | .fsub _ o, th => fpBin FFmt.sub o th
  | .fmul _ o, th => fpBin FFmt.mul o th
  | .fdiv _ o, th => fpBin FFmt.div o th
  | .fsqrt _ o, th => fpF o.d o.rd ((fmtD o.d).sqrt (roundRule o.rm th.rm) (fsource o.d (th.rf o.ra)))
  | .fmin _ o, th => fpTwoSrc (fun f a b => f.minMax false a b) o th
  | .fmax _ o, th => fpTwoSrc (fun f a b => f.minMax true a b) o th
  | .fsgnC _ o, th => fpTwoSrc (fun f a b => (f.signInject 0 a b, 0)) o th
  | .fsgnN _ o, th => fpTwoSrc (fun f a b => (f.signInject 1 a b, 0)) o th
  | .fsgnX _ o, th => fpTwoSrc (fun f a b => (f.signInject 2 a b, 0)) o th
  | .feq _ o, th => fpCompare FFmt.eq o th
  | .flt _ o, th => fpCompare (fun f a b => f.less false a b) o th
  | .fle _ o, th => fpCompare (fun f a b => f.less true a b) o th
  | .fclass _ o, th => fpX o.rd ((fmtD o.d).cls (fsource o.d (th.rf o.ra))) 0
  | .ftoiS64 _ o, th => fpInteger (-2 ^ 63) (2 ^ 63 - 1) o th
  | .ftoiU64 _ o, th => fpInteger 0 (2 ^ 64 - 1) o th
  | .ftoiS32 _ o, th => fpInteger (-2 ^ 31) (2 ^ 31 - 1) o th
  | .ftoiU32 _ o, th =>
    let v := toInteger (roundRule o.rm th.rm) 0 (2 ^ 32 - 1) ((fmtD o.d).decode (fsource o.d (th.rf o.ra)))
    fpX o.rd (toSigned 32 v.1.toNat) v.2
  | .itofS64 _ o, th => fpFrom (toSigned 64 (th.rx o.ra).toNat) o th
  | .itofU64 _ o, th => fpFrom (th.rx o.ra).toNat o th
  | .itofS32 _ o, th => fpFrom (toSigned 32 (th.rx o.ra).toNat) o th
  | .itofU32 _ o, th => fpFrom ((th.rx o.ra).toNat % 2 ^ 32 : Nat) o th
  | .fnarrow _ o, th =>
    fpF false o.rd (binary32.pack (roundRule o.rm th.rm) (binary64.decode (th.rf o.ra).toNat))
  | .fwiden _ o, th =>
    fpF true o.rd (binary64.pack (roundRule o.rm th.rm) (binary32.decode (fsource false (th.rf o.ra))))
  | .movfx _ o, th => some { x := some (o.rd, th.rf o.ra) }
  | .movxf _ o, th => some { f := some (o.rd, th.rx o.ra) }
  | .fmadd _ o, th => fpFma false false o th
  | .fmsub _ o, th => fpFma false true o th
  | .fnmadd _ o, th => fpFma true true o th
  | .fnmsub _ o, th => fpFma true false o th
  | _, _ => none

/-- The rational that a finite value stands for: (-1)^neg * m * 2^e. -/
def FVal.rat : FVal → Option Rat
  | .fin n m e =>
    let v : Rat := if 0 ≤ e then (m * 2 ^ e.toNat : Nat) else mkRat m (2 ^ (-e).toNat)
    some (if n then -v else v)
  | _ => none

/-! ## Lane words (Tables 4-6 and 4-7, R89, R90, R95) -/

/-- A lane of w bits as a signed number. -/
def laneS (w v : Nat) : Int := toSigned w v
/-- A number as a lane of w bits. -/
def laneWrap (w : Nat) (r : Int) : Nat := (r % (2 ^ w : Int)).toNat

/-- A masked lane-wise word: width bit, mask register, destination, and what lane k becomes with its flags. -/
structure LaneEffect where
  d : Bool
  m : BitVec 3
  vd : BitVec 5
  g : Nat → Nat × Flags

def lane (d : Bool) (m : BitVec 3) (vd : BitVec 5) (g : Nat → Nat × Flags) : Option LaneEffect := some { d, m, vd, g }

def lanesOf (d : Bool) : Nat := if d then 16 else 32
def laneBits (d : Bool) : Nat := if d then 64 else 32
/-- Lane k of a vector register, as a number. -/
def laneV (d : Bool) (v : V1024) (k : Nat) : Nat := v.toNat / 2 ^ (laneBits d * k) % 2 ^ laneBits d

def laneInt (f : Nat → Int → Int → Int) (o : ViOp) (th : Thread) : Option LaneEffect :=
  lane o.d o.m o.vd fun k =>
    (laneWrap (laneBits o.d) (f (laneBits o.d) (laneS (laneBits o.d) (laneV o.d (th.rv o.va) k))
      (laneS (laneBits o.d) (laneV o.d (th.rv o.vb) k))), 0)
def laneNat (f : Nat → Nat → Nat → Nat) (o : ViOp) (th : Thread) : Option LaneEffect :=
  lane o.d o.m o.vd fun k =>
    (f (laneBits o.d) (laneV o.d (th.rv o.va) k) (laneV o.d (th.rv o.vb) k), 0)
def laneFp (f : FFmt → Rnd → Nat → Nat → Nat × Flags) (o : VfOp) (th : Thread) : Option LaneEffect :=
  lane o.d o.m o.vd fun k =>
    f (fmtD o.d) (roundRule o.rm th.rm) (laneV o.d (th.rv o.va) k) (laneV o.d (th.rv o.vb) k)
def laneFpTwo (f : FFmt → Nat → Nat → Nat × Flags) (o : ViOp) (th : Thread) : Option LaneEffect :=
  lane o.d o.m o.vd fun k =>
    f (fmtD o.d) (laneV o.d (th.rv o.va) k) (laneV o.d (th.rv o.vb) k)
/-- The VFMA group always rounds in the mode of THR_FPCSR.rm. -/
def laneFma (negProd negAdd : Bool) (o : VfmaOp) (th : Thread) : Option LaneEffect :=
  lane o.d o.m o.vd fun k =>
    (fmtD o.d).fma negProd negAdd (roundRule 0 th.rm)
      (laneV o.d (th.rv o.va) k) (laneV o.d (th.rv o.vb) k) (laneV o.d (th.rv o.vc) k)

/-- What the masked lane-wise words make of each lane. -/
def laneRule : Instr → Thread → Option LaneEffect
  | .vadd _ o, th => laneInt (fun _ a b => a + b) o th
  | .vsub _ o, th => laneInt (fun _ a b => a - b) o th
  | .vmul _ o, th => laneInt (fun _ a b => a * b) o th
  | .vmin _ o, th => laneInt (fun _ a b => min a b) o th
  | .vmax _ o, th => laneInt (fun _ a b => max a b) o th
  | .vsra _ o, th => laneInt (fun w a b => a / 2 ^ (b % (w : Int)).toNat) o th
  | .vsll _ o, th => laneNat (fun w a b => a * 2 ^ (b % w) % 2 ^ w) o th
  | .vsrl _ o, th => laneNat (fun w a b => a / 2 ^ (b % w)) o th
  | .vand _ o, th => laneNat (fun _ a b => a &&& b) o th
  | .vor _ o, th => laneNat (fun _ a b => a ||| b) o th
  | .vxor _ o, th => laneNat (fun _ a b => a ^^^ b) o th
  | .vminu _ o, th => laneNat (fun _ a b => min a b) o th
  | .vmaxu _ o, th => laneNat (fun _ a b => max a b) o th
  | .vsplat _ o, th => lane o.d o.m o.vd fun _ => ((th.rx o.xa).toNat, 0)
  | .vperm _ o, th => lane o.d o.m o.vd fun k =>
      (laneV o.d (th.rv o.va) (laneV o.d (th.rv o.vb) k % lanesOf o.d), 0)
  | .vfadd _ o, th => laneFp FFmt.add o th
  | .vfsub _ o, th => laneFp FFmt.sub o th
  | .vfmul _ o, th => laneFp FFmt.mul o th
  | .vfdiv _ o, th => laneFp FFmt.div o th
  | .vfsqrt _ o, th => lane o.d o.m o.vd fun k =>
      (fmtD o.d).sqrt (roundRule o.rm th.rm) (laneV o.d (th.rv o.va) k)
  | .vfmin _ o, th => laneFpTwo (fun f a b => f.minMax false a b) o th
  | .vfmax _ o, th => laneFpTwo (fun f a b => f.minMax true a b) o th
  | .vfamax _ o, th => laneFpTwo (fun f a b => f.amax a b) o th
  | .vfsgnC _ o, th => laneFpTwo (fun f a b => (f.signInject 0 a b, 0)) o th
  | .vfsgnN _ o, th => laneFpTwo (fun f a b => (f.signInject 1 a b, 0)) o th
  | .vfsgnX _ o, th => laneFpTwo (fun f a b => (f.signInject 2 a b, 0)) o th
  | .vfclass _ o, th => lane o.d o.m o.vd fun k =>
      ((fmtD o.d).cls (laneV o.d (th.rv o.va) k), 0)
  | .vfmadd _ o, th => laneFma false false o th
  | .vfmsub _ o, th => laneFma false true o th
  | .vfnmadd _ o, th => laneFma true true o th
  | .vfnmsub _ o, th => laneFma true false o th
  | _, _ => none

/-- The flags that lanes 0 to n - 1 raise, of those that are active. -/
def laneFlags (mask : W32) (g : Nat → Nat × Flags) : Nat → Flags
  | 0 => 0
  | n + 1 => laneFlags mask g n ||| (if mask.getLsbD n then (g n).2 else 0)

/-- A masked compare: width bit, mask register, destination, and the relation of lane k with its flags. -/
structure CmpEffect where
  d : Bool
  m : BitVec 3
  md : BitVec 3
  g : Nat → Bool × Flags

def cmp (d : Bool) (m md : BitVec 3) (g : Nat → Bool × Flags) : Option CmpEffect := some { d, m, md, g }

/-- The compares of Tables 4-6 and 4-7. -/
def cmpRule : Instr → Thread → Option CmpEffect
  | .vcmpeq _ o, th => cmp o.d o.m o.md fun k =>
      (laneV o.d (th.rv o.va) k == laneV o.d (th.rv o.vb) k, 0)
  | .vcmplt _ o, th => cmp o.d o.m o.md fun k =>
      (decide (laneS (laneBits o.d) (laneV o.d (th.rv o.va) k) < laneS (laneBits o.d) (laneV o.d (th.rv o.vb) k)), 0)
  | .vcmpltu _ o, th => cmp o.d o.m o.md fun k =>
      (decide (laneV o.d (th.rv o.va) k < laneV o.d (th.rv o.vb) k), 0)
  | .vfcmpeq _ o, th => cmp o.d o.m o.md fun k =>
      (fmtD o.d).eq (laneV o.d (th.rv o.va) k) (laneV o.d (th.rv o.vb) k)
  | .vfcmplt _ o, th => cmp o.d o.m o.md fun k =>
      (fmtD o.d).less false (laneV o.d (th.rv o.va) k) (laneV o.d (th.rv o.vb) k)
  | .vfcmple _ o, th => cmp o.d o.m o.md fun k =>
      (fmtD o.d).less true (laneV o.d (th.rv o.va) k) (laneV o.d (th.rv o.vb) k)
  | _, _ => none

/-- CmpEffect's flags. -/
def cmpFlags (mask : W32) (g : Nat → Bool × Flags) : Nat → Flags
  | 0 => 0
  | n + 1 => cmpFlags mask g n ||| (if mask.getLsbD n then (g n).2 else 0)

/-! ## Vector words that are not lane-wise -/

/-- Sum of 2^(8k) * b k for k below n: bytes into a register. -/
def bytesSum (b : Nat → Nat) : Nat → Nat
  | 0 => 0
  | n + 1 => bytesSum b n + b n % 256 * 2 ^ (8 * n)

/-- Byte k of a vector register. -/
def byteV (v : V1024) (k : Nat) : Nat := v.toNat / 2 ^ (8 * k) % 256

/-- The fields of VMX's rb (R100): scale code, block lane, segment. -/
def vmxS (x : W64) : Nat := x.toNat % 256
def vmxB (x : W64) : Nat := x.toNat / 2 ^ 8 % 32
def vmxG (x : W64) : Nat := x.toNat / 2 ^ 13 % 8
/-- Segments of an element format of Table 4-3 in a vector register: 4 of 32 bytes, or 8 of 16 bytes for E2M1. -/
def segsOf (efmt : BitVec 3) : Nat := if efmt.toNat = 4 then 8 else 4

/-! ## Conversions (R96 to R103) -/

/-- The generator of stochastic rounding after n draws (R99). -/
def drawn (sr : W64) : Nat → W64
  | 0 => sr
  | n + 1 => srNext (drawn sr n)

/-- What lane k of a conversion gives: in the direction of rnd, or by the lane's own draw under SR (R97 to R99, R430). -/
def cvtLane (d : CvtDst) (rnd : BitVec 3) (sat : Bool) (th : Thread) (x : Nat → FVal) (k : Nat) : Cvt :=
  d.convert (if rnd.toNat = 6 then .stochastic ((drawn th.srState (k + 1)).toNat / 2 ^ 48) else roundRule rnd th.rm) sat (x k)

/-- Flags, saturated lanes and a lost NaN of lanes 0 to n - 1. -/
def cvtFlags (c : Nat → Cvt) : Nat → Flags
  | 0 => 0
  | n + 1 => cvtFlags c n ||| (c n).flags
def cvtSats (c : Nat → Cvt) (n : Nat) : Nat := ((List.range n).filter fun k => (c k).sat).length
def cvtLost (c : Nat → Cvt) (n : Nat) : Bool := (List.range n).any fun k => (c k).nanLost

/-- The thread's record of a conversion of n lanes: sticky flags, VEC_STATUS, and n draws under SR (R95, R97 to R99). -/
def Thread.converted (th : Thread) (rnd : BitVec 3) (n : Nat) (c : Nat → Cvt) : Thread :=
  { th with
    flags := th.flags ||| cvtFlags c n
    srState := if rnd.toNat = 6 then drawn th.srState n else th.srState
    satLanes := th.satLanes + BitVec.ofNat 32 (cvtSats c n)
    nanLost := th.nanLost || cvtLost c n }

/-- Element k, of w bits, from byte o of a vector register (R83). -/
def elemAt (v : V1024) (o w k : Nat) : Nat := v.toNat / 2 ^ (8 * o + w * k) % 2 ^ w

/-- Every byte of a vector register outside n bytes from byte o is that of another. -/
def sameOutside (v u : V1024) (o n : Nat) : Prop := ∀ b, b < 128 → (b < o ∨ o + n ≤ b) → byteV v b = byteV u b

/-- Bytes of a segment of an MX element format (Table 4-3). -/
def segBytes (efmt : BitVec 3) : Nat := if efmt.toNat = 4 then 16 else 32
def mxElemBits (efmt : BitVec 3) : Nat := if efmt.toNat = 4 then 4 else 8

/-- The magnitudes that a VMX records: those of the lanes that are no NaN (R102). -/
def magnitudes (v : V1024) : List Nat :=
  (((List.range 32).map (laneV false v)).filter fun x => !(binary32.decode x).isNan).map (· % 2 ^ 31)

/-- The scale code of R103 of a lane that holds m, and whether it was clamped; none for a negative lane or a NaN, for which
the rule states no code (log entry 27). -/
def scaleRule (efmt : BitVec 3) (h m : Nat) : Option (Nat × Bool) :=
  let e : Int := ((m / 2 ^ 23 : Nat) : Int) - 127 - mxEmax efmt.toNat + h + 127
  if m % 2 ^ 31 < 2 ^ 23 ∧ m ≠ 2 ^ 31 then some (127, false)
  else if m % 2 ^ 31 = 0x7F800000 then some (254, true)
  else if 0x7F800000 < m then none
  else if e < 0 then some (0, true) else if 254 < e then some (254, true) else some (e.toNat, false)

/-- Mask words and moves of Table 4-10 and VEXT, VINS, VPERMB, VSEL of Table 4-6: the thread after the write. -/
def moveRule : Instr → Thread → Option Thread
  | .vmand _ o, th => some (th.wm o.md (th.rm' o.ma &&& th.rm' o.mb))
  | .vmor _ o, th => some (th.wm o.md (th.rm' o.ma ||| th.rm' o.mb))
  | .vmxor _ o, th => some (th.wm o.md (th.rm' o.ma ^^^ th.rm' o.mb))
  | .vmandn _ o, th => some (th.wm o.md (th.rm' o.ma &&& ~~~ th.rm' o.mb))
  | .vmpopc _ o, th => some (th.wx o.xd
      (BitVec.ofNat 64 ((List.range 32).map fun k => (th.rm' o.ma).toNat / 2 ^ k % 2).sum))
  | .vmfirst _ o, th => some (th.wx o.xd (BitVec.ofNat 64
      ((List.range 32).takeWhile fun k => (th.rm' o.ma).toNat / 2 ^ k % 2 == 0).length))
  | .vmfx _ o, th => some (th.wm o.md (BitVec.ofNat 32 ((th.rx o.xa).toNat % 2 ^ 32)))
  | .vmtx _ o, th => some (th.wx o.xd (BitVec.ofNat 64 (th.rm' o.ma).toNat))
  | .vmxr _ o, th => some (th.wv o.vd (th.rmx o.mx))
  | .vmxw _ o, th => some (th.wmx o.mx (th.rv o.va))
  | .vext _ o, th => some (th.wx o.xd (BitVec.ofInt 64
      (toSigned (laneBits o.d) (laneV o.d (th.rv o.va) ((th.rx o.xb).toNat % lanesOf o.d)))))
  | .vpermb _ o, th => some (th.wv o.vd (BitVec.ofNat 1024
      (bytesSum (fun k => byteV (th.rv o.va) (byteV (th.rv o.vb) k % 128)) 128)))
  | _, _ => none

/-- The values of the active lanes of a vector register, lowest first. -/
def activeV (d : Bool) (mask : W32) (v : V1024) : List Nat :=
  ((List.range (lanesOf d)).filter fun k => mask.getLsbD k).map (laneV d v)

/-- A pairwise operation taken along a list, flags joined. -/
def chain (op : Nat → Nat → Nat × Flags) : Nat → List Nat → Nat × Flags
  | acc, [] => (acc, 0)
  | acc, x :: r => ((chain op (op acc x).1 r).1, (op acc x).2 ||| (chain op (op acc x).1 r).2)

/-- A reduction under R88 with at least one active lane starts at the canonical NaN, which R88 makes give way to any
number; with none, the table states the result. -/
def reduceRule (none : Nat) (nan : Nat) (op : Nat → Nat → Nat × Flags) (l : List Nat) : Nat × Flags :=
  if l = [] then (none, 0) else chain op nan l

/-- One level of VFRSUM's tree: lane 2i and lane 2i + 1 become lane i of the next level (R94). -/
def sumPairs (f : FFmt) (r : Rnd) : List Nat → List (Nat × Flags)
  | a :: b :: l => f.add r a b :: sumPairs f r l
  | _ => []

/-- The root of VFRSUM's tree over n levels, and the flags of every addition. -/
def treeSum (f : FFmt) (r : Rnd) : Nat → List Nat → Nat × Flags
  | 0, l => (l.headD 0, 0)
  | n + 1, l =>
    let next := sumPairs f r l
    let top := treeSum f r n (next.map (·.1))
    (top.1, (next.map (·.2)).foldl (· ||| ·) 0 ||| top.2)

/-- Width bit, destination, lane 0 and flags of the reductions of Table 4-7; the other lanes are +0. -/
def reductionRule : Instr → Thread → Option (Bool × BitVec 5 × (Nat × Flags))
  | .vfrmax _ o, th => some (o.d, o.vd, reduceRule (fmtD o.d).nan (fmtD o.d).nan
      ((fmtD o.d).minMax true) (activeV o.d (th.rm' o.m) (th.rv o.va)))
  | .vfrmin _ o, th => some (o.d, o.vd, reduceRule (fmtD o.d).nan (fmtD o.d).nan
      ((fmtD o.d).minMax false) (activeV o.d (th.rm' o.m) (th.rv o.va)))
  | .vframax _ o, th => some (o.d, o.vd, reduceRule 0 (fmtD o.d).nan
      (fmtD o.d).amax (activeV o.d (th.rm' o.m) (th.rv o.va)))
  | .vfrsum _ o, th => some (o.d, o.vd, treeSum (fmtD o.d) (roundRule o.rm th.rm) (if o.d then 4 else 5)
      ((List.range (lanesOf o.d)).map fun k =>
        if (th.rm' o.m).getLsbD k then laneV o.d (th.rv o.va) k else 2 ^ (laneBits o.d - 1)))
  | _, _ => none

/-! ## Destinations (R59, R89) -/

/-- The registers that a register word writes (Tables 3-6, 3-7, 3-9, 3-10, 4-6, 4-7, 4-10 and the FMA, VFMA, VCVT and
VMX words); none for the words that are no register word. -/
def destsOf : Instr → Option (List RegRef)
  | .add _ o => some [.x o.rd]
  | .sub _ o => some [.x o.rd]
  | .andR _ o => some [.x o.rd]
  | .orR _ o => some [.x o.rd]
  | .xorR _ o => some [.x o.rd]
  | .andn _ o => some [.x o.rd]
  | .sll _ o => some [.x o.rd]
  | .srl _ o => some [.x o.rd]
  | .sra _ o => some [.x o.rd]
  | .ror _ o => some [.x o.rd]
  | .lts _ o => some [.x o.rd]
  | .ltu _ o => some [.x o.rd]
  | .minS _ o => some [.x o.rd]
  | .maxS _ o => some [.x o.rd]
  | .minu _ o => some [.x o.rd]
  | .maxu _ o => some [.x o.rd]
  | .clz _ o => some [.x o.rd]
  | .ctz _ o => some [.x o.rd]
  | .popc _ o => some [.x o.rd]
  | .mul _ o => some [.x o.rd]
  | .mulhiS _ o => some [.x o.rd]
  | .mulhiU _ o => some [.x o.rd]
  | .mulhiSu _ o => some [.x o.rd]
  | .div _ o => some [.x o.rd]
  | .divu _ o => some [.x o.rd]
  | .rem _ o => some [.x o.rd]
  | .remu _ o => some [.x o.rd]
  | .addi _ o => some [.x o.rd]
  | .andi _ o => some [.x o.rd]
  | .ori _ o => some [.x o.rd]
  | .xori _ o => some [.x o.rd]
  | .ltsi _ o => some [.x o.rd]
  | .ltui _ o => some [.x o.rd]
  | .slli _ o => some [.x o.rd]
  | .srli _ o => some [.x o.rd]
  | .srai _ o => some [.x o.rd]
  | .rori _ o => some [.x o.rd]
  | .liu _ o => some [.x o.rd]
  | .beq _ _ => some []
  | .bne _ _ => some []
  | .blt _ _ => some []
  | .bge _ _ => some []
  | .bltu _ _ => some []
  | .bgeu _ _ => some []
  | .jmp _ _ => some []
  | .jal _ _ => some [.x 31]
  | .jlr _ o => some [.x o.rd]
  | .fadd _ o => some [.f o.rd]
  | .fsub _ o => some [.f o.rd]
  | .fmul _ o => some [.f o.rd]
  | .fdiv _ o => some [.f o.rd]
  | .fsqrt _ o => some [.f o.rd]
  | .fmin _ o => some [.f o.rd]
  | .fmax _ o => some [.f o.rd]
  | .fsgnC _ o => some [.f o.rd]
  | .fsgnN _ o => some [.f o.rd]
  | .fsgnX _ o => some [.f o.rd]
  | .feq _ o => some [.x o.rd]
  | .flt _ o => some [.x o.rd]
  | .fle _ o => some [.x o.rd]
  | .fclass _ o => some [.x o.rd]
  | .ftoiS64 _ o => some [.x o.rd]
  | .ftoiU64 _ o => some [.x o.rd]
  | .ftoiS32 _ o => some [.x o.rd]
  | .ftoiU32 _ o => some [.x o.rd]
  | .itofS64 _ o => some [.f o.rd]
  | .itofU64 _ o => some [.f o.rd]
  | .itofS32 _ o => some [.f o.rd]
  | .itofU32 _ o => some [.f o.rd]
  | .fnarrow _ o => some [.f o.rd]
  | .fwiden _ o => some [.f o.rd]
  | .movfx _ o => some [.x o.rd]
  | .movxf _ o => some [.f o.rd]
  | .fmadd _ o => some [.f o.rd]
  | .fmsub _ o => some [.f o.rd]
  | .fnmadd _ o => some [.f o.rd]
  | .fnmsub _ o => some [.f o.rd]
  | .loopI _ _ => some []
  | .rdtime _ o => some [.x o.rd]
  | .settc _ _ => some []
  | .waitt _ _ => some []
  | .vadd _ o => some [.v o.vd]
  | .vsub _ o => some [.v o.vd]
  | .vand _ o => some [.v o.vd]
  | .vor _ o => some [.v o.vd]
  | .vxor _ o => some [.v o.vd]
  | .vsll _ o => some [.v o.vd]
  | .vsrl _ o => some [.v o.vd]
  | .vsra _ o => some [.v o.vd]
  | .vmin _ o => some [.v o.vd]
  | .vmax _ o => some [.v o.vd]
  | .vminu _ o => some [.v o.vd]
  | .vmaxu _ o => some [.v o.vd]
  | .vmul _ o => some [.v o.vd]
  | .vcmpeq _ o => some [.m o.md]
  | .vcmplt _ o => some [.m o.md]
  | .vcmpltu _ o => some [.m o.md]
  | .vsplat _ o => some [.v o.vd]
  | .vext _ o => some [.x o.xd]
  | .vins _ o => some [.v o.vd]
  | .vperm _ o => some [.v o.vd]
  | .vpermb _ o => some [.v o.vd]
  | .vsel _ o => some [.v o.vd]
  | .vfadd _ o => some [.v o.vd]
  | .vfsub _ o => some [.v o.vd]
  | .vfmul _ o => some [.v o.vd]
  | .vfdiv _ o => some [.v o.vd]
  | .vfsqrt _ o => some [.v o.vd]
  | .vfmin _ o => some [.v o.vd]
  | .vfmax _ o => some [.v o.vd]
  | .vfamax _ o => some [.v o.vd]
  | .vfsgnC _ o => some [.v o.vd]
  | .vfsgnN _ o => some [.v o.vd]
  | .vfsgnX _ o => some [.v o.vd]
  | .vfcmpeq _ o => some [.m o.md]
  | .vfcmplt _ o => some [.m o.md]
  | .vfcmple _ o => some [.m o.md]
  | .vfclass _ o => some [.v o.vd]
  | .vfrmax _ o => some [.v o.vd]
  | .vfrmin _ o => some [.v o.vd]
  | .vframax _ o => some [.v o.vd]
  | .vfrsum _ o => some [.v o.vd]
  | .vfmadd _ o => some [.v o.vd]
  | .vfmsub _ o => some [.v o.vd]
  | .vfnmadd _ o => some [.v o.vd]
  | .vfnmsub _ o => some [.v o.vd]
  | .vcvt _ o => some [.v o.vd]
  | .vmxDown _ o => some [.v o.vd, .mx o.mxs]
  | .vmxUp _ o => some [.v o.vd]
  | .vmand _ o => some [.m o.md]
  | .vmor _ o => some [.m o.md]
  | .vmxor _ o => some [.m o.md]
  | .vmandn _ o => some [.m o.md]
  | .vmpopc _ o => some [.x o.xd]
  | .vmfirst _ o => some [.x o.xd]
  | .vmfx _ o => some [.m o.md]
  | .vmtx _ o => some [.x o.xd]
  | .vmxr _ o => some [.v o.vd]
  | .vmxw _ o => some [.mx o.mx]
  | .vmxs _ o => some [.v o.vd, .mx o.mx]
  | .vcrc64 _ o => some [.x o.xd]
  | _ => none

/-! ## Loads and stores (R71, R93, R132, R147) -/

/-- ra + imm16, modulo 2^64. -/
def addrOf (th : Thread) (o : ImmOp) : Nat := ((sgnOf false (th.rx o.ra) + simm o.imm) % 2 ^ 64).toNat

/-- The number that n bytes of a scratchpad spell, from the byte of a local address up. -/
def padNumber (c : Core) (a n : Nat) : Nat := bytesSum (fun k => (Mem.read c.pad (a - padBase + k)).toNat) n

/-- n bytes from a local address up lie in the scratchpad, in one region, with no uncorrectable word. -/
def PadGood (c : Core) (a n : Nat) : Prop :=
  padBase ≤ a ∧ a + n ≤ 2 ^ 40 ∧ ∀ k, k < n → (a - padBase + k) / 8 ∉ c.padBad

/-- Size, operands, and the write of the scalar loads of Table 3-8: the .U forms zero-extend, the others sign-extend. -/
def loadRule : Instr → Option (Nat × ImmOp × (Nat → Thread → Thread))
  | .ldB _ o => some (1, o, fun v th => th.wx o.rd (BitVec.ofInt 64 (toSigned 8 v)))
  | .ldBu _ o => some (1, o, fun v th => th.wx o.rd (BitVec.ofNat 64 v))
  | .ldH _ o => some (2, o, fun v th => th.wx o.rd (BitVec.ofInt 64 (toSigned 16 v)))
  | .ldHu _ o => some (2, o, fun v th => th.wx o.rd (BitVec.ofNat 64 v))
  | .ldW _ o => some (4, o, fun v th => th.wx o.rd (BitVec.ofInt 64 (toSigned 32 v)))
  | .ldWu _ o => some (4, o, fun v th => th.wx o.rd (BitVec.ofNat 64 v))
  | .ldD _ o => some (8, o, fun v th => th.wx o.rd (BitVec.ofNat 64 v))
  | .fldS _ o => some (4, o, fun v th => th.wf o.rd (BitVec.ofNat 64 v))
  | .fldD _ o => some (8, o, fun v th => th.wf o.rd (BitVec.ofNat 64 v))
  | _ => none

/-- Size, operands and source of the scalar stores of Table 3-8: the low bytes of rs. -/
def storeRule : Instr → Option (Nat × ImmOp × (Thread → W64))
  | .stB _ o => some (1, o, fun th => th.rx o.rd)
  | .stH _ o => some (2, o, fun th => th.rx o.rd)
  | .stW _ o => some (4, o, fun th => th.rx o.rd)
  | .stD _ o => some (8, o, fun th => th.rx o.rd)
  | .fstS _ o => some (4, o, fun th => th.rf o.rd)
  | .fstD _ o => some (8, o, fun th => th.rf o.rd)
  | _ => none

/-- A vector access: element size, vector register, mask register, the address of lane k, and what must be a multiple
of which unit for it (Table 4-5, R93). -/
structure VecAccess where
  w : Nat
  v : BitVec 5
  m : BitVec 3
  addr : Nat → Nat
  unit : Nat
  tested : Nat → Nat

/-- xa + sign-extended imm4 x 128, modulo 2^64. -/
def vbase (th : Thread) (ra : BitVec 5) (imm : BitVec 4) : Nat :=
  ((sgnOf false (th.rx ra) + 128 * toSigned 4 imm.toNat) % 2 ^ 64).toNat

def unitStride (th : Thread) (o : VmOp) : VecAccess :=
  { w := 4, v := o.vd, m := o.m, addr := fun k => (vbase th o.ra o.imm + 4 * k) % 2 ^ 64, unit := 128
    tested := fun _ => vbase th o.ra o.imm }
def strided (w : Nat) (th : Thread) (o : VmStr) : VecAccess :=
  let at' := fun k => (vbase th o.ra o.imm + k * (th.rx o.rb).toNat) % 2 ^ 64
  { w := w, v := o.vd, m := o.m, addr := at', unit := w, tested := at' }
def broadcast (w : Nat) (th : Thread) (o : VmOp) : VecAccess :=
  { w := w, v := o.vd, m := o.m, addr := fun _ => vbase th o.ra o.imm, unit := w
    tested := fun _ => vbase th o.ra o.imm }

/-- The vector loads of Table 4-5. -/
def vloadRule : Instr → Thread → Option VecAccess
  | .vld _ o, th => some (unitStride th o)
  | .vldsW _ o, th => some (strided 4 th o)
  | .vldsD _ o, th => some (strided 8 th o)
  | .vbcW _ o, th => some (broadcast 4 th o)
  | .vbcD _ o, th => some (broadcast 8 th o)
  | _, _ => none

/-- The vector stores of Table 4-5. -/
def vstoreRule : Instr → Thread → Option VecAccess
  | .vst _ o, th => some (unitStride th o)
  | .vstsW _ o, th => some (strided 4 th o)
  | .vstsD _ o, th => some (strided 8 th o)
  | _, _ => none

/-- Element k, of w bytes, of a vector register. -/
def elemV (w : Nat) (v : V1024) (k : Nat) : Nat := v.toNat / 2 ^ (8 * w * k) % 2 ^ (8 * w)

/-- Lane k of a vector access is active. -/
def VecAccess.active (e : VecAccess) (th : Thread) (k : Nat) : Bool :=
  decide (k < 128 / e.w) && (th.rm' e.m).getLsbD k

/-- The highest active lane whose element holds the byte of a local address. -/
def VecAccess.lastLane (e : VecAccess) (th : Thread) (x : Nat) : Option Nat :=
  ((List.range (128 / e.w)).filter fun k => e.active th k && decide (e.addr k ≤ x ∧ x < e.addr k + e.w)).getLast?

/-- A word that only loads: it stores nothing. -/
def loads : Instr → Bool
  | .ldB _ _ | .ldBu _ _ | .ldH _ _ | .ldHu _ _ | .ldW _ _ | .ldWu _ _ | .ldD _ _ | .fldS _ _ | .fldD _ _ => true
  | .vld _ _ | .vbcW _ _ | .vbcD _ _ => true
  | .vldsW _ _ | .vldsD _ _ => true
  | .ldvD _ _ | .ldvW _ _ | .ldvL _ _ => true
  | .tprobe _ _ => true
  | .winv _ _ => true
  | .ldk _ _ => true
  | .fence _ => true
  | _ => false

/-- The kind of the region that holds a local address of the scratchpad (Table 6-2): 0 plain, 1 tagged, 2 queue. -/
def regionKind (c : Core) (a : Nat) : Nat := c.kindAt (a - padBase)

/-! ## Tagged accesses (R136, R137) -/

/-- Operands of the four tagged accesses, and what becomes of the tags: none as they were, else all full or all empty. -/
def tagRule : Instr → Option (TagOp × Bool × Option Bool)
  | .lde _ o => some (o, true, some false)
  | .ldk _ o => some (o, true, none)
  | .stf _ o => some (o, false, some true)
  | .stp _ o => some (o, false, none)
  | _ => none

/-- Kind code of the arbiter: 0 consuming, 1 waiting read, 2 filling store, 3 partial store. -/
def tagKind (load : Bool) (set : Option Bool) : Nat :=
  match load, set with
  | true, some _ => 0
  | true, none => 1
  | false, some _ => 2
  | false, none => 3

/-- 8 bytes, or 128 in the V form (Table 6-3). -/
def tagBytesOf (o : TagOp) : Nat := if o.sz.toNat = 2 then 128 else 8
/-- ra + sign-extended off10 x 8, modulo 2^64. -/
def tagAddrOf (th : Thread) (o : TagOp) : Nat :=
  ((sgnOf false (th.rx o.ra) + 8 * toSigned 10 o.off.toNat) % 2 ^ 64).toNat
/-- The register of a tagged load written with the number that was read. -/
def tagWrite (o : TagOp) (v : Nat) (th : Thread) : Thread :=
  match o.sz.toNat with
  | 0 => th.wx o.r (BitVec.ofNat 64 v)
  | 1 => th.wf o.r (BitVec.ofNat 64 v)
  | _ => th.wv o.r (BitVec.ofNat 1024 v)
/-- The register of a tagged store as a number. -/
def tagSource (o : TagOp) (th : Thread) : Nat :=
  match o.sz.toNat with
  | 0 => (th.rx o.r).toNat
  | 1 => (th.rf o.r).toNat
  | _ => (th.rv o.r).toNat
/-- The tags of an access's slots let it go ahead: reads want them full, stores empty (R136). -/
def tagReady (c : Core) (w : Waiter) : Prop := ∀ k ∈ w.slots, c.isFull k = decide (w.kind < 2)
/-- Of two accesses that could go ahead: class A before the others, then the one that has waited longer (R138). -/
def goesFirst (v w : Waiter) : Prop :=
  (v.classA = true ∧ w.classA = false) ∨ (v.classA = w.classA ∧ v.order < w.order)
/-- The arbiter serves an access now: its tags let it go ahead, and no waiting access that they also let go ahead, and
that goes first, shares a slot with it (R138). -/
def TagServed (c : Core) (now : Nat) (w : Waiter) : Prop :=
  tagReady c w ∧ ∀ v ∈ c.waiters now, v.order ≠ w.order → tagReady c v → (∃ k ∈ v.slots, k ∈ w.slots) → ¬ goesFirst v w
/-- A thread's THR_TCMP bounds none of its waits at a chip time: it is disarmed, or still to come (R56). -/
def inTime (th : Thread) (now : Nat) : Prop := th.tcmp = BitVec.allOnes 64 ∨ now < th.tcmp.toNat
/-- The slots of n bytes from a local address. -/
def slotsOf (a n : Nat) : List Nat := (List.range ((n + 63) / 64)).map (· + (a - padBase) / 64)

/-! ## Matrix registers (R107, R108, R118, R128) -/

/-- Thread t may read the rows listed of a matrix register: it owns it, the rows are valid with good parity, and neither
a row fault nor poison is pending. -/
structure MatGood (c : Core) (t : BitVec 2) (code : BitVec 4) (rows : List Nat) : Prop where
  owned : c.owns t code = true
  parity : ∀ r ∈ rows, (c.mreg code).badRow code r = false
  faultless : (c.mreg code).rowFault = none
  sound : (c.mreg code).poisoned = false
  valid : ∀ r ∈ rows, (c.mreg code).valid.getLsbD r = true

/-- Row r of a matrix register, as bytes. -/
def matRow (c : Core) (code : BitVec 4) (r : Nat) : List Byte := (c.mreg code).row code r
/-- Value n of row r of an accumulator, as a 32-bit code. -/
def accAt (c : Core) (code : BitVec 4) (r n : Nat) : Nat := field (matRow c code r) (4 * n) 4

/-- Destination of the scalar loads. -/
def destsLoad : Instr → List RegRef
  | .ldB _ o | .ldBu _ o | .ldH _ o | .ldHu _ o | .ldW _ o | .ldWu _ o | .ldD _ o => [.x o.rd]
  | .fldS _ o | .fldD _ o => [.f o.rd]
  | _ => []

/-- An atomic of Table 6-6. -/
def isAtomic : Instr → Bool
  | .amoAdd _ _ | .amoAnd _ _ | .amoOr _ _ | .amoXor _ _ | .amoMin _ _ | .amoMax _ _ | .amoMinu _ _ | .amoMaxu _ _
  | .amoSwap _ _ | .amoCas _ _ => true
  | _ => false

/-- Size, address register and awaiting register of the home accesses of Table 6-6; x0 awaits nothing. -/
def homeRule : Instr → Option (Nat × BitVec 5 × Option RegRef)
  | .ldvD _ o => some (8, o.ra, if o.rd = 0 then none else some (.x o.rd))
  | .ldvW _ o => some (4, o.ra, if o.rd = 0 then none else some (.x o.rd))
  | .ldvL _ o => some (64, o.ra, some (.v o.rd))
  | .amoAdd _ o | .amoAnd _ o | .amoOr _ o | .amoXor _ o | .amoMin _ o | .amoMax _ o | .amoMinu _ o | .amoMaxu _ o
  | .amoSwap _ o | .amoCas _ o => some (8, o.ra, if o.rd = 0 then none else some (.x o.rd))
  | _ => none

/-! ## Tile operations -/

/-- A tile load or store of Tables 5-8 and 5-9: register, base and stride registers, row count, whether it stores,
whether it resumes, and the unit and least value of its stride (R115, R121). -/
structure TileAccess where
  code : BitVec 4
  ra : BitVec 5
  rb : BitVec 5
  nrow : Nat
  store : Bool
  resume : Bool
  unit : Nat
  low : Nat

def tileRule : Instr → Option TileAccess
  | .tld _ o => some { code := o.tgt, ra := o.ra, rb := o.rb, nrow := o.nrow1.toNat + 1, store := false
                       resume := o.resume, unit := 64, low := 0 }
  | .tst _ o => some { code := o.src, ra := o.ra, rb := o.rb, nrow := o.nrow1.toNat + 1, store := true
                       resume := false, unit := 64, low := 128 }
  | .tlds _ o => some { code := 12#4 + o.sc.zeroExtend 4, ra := o.ra, rb := o.rb, nrow := 32, store := false
                        resume := o.resume, unit := 8, low := 0 }
  | .tsts _ o => some { code := 12#4 + o.sc.zeroExtend 4, ra := o.ra, rb := o.rb, nrow := 32, store := true
                        resume := false, unit := 8, low := 8 }
  | _ => none

/-- Bytes of a row: 8 in a scale tile, else 128. -/
def rowBytes (code : BitVec 4) : Nat := if 12 ≤ code.toNat then 8 else 128

/-- Address of row r of a tile access: base + r x stride, modulo 2^64 (R115). -/
def TileAccess.row (e : TileAccess) (th : Thread) (r : Nat) : Nat :=
  ((th.rx e.ra).toNat + r * (th.rx e.rb).toNat) % 2 ^ 64

/-- Every byte of a row lies in stack memory, or in the scratchpad, for a store in a plain region (R71, R115, R154). -/
def rowReached (c : Core) (store : Bool) (a n : Nat) : Prop :=
  a + n ≤ 0x5A00000000 ∨
    (padBase ≤ a ∧ a + n ≤ 2 ^ 40 ∧ (store = true → ∀ k, k < n → regionKind c (a + k) = 0))

/-- Base and stride pass the checks of R115 and R121. -/
def TileAccess.aligned (e : TileAccess) (th : Thread) : Prop :=
  (th.rx e.ra).toNat % e.unit = 0 ∧ (th.rx e.rb).toNat % e.unit = 0 ∧ (th.rx e.rb).toNat < 2 ^ 40 ∧
  e.low ≤ (th.rx e.rb).toNat

/-- Element k of a row of an INT8 operand, signed. -/
def int8At (c : Core) (code : BitVec 4) (r k : Nat) : Int := toSigned 8 ((matRow c code r).getD k 0).toNat

/-- Sum of g k for k below n. -/
def sumInt (g : Nat → Int) : Nat → Int
  | 0 => 0
  | n + 1 => sumInt g n + g n

/-- Register codes of tile n, accumulator n and scale tile n (Table 5-10). -/
def tileCode (n : BitVec 3) : BitVec 4 := BitVec.ofNat 4 n.toNat
def accCode (n : BitVec 2) : BitVec 4 := BitVec.ofNat 4 (8 + n.toNat)
def scaleCodeOf (n : BitVec 2) : BitVec 4 := BitVec.ofNat 4 (12 + n.toNat)

/-- Every row of a register. -/
def rows32 : List Nat := List.range 32

/-- What AMAX, AMIN, ASCR and ASUBR make of value n of row r, with its flags (Table 5-7). -/
def accRule : Instr → Core → Thread → Option (BitVec 2 × List (BitVec 4) × (Nat → Nat → Nat × Flags))
  | .amax _ o, c, _ => some (o.acd, [accCode o.acs], fun r n =>
      binary32.minMax true (accAt c (accCode o.acd) r n) (accAt c (accCode o.acs) r n))
  | .amin _ o, c, _ => some (o.acd, [accCode o.acs], fun r n =>
      binary32.minMax false (accAt c (accCode o.acd) r n) (accAt c (accCode o.acs) r n))
  | .ascr _ o, c, th => some (o.acd, [], fun r n =>
      binary32.mul .nearestEven (accAt c (accCode o.acd) r n) (laneV false (th.rv o.va) r))
  | .asubr _ o, c, th => some (o.acd, [], fun r n =>
      binary32.sub .nearestEven (accAt c (accCode o.acd) r n) (laneV false (th.rv o.va) r))
  | _, _, _ => none

/-! ## Events, bytes and neighbours of a command -/

/-- Count of an event register (R323), by register number and instance (R326). -/
def evCount (s : State) (crn unit : Nat) : BitVec 31 := (s.events.at (crn * 1024 + unit) {}).count

/-- Byte x of a line. -/
def byteL (d : Line) (x : Nat) : Byte := BitVec.ofNat 8 (d.toNat / 2 ^ (8 * x))

/-- What a command leaves of the machine but for its own unit: stack memory and every scratchpad. -/
def keepsMemory (s s' : State) : Prop := s'.mem = s.mem ∧ ∀ p, (s'.core p).pad = (s.core p).pad

/-- Stack memory takes n bytes at address a and no other. -/
def memPuts (s s' : State) (a n : Nat) (b : Nat → Byte) : Prop :=
  ∀ x, Mem.read s'.mem x = if a ≤ x ∧ x < a + n then b (x - a) else Mem.read s.mem x

/-- New value of a word under the atomics of Table 6-6, by code, on numbers below 2^64. -/
def amoNew (fn old x cmp : Nat) : Nat :=
  match fn with
  | 0x10 => (old + x) % 2 ^ 64
  | 0x11 => old &&& x
  | 0x12 => old ||| x
  | 0x13 => old ^^^ x
  | 0x14 => if toSigned 64 old ≤ toSigned 64 x then old else x
  | 0x15 => if toSigned 64 old ≤ toSigned 64 x then x else old
  | 0x16 => min old x
  | 0x17 => max old x
  | 0x18 => x
  | _ => if old = cmp then x else old

/-- After a deposit's flit f, taken in state s: the last one of its burst is acknowledged (R223, Table 9-4). -/
def deposited (s : State) (site : Nat) (f : Flit) (t : State) : State :=
  if f.last then t.injectAt site (f.answer f.dst s.epNow 0 (leBytes 2 f.txn.toNat ++ [0])) else t

/-! ## Ring inputs and links -/

/-- Key of a ring input's buffer: stop, lane, class and channel (R184, R189). -/
def inputKey (i : RingInput) : Nat :=
  ((i.stop * 16 + i.lane) * 3 + (match i.cls with
    | .a => 0
    | .b => 1
    | .c => 2)) * 2 + (if i.resp then 1 else 0)

/-- Flits that wait to leave on a virtual channel of a link, and flits received on it. -/
def txOf (s : State) (k v : Nat) : List LFlit := ((s.link k).sess.vc v).tx
def rxOf (s : State) (k v : Nat) : List LFlit := ((s.link k).sess.vc v).rx

/-- A TIME message of one type stands at the head of a link's buffer, well formed and admitted. -/
def TimeAt (s : State) (k : Nat) (m : TimeMsg) : Prop := s.timeHead k m.kind = .msg m ∧ k < 24

/-- The command of a link's control inbox that stands first: its frame type, its lane command and its lane. -/
def inboxFirst (s : State) (k ftype : Nat) (body : List Byte) (rest : List (List Byte)) : Prop :=
  (s.link k).inbox = (BitVec.ofNat 8 ftype :: body) :: rest

/-! ## Streams and messages -/

/-- A thread's stream command of one code that its engine serves now, on a cached descriptor (R231, R232). -/
structure StreamServed (s : State) (a : ThreadAt) (site code : Nat) (c : StrmCmd) (d : List Byte) : Prop where
  core : s.siteOf a.row.toNat a.col.toNat = some site
  blocked : (s.thr site a.t).block = .stream c
  code : c.code = code
  cached : s.cached c.id = some d
  turn : s.streamTurn c = true

/-- The engine has answered: status and response are set, and the thread runs on after its WRCR. -/
def streamDone (s s' : State) (a : ThreadAt) (site : Nat) (stat : Nat) (resp : Nat) : Prop :=
  (s'.thr site a.t).st = .run ∧ (s'.thr site a.t).block = .none ∧
  (s'.thr site a.t).strmStat.toNat = stat ∧ (s'.thr site a.t).strmResp.toNat = resp ∧
  (s'.thr site a.t).x = (s.thr site a.t).x ∧ (s'.thr site a.t).pc = (s.thr site a.t).retire.pc


/-! ## Management messages -/

/-- A management message of one group and op, which may be served, stands first on VC 7 of its partner's link. -/
structure MgmtAt (s : State) (k g op : Nat) (f : LFlit) (r : List LFlit) : Prop where
  head : s.mgmtHead k g op = some (f :: r)
  src : (s.link k).partnerNode = f.src

/-- The message has left VC 7, and one reply flit, of kind 0xB with its txn, waits to go back; more flits may follow. -/
def mgmtReplied (s s' : State) (k : Nat) (f : LFlit) (r : List LFlit) (p : List Byte → Prop) : Prop :=
  rxOf s' k 7 = (rxOf s k 7).drop (r.length + 1) ∧
  ∃ g more, txOf s' k 7 = txOf s k 7 ++ g :: more ∧ g.kind = 11 ∧ g.txn = f.txn ∧ g.dst = f.src ∧ p (lineBytes g.payload)

/-- The code of Table 15-15 that an install message is answered with; a refusal is counted and kept (R343). -/
def installed (s s' : State) (k op code : Nat) (f : LFlit) (r : List LFlit) : Prop :=
  mgmtReplied s s' k f r (fun b => field b 0 1 = 0x20 + op ∧ field b 1 1 = code % 256) ∧ keepsMemory s s' ∧
  s'.boot.plan = s.boot.plan ∧ s'.bankNow = s.bankNow ∧
  (code ≠ 0 → s'.boot.lastRefusal = BitVec.ofNat 5 code ∧ s'.boot.refusals = s.boot.refusals + 1 ∧
    s'.boot.next = s.boot.next ∧ s'.banks = s.banks) ∧
  (code = 0 → s'.boot.lastRefusal = s.boot.lastRefusal ∧ s'.boot.refusals = s.boot.refusals)

/-- A group 0x2 operation waits first at a link, or at the die's end of the warden channel: its header and what follows. -/
def UnitAsked (s : State) (src : MgmtSrc) (op : Nat) (h body : List Byte) : Prop :=
  match src with
  | .link k => ∃ f r, MgmtAt s k 2 op f r ∧ h = lineBytes f.payload ∧ body = mgmtBody (f :: r)
  | .warden => s.alive = true ∧ ∃ l n m rest, s.wdn.inbox = (2, l, n, m) :: rest ∧ bodyGroup m = 2 ∧ bodyOp m = op ∧
      h = m.take 64 ∧ body = m.drop 64

/-- It is answered where it came from by a UNIT_STATUS. -/
def unitReplied (s s' : State) (src : MgmtSrc) (op : Nat) (p : List Byte → Prop) : Prop :=
  match src with
  | .link k => ∀ f r, s.mgmtHead k 2 op = some (f :: r) → mgmtReplied s s' k f r p
  | .warden => ∃ status, p status ∧
      s'.wdn = WdnEnd.push { s.wdn with inbox := s.wdn.inbox.drop 1 } 2 0 0 status

/-- A UNIT_STATUS of an op with a code (Table 16-5). -/
def statusIs (op code : Nat) (b : List Byte) : Prop := field b 0 1 = 0x20 + op ∧ field b 1 1 = code

/-- A stream's engine takes up a message that has come now: no command of the stream came before it, and no other command
of the engine goes first (R302, R374). -/
def EngineFree (s : State) (id : Nat) : Prop :=
  (∀ k ∈ s.streamCmds, k.cmd.id ≠ id) ∧ s.engineTurn id s.strm.order = true

/-- A line of stack k is good, and its channel serves and has nothing to do. -/
def LineFree (s : State) (k line : Nat) : Prop :=
  let ch := (s.stack k).chan (s.chanNow k line)
  ch.st ≠ .failed ∧ ch.running = none ∧ ch.queue = [] ∧ line ∉ s.memBad

/-- An access that ends well. -/
def endsWell (a : Access) : Prop := a.result = .good ∨ a.result = .corrected

/-- A host message waits first on a link and names an open stream of its sender, in its engine's cache, whose engine
takes it up (R370, R374). -/
structure HostAsked (s : State) (k op : Nat) (f : LFlit) (d : List Byte) : Prop where
  head : s.hostHead k op = some [f]
  src : (s.link k).partnerNode = f.src
  form : hostForm (lineBytes f.payload) [] (op == 3 || op == 4) = true
  id : hostId (lineBytes f.payload) < 2 ^ 21
  cached : s.cached (hostId (lineBytes f.payload)) = some d
  used : Desc.st d ≠ 0
  gen : Desc.gen d = hostGen (lineBytes f.payload)
  owner : Desc.ownerNode d = f.src.toNat
  free : EngineFree s (hostId (lineBytes f.payload))

/-- HOST_STATUS: op, code and stream state (Table 17-3). -/
def hostIs (op code st : Nat) (b : List Byte) : Prop :=
  field b 0 1 = 0x10 + op ∧ field b 1 1 = code ∧ field b 3 1 = st

/-! ## The tray -/

/-- Nothing but the tray, and the count of values left free, is changed. -/
def keepsDie (s s' : State) : Prop := { s' with tray := s.tray, free := s.free } = s

/-- One entry is added to the log (R418). -/
def logged (s s' : State) (bay code : Nat) (detail : List Byte) : Prop :=
  s'.tray.nextLog = s.tray.nextLog + 1 ∧ ∃ e, s'.tray.log = (s.tray.log ++ [e]).drop (s.tray.log.length + 1 - 65536) ∧
    e.seq = s.tray.nextLog ∧ e.bay = bay ∧ e.code = code ∧ e.epoch = s.tray.sumEpoch ∧
    e.detail = (detail ++ List.replicate 15 0).take 15

/-- No entry is added. -/
def unlogged (s s' : State) : Prop := s'.tray.nextLog = s.tray.nextLog ∧ s'.tray.log = s.tray.log

/-- The module of a bay has no power, and what the warden knew of its running is gone. -/
def Bay.isDark (y : Bay) : Prop :=
  y.pwrEn = false ∧ y.resetN = false ∧ y.running = false ∧ y.hbOk = false ∧ y.wait = .none

/-- A warden operation waits at a source, its trailer and level good (R412, R413): its header and what follows. -/
def TrayAsked (s : State) (src : TraySrc) (op : Nat) (h body : List Byte) : Prop :=
  s.tray.active ≠ none ∧ trailerOk h body = true ∧ ∃ m t, s.trayHead src = some (m, t) ∧ 64 ≤ m.length ∧
    bodyGroup m = 3 ∧ bodyOp m = op ∧ h = m.take 64 ∧ body = m.drop 64 ∧
    match src with
    | .service _ => s.tray.svcMay op = true
    | .channel _ => True

/-- It is answered where it came from: WDN_STATUS, and DATA after it where there is any. -/
def trayReplied (s s' : State) (src : TraySrc) (op code session pages : Nat) (data : Option (List Byte × List Byte)) : Prop :=
  let st := withTrailer (wdnStatus op code session pages) []
  let more := match data with
    | some d => [withTrailer d.1 d.2 ++ d.2]
    | none => []
  match src with
  | .channel b => (s'.bay b).chanEnd =
      more.foldl (fun e m => e.push 2 0 0 m)
        (WdnEnd.push { (s.bay b).chanEnd with inbox := (s.bay b).chanEnd.inbox.drop 1 } 2 0 0 st)
  | .service _ => s'.tray.svc.out = s.tray.svc.out ++ (st :: more).map svcFrame

/-- A bay but for its end of the warden channel. -/
def bayBut (y : Bay) : Bay := { y with chanEnd := {} }

/-! ## Whole-machine rules -/

/-- Every byte memory keeps its canonical form: addresses strictly rising, no zero byte listed. -/
def Canonical (s : State) : Prop :=
  Mem.wf s.mem = true ∧ ∀ p, Mem.wf (s.core p).pad = true ∧ ∀ code, Mem.wf ((s.core p).mreg code).bytes = true

/-- A command that gives or takes power or reset. -/
def isPowerOrReset : Instr → Bool
  | .modResetNRelease _ => true
  | .modResetNAssert => true
  | .modPwrEnChange _ => true
  | .inputUndervoltage => true
  | _ => false

/-- A thread could issue in this slot: RUN, held neither by YIELD nor by the step count of its last word, and its word
faults at fetch or finds its sources, with every result latency past (R61, R67). -/
def Core.candidate (c : Core) (k : CoreAt) (t : BitVec 2) : Prop :=
  (c.thr t).st = .run ∧ (c.thr t).yielded = false ∧ (c.thr t).busyUntil ≤ c.steps ∧
  (c.badWord t = true ∨ c.head k.row k.col t = none ∨
    ∃ i, c.head k.row k.col t = some i ∧ c.readyFor ⟨k.row, k.col, t⟩ i = true ∧
      settledAt c.steps (c.thr t) c.lateMat c.engineAt i = true)

end Sys2Proof.Machine
end

