-- ==== Sys2Proof/Certificates/Slice0/Obligations.lean ====
section
/-! DEFINITION. The statements for the provers: the spec's rules about what each command does. -/

section
open Sys2Proof Sys2Proof.Machine

/-- One step takes the command at the front of the queue off it and executes it on the state with the queue's rest.

The model's own convention (log entry 1): a step with no command waiting is one reference cycle, in which chip time
alone moves, by the increment of R41, and only of a die that is powered and out of reset. -/
def Obligations.StepRunsFrontCommand : Prop :=
  (
    ∀ (c : Instr) (rest : List Instr) (s : State), s.pending = c :: rest →
      step s = exec c { s with pending := rest } ∧ Sys2Proof.core.step s = exec c { s with pending := rest }) ∧
  (
    ∀ s : State, s.pending = [] →
      (s.boot.powered = true ∧ s.boot.inReset = false → step s = .next { s with time := { s.time with
        clock := BitVec.ofNat 104 ((s.time.clock.toNat + s.time.increment) % 2 ^ 104) } }) ∧
      (s.boot.powered = false ∨ s.boot.inReset = true → step s = .next s))

/-- No command stops the machine: every command of the table answers a next state, in every state.

Log entry 1 (the model's queue): no command changes the queue of commands that wait. -/
def Obligations.EveryCommandAnswersNext : Prop :=
  (
    ∀ (c : Instr) (s : State), ∃ t, exec c s = .next t) ∧
  (
    ∀ (i : Instr) (s s' : State), exec i s = .next s' → s'.pending = s.pending)

/-- R24, R42, R52, R322, R337 and Tables 15-16, 11-8: the machine after reset.  Reset is asserted and no step of start is
done, no line of the warden's is asserted, no event has been counted, no stack memory is listed, every link is ABSENT,
chip time is 0 and not synchronised, and no thread has started.

Log entry 2: the machine after reset is in canonical form. -/
def Obligations.ResetState : Prop :=
  (
    State.reset.boot.inReset = true ∧ State.reset.boot.step = 0 ∧ State.reset.boot.running = false ∧
    State.reset.boot.plan = none ∧ State.reset.boot.reason = 0 ∧ State.reset.errFatal = false ∧ State.reset.errCorr = false ∧
    (∀ crn unit, State.reset.events.at (crn * 1024 + unit) {} = {}) ∧ State.reset.mem = [] ∧
    (∀ k, (State.reset.link k).st = 0) ∧ State.reset.now = 0 ∧ State.reset.time.syncState = 0 ∧
    State.reset.hb.toggling = false ∧ State.reset.pace.tripped = false ∧ State.reset.pace.alarm = false ∧
    State.reset.pending = []) ∧
  (
   Canonical State.reset)

/-- Log entry 2 (the model's memories): every step keeps stack memory, every scratchpad and every matrix register in
canonical form. -/
def Obligations.StepsKeepCanonicalMemory : Prop :=
  ∀ s s' : State, Canonical s → step s = .next s' → Canonical s'

/-- R66 and the encoding tables: every well-formed word is read back as the instruction that it encodes.

R66: a word that decodes is the encoding of what it decodes to, so no two words read as one instruction. -/
def Obligations.WordsDecodeToWhatTheyEncode : Prop :=
  (
    ∀ (i : Instr) (a : ThreadAt), threadOf i = some a → i.wf = true → decodeWord a (encodeWord i) = some i) ∧
  (
    ∀ (a : ThreadAt) (w : W32) (i : Instr), decodeWord a w = some i → encodeWord i = w ∧ threadOf i = some a ∧ i.wf = true)

/-- R327: MOD_ERR_FATAL_N, once asserted, is never released but by reset or power. -/
def Obligations.FatalErrorLatches : Prop :=
  ∀ (i : Instr) (s s' : State), isPowerOrReset i = false → s.errFatal = true → exec i s = .next s' → s'.errFatal = true

/-- R68, R69 and Table 3-6: the result of each of the twenty-seven INT words, on integers, with the division corners;
the word writes rd, the thread goes on to the next word, and nothing else changes.

R68 and Table 3-7: the results of ADDI, ANDI, ORI, XORI, LTSI, LTUI, SLLI, SRLI, SRAI, RORI and LIU.

R59: x0 reads zero and a write to it is discarded; a write to another register is read back, leaves every other
register, and ends the written register's bad parity, poison and wait. -/
def Obligations.IntegerWordResults : Prop :=
  (
    ∀ (i : Instr) (a : ThreadAt) (s : State) (site : Nat) (rd : BitVec 5) (v : W64),
      threadOf i = some a → Issues i a s site → intRule i (s.thr site a.t) = some (rd, v) →
      exec i s = .next (s.setThr site a.t (((s.thr site a.t).wx rd v).retire))) ∧
  (
    ∀ (i : Instr) (a : ThreadAt) (s : State) (site : Nat) (rd : BitVec 5) (v : W64),
      threadOf i = some a → Issues i a s site → immRule i (s.thr site a.t) = some (rd, v) →
      exec i s = .next (s.setThr site a.t (((s.thr site a.t).wx rd v).retire))) ∧
  (
    ∀ (th : Thread) (n k : BitVec 5) (v : W64),
      th.rx 0 = 0 ∧ (th.wx 0 v = th) ∧
      (n ≠ 0 → (th.wx n v).rx n = v ∧ RegRef.x n ∉ (th.wx n v).badParity ∧
        (∀ p ∈ (th.wx n v).poison, p.1 ≠ RegRef.x n) ∧ (∀ p ∈ (th.wx n v).waiting, p.1 ≠ RegRef.x n)) ∧
      (k ≠ n → (th.wx n v).rx k = th.rx k) ∧
      (th.wx n v).f = th.f ∧ (th.wx n v).v = th.v ∧ (th.wx n v).m = th.m ∧ (th.wx n v).mx = th.mx ∧
      (th.wx n v).flags = th.flags ∧ (th.wx n v).pc = th.pc)

/-- R58, R70, R74: the six branches.  A branch whose comparison holds goes to pc + 4 times its offset, modulo 32 KiB,
and ends an active loop when that lies outside its body; one whose comparison fails goes on as any word does.

R70 and Table 3-7: JMP goes to pc + 4 times its offset; JAL does so and writes pc + 4 to x31; JLR goes to ra + imm16
and writes pc + 4 to rd, where the target is a word of the store.

R70: a JLR to an address that is no multiple of 4, or past 0x7FFC, raises FETCH with that address, and writes
neither rd nor pc. -/
def Obligations.TransferTargets : Prop :=
  (
    ∀ (i : Instr) (a : ThreadAt) (s : State) (site : Nat) (taken : Bool) (pc : BitVec 15),
      threadOf i = some a → Issues i a s site → branchRule i (s.thr site a.t) = some (taken, pc) →
      (taken = false → exec i s = .next (s.setThr site a.t (s.thr site a.t).retire)) ∧
      (taken = true → leavesLoop (s.thr site a.t) pc = false →
        exec i s = .next (s.setThr site a.t { s.thr site a.t with pc := pc })) ∧
      (taken = true → leavesLoop (s.thr site a.t) pc = true →
        exec i s = .next (s.setThr site a.t { s.thr site a.t with pc := pc, lcnt := 0, loopActive := false }))) ∧
  (
    ∀ (a : ThreadAt) (s : State) (site : Nat),
      (∀ o : JOp, Issues (.jmp a o) a s site →
        exec (.jmp a o) s = .next (s.setThr site a.t
          ((s.thr site a.t).transfer (target (s.thr site a.t).pc (toSigned 26 o.off.toNat))))) ∧
      (∀ o : JOp, Issues (.jal a o) a s site →
        exec (.jal a o) s = .next (s.setThr site a.t
          (((s.thr site a.t).wx 31 (linkRule (s.thr site a.t))).transfer
            (target (s.thr site a.t).pc (toSigned 26 o.off.toNat))))) ∧
      (∀ (o : ImmOp) (v : Nat), Issues (.jlr a o) a s site →
        v = ((sgnOf false ((s.thr site a.t).rx o.ra) + simm o.imm) % 2 ^ 64).toNat →
        v % 4 = 0 → v ≤ 0x7FFC →
        exec (.jlr a o) s = .next (s.setThr site a.t
          (((s.thr site a.t).wx o.rd (linkRule (s.thr site a.t))).transfer (BitVec.ofNat 15 v))))) ∧
  (
    ∀ (a : ThreadAt) (s : State) (site : Nat) (o : ImmOp) (v : Nat),
      s.siteOf a.row.toNat a.col.toNat = some site → s.running = true →
      (s.core site).readyFor a (.jlr a o) = true →
      v = ((sgnOf false ((s.thr site a.t).rx o.ra) + simm o.imm) % 2 ^ 64).toNat →
      (v % 4 ≠ 0 ∨ 0x7FFC < v) →
      exec (.jlr a o) s = .next (s.raise site a.t { cause := 0x03, addr := BitVec.ofNat 64 v }))

/-- R74: what going on to the next word does.  At the last word of an active loop that no handler has frozen, a count
above 1 falls by one and fetch returns to the first word; a count of 1 goes to 0, the loop ends, and fetch goes on after
the body.  Elsewhere pc rises by 4, modulo 32 KiB (R58).

R74: LOOP skips its body where ra is zero, else it records the body and the count; it raises LOOP where a loop is
active, n is 0 or above 8,191, or the body passes 0x7FFC. -/
def Obligations.LoopsTurnAndEnd : Prop :=
  (
    ∀ th : Thread,
      (atLoopEnd th = true → 1 < th.lcnt.toNat →
        th.retire = { th with pc := th.lbeg, lcnt := BitVec.ofNat 64 (th.lcnt.toNat - 1) }) ∧
      (atLoopEnd th = true → th.lcnt.toNat = 1 →
        th.retire = { th with pc := BitVec.ofNat 15 ((th.pc.toNat + 4) % 2 ^ 15), lcnt := 0, loopActive := false }) ∧
      (atLoopEnd th = false →
        th.retire = { th with pc := BitVec.ofNat 15 ((th.pc.toNat + 4) % 2 ^ 15) })) ∧
  (
    ∀ (a : ThreadAt) (o : LoopOp) (s : State) (site : Nat) (th : Thread),
      Issues (.loopI a o) a s site → th = s.thr site a.t →
      let good := th.loopActive = false ∧ 1 ≤ o.n.toNat ∧ o.n.toNat ≤ 8191 ∧ th.pc.toNat + 4 * o.n.toNat ≤ 0x7FFC
      (good → th.rx o.ra = 0 → exec (.loopI a o) s = .next (s.setThr site a.t
        { th with pc := BitVec.ofNat 15 ((th.pc.toNat + 4 * o.n.toNat + 4) % 2 ^ 15) })) ∧
      (good → th.rx o.ra ≠ 0 → exec (.loopI a o) s = .next (s.setThr site a.t
        { th with pc := BitVec.ofNat 15 (th.pc.toNat + 4), lcnt := th.rx o.ra, loopActive := true, loopFrozen := false,
                  lbeg := BitVec.ofNat 15 (th.pc.toNat + 4), lend := BitVec.ofNat 15 (th.pc.toNat + 4 * o.n.toNat) })) ∧
      (¬ good → exec (.loopI a o) s = .next (s.raise site a.t
        { cause := 0x09, addr := BitVec.ofNat 64 (encodeWord (.loopI a o)).toNat })))

/-- R76: a fault with a handler.  THR_FPC takes the pc of the word, THR_FCAUSE and THR_FADDR the fault, in_fault is set,
pc goes to THR_FVEC.entry, and EV_THR_FAULT of the core counts one.  Registers, the other threads, the scratchpad and
stack memory stay.

R78: a fault in a handler, or with THR_FVEC.enable = 0, stops the thread: THR_FCAUSE and THR_FADDR tell of it,
THR_FPC and pc stay, EV_THR_STOP counts one, MOD_ERR_CORR_N is asserted unless MOD_ERR_FATAL_N is.

R76 and Table 3-10: FRET clears in_fault and resumes at THR_FPC, the frozen loop then being judged as any transfer
judges it (R74); where in_fault is 0 it raises ILLEGAL_INSTR.

R76, R77 and Table 3-12: TRAP raises TRAP with its code in THR_FADDR[10:0]. -/
def Obligations.FaultsEnterAndReturn : Prop :=
  (
    ∀ (s : State) (site : Nat) (t : BitVec 2) (f : FaultRec) (th th' : Thread) (s' : State),
      th = s.thr site t → th.inFault = false → th.fvecEnable = true → s' = s.raise site t f → th' = s'.thr site t →
      th'.fpc.toNat = th.pc.toNat / 4 ∧ th'.cause = f.cause ∧ th'.faddr = f.addr ∧ th'.deferred = f.deferred ∧
      th'.inFault = true ∧ th'.pc.toNat = 4 * th.fvecEntry.toNat ∧ th'.st = .run ∧
      th'.x = th.x ∧ th'.f = th.f ∧ th'.v = th.v ∧ th'.m = th.m ∧ th'.mx = th.mx ∧ th'.flags = th.flags ∧
      (s'.events.at (0x080 * 1024 + site) {}).count = (s.events.at (0x080 * 1024 + site) {}).count + 1 ∧
      (s'.events.at (0x080 * 1024 + site) {}).pending = true ∧
      (∀ u, u ≠ t → s'.thr site u = s.thr site u) ∧ (∀ other, other ≠ site → s'.core other = s.core other) ∧
      (s'.core site).pad = (s.core site).pad ∧ (s'.core site).mregs = (s.core site).mregs ∧ s'.mem = s.mem) ∧
  (
    ∀ (s : State) (site : Nat) (t : BitVec 2) (f : FaultRec) (th th' : Thread) (s' : State),
      th = s.thr site t → (th.inFault = true ∨ th.fvecEnable = false) → s' = s.raise site t f → th' = s'.thr site t →
      th'.st = .stop ∧ th'.cause = f.cause ∧ th'.faddr = f.addr ∧ th'.fpc = th.fpc ∧ th'.pc = th.pc ∧
      (s'.events.at (0x081 * 1024 + site) {}).count = (s.events.at (0x081 * 1024 + site) {}).count + 1 ∧
      (s.errFatal = false → s'.errCorr = true) ∧ (s.errFatal = true → s'.errCorr = s.errCorr) ∧
      (∀ u, u ≠ t → s'.thr site u = s.thr site u) ∧ (∀ other, other ≠ site → s'.core other = s.core other) ∧
      (s'.core site).pad = (s.core site).pad ∧ s'.mem = s.mem) ∧
  (
    ∀ (a : ThreadAt) (s : State) (site : Nat) (th : Thread), th = s.thr site a.t → Issues (.fret a) a s site →
      (th.inFault = true → exec (.fret a) s = .next (s.setThr site a.t
        (({ th with inFault := false, loopFrozen := false } : Thread).transfer (BitVec.ofNat 15 (4 * th.fpc.toNat))))) ∧
      (th.inFault = false → exec (.fret a) s = .next (s.raise site a.t
        { cause := 0x01, addr := BitVec.ofNat 64 (encodeWord (.fret a)).toNat }))) ∧
  (
    ∀ (a : ThreadAt) (o : TrapOp) (s : State) (site : Nat), Issues (.trap a o) a s site →
      exec (.trap a o) s = .next (s.raise site a.t { cause := 0x0A, addr := BitVec.ofNat 64 o.code.toNat }))

/-- R66, R77: a thread that issues a malformed word raises ILLEGAL_INSTR with the word, whatever its sources.

R61: a core word does nothing where its thread is not in RUN, or a source register awaits a load.

R72, R77, R91: a source that fails its parity check raises PARITY with the register's code; else a poisoned source
raises DATA_ERROR, deferred, with the address of the load; a HBARM, FRET, JLR or rounding word may meet its own earlier
fault first, and is not named here.

R40, R60, R364: where the boot plan's threads have not started, the die has tripped or the module has been pruned, no
word of any core issues. -/
def Obligations.BeforeAWordsOwnEffect : Prop :=
  (
    ∀ (i : Instr) (a : ThreadAt) (s : State) (site : Nat),
      threadOf i = some a → s.siteOf a.row.toNat a.col.toNat = some site → s.running = true →
      (s.core site).readyFor a i = true → i.wf = false →
      exec i s = .next (s.raise site a.t { cause := 0x01, addr := BitVec.ofNat 64 (encodeWord i).toNat })) ∧
  (
    ∀ (i : Instr) (a : ThreadAt) (s : State) (site : Nat),
      threadOf i = some a → s.siteOf a.row.toNat a.col.toNat = some site →
      ((s.thr site a.t).st ≠ .run ∨ (∃ r ∈ sources i, ∃ n, (r, n) ∈ (s.thr site a.t).waiting)) →
      exec i s = .next s) ∧
  (
    ∀ (i : Instr) (a : ThreadAt) (s : State) (site : Nat) (th : Thread),
      threadOf i = some a → s.siteOf a.row.toNat a.col.toNat = some site → s.running = true →
      (s.core site).readyFor a i = true → i.wf = true → th = s.thr site a.t →
      (intRule i th ≠ none ∨ immRule i th ≠ none ∨ branchRule i th ≠ none ∨ laneRule i th ≠ none ∧ rmField i = none) →
      (∀ r, (sources i).find? (th.badParity.contains ·) = some r →
        exec i s = .next (s.raise site a.t { cause := 0x07, addr := parityCode r })) ∧
      (∀ v b, (sources i).find? (th.badParity.contains ·) = none →
        (sources i).findSome? (fun r => th.poison.find? (·.1 == r)) = some (v, b) →
        exec i s = .next (s.raise site a.t { cause := 0x06, addr := b.1, deferred := true }))) ∧
  (
    ∀ (i : Instr) (a : ThreadAt) (s : State), threadOf i = some a →
      (s.boot.running = false ∨ s.pace.tripped = true ∨ s.stopped = true) → exec i s = .next s)

/-- R57 and Table 3-10: RDTIME reads chip time in nanoseconds, SETTC sets THR_TCMP, PARK parks the thread, YIELD holds it
back to slot 0 of the next frame; each then goes on to the next word.

R55: WAITT sets THR_TCMP to its operand, and the thread sleeps, unless chip time has reached the value; the compare
of all ones is never reached.

R55: when chip time reaches THR_TCMP a sleeping thread runs again, chip time standing at least at the compare, and
the compare stays as it is; a thread whose compare is disarmed sleeps on.

R80: HBARM of a heartbeat thread sets the expiry to chip time + 100,000,000 ns, resumes toggling and clears lapsed;
from any other thread it raises PRIVILEGED with the word. -/
def Obligations.TimeParkAndHeartbeatWords : Prop :=
  (
    ∀ (a : ThreadAt) (s : State) (site : Nat) (th : Thread), th = s.thr site a.t →
      (∀ o, Issues (.rdtime a o) a s site → exec (.rdtime a o) s = .next (s.setThr site a.t
        (th.wx o.rd (BitVec.ofNat 64 (s.time.clock.toNat / 2 ^ 40))).retire)) ∧
      (∀ o, Issues (.settc a o) a s site → exec (.settc a o) s = .next (s.setThr site a.t
        ({ th with tcmp := th.rx o.ra } : Thread).retire)) ∧
      (Issues (.park a) a s site → exec (.park a) s = .next (s.setThr site a.t ({ th with st := .park } : Thread).retire)) ∧
      (Issues (.yieldI a) a s site →
        exec (.yieldI a) s = .next (s.setThr site a.t ({ th with yielded := true } : Thread).retire))) ∧
  (
    ∀ (a : ThreadAt) (o : RaOp) (s : State) (site : Nat) (th : Thread) (v : Nat),
      th = s.thr site a.t → v = (th.rx o.ra).toNat → Issues (.waitt a o) a s site →
      (v < 2 ^ 64 - 1 ∧ v ≤ s.time.clock.toNat / 2 ^ 40 →
        exec (.waitt a o) s = .next (s.setThr site a.t ({ th with tcmp := th.rx o.ra } : Thread).retire)) ∧
      (¬ (v < 2 ^ 64 - 1 ∧ v ≤ s.time.clock.toNat / 2 ^ 40) →
        exec (.waitt a o) s =
          .next (s.setThr site a.t ({ th with tcmp := th.rx o.ra, st := .sleep } : Thread).retire))) ∧
  (
    ∀ (a : ThreadAt) (s : State) (site : Nat),
      s.siteOf a.row.toNat a.col.toNat = some site → s.running = true → (s.thr site a.t).st = .sleep →
      ((s.thr site a.t).tcmp ≠ BitVec.allOnes 64 → ∃ s', exec (.timerCompareMatch a) s = .next s' ∧
        (s'.thr site a.t).st = .run ∧ (s'.thr site a.t).tcmp = (s.thr site a.t).tcmp ∧
        (s'.thr site a.t).x = (s.thr site a.t).x ∧ (s'.thr site a.t).pc = (s.thr site a.t).pc ∧
        s'.now = max s.now (s.thr site a.t).tcmp.toNat ∧ s'.mem = s.mem) ∧
      ((s.thr site a.t).tcmp = BitVec.allOnes 64 → exec (.timerCompareMatch a) s = .next s)) ∧
  (
    ∀ (a : ThreadAt) (s : State) (site : Nat), Issues (.hbarm a) a s site →
      (s.isHbThread a = true → ∃ s', exec (.hbarm a) s = .next s' ∧
        s'.hb.expiry = BitVec.ofNat 64 (s.time.clock.toNat / 2 ^ 40 + 100000000) ∧ s'.hb.toggling = true ∧
        s'.hb.lapsed = false ∧ s'.hb.level = s.hb.level ∧ s'.thr site a.t = (s.thr site a.t).retire ∧
        (∀ other, other ≠ site → s'.core other = s.core other) ∧ s'.mem = s.mem ∧ s'.events = s.events) ∧
      (s.isHbThread a = false → exec (.hbarm a) s = .next (s.raise site a.t
        { cause := 0x02, addr := BitVec.ofNat 64 (encodeWord (.hbarm a)).toNat })))

/-- The frame of the register words (those that destsOf lists: INT, immediates, branches, jumps, LOOP, RDTIME, SETTC,
WAITT, FP, FMA, vector, conversion, mask and CRC words).  Whatever such a word does, a fault included, it leaves stack
memory, every scratchpad, tag and matrix register, chip time, every other thread of every core, and every register of
its own thread but its destinations.

The frame of the words that store nothing: scalar and vector loads, LDV, LDK, TPROBE, WINV and FENCE.  Whatever they
do, faults included, every byte of every scratchpad, every tag, every matrix register and stack memory stay. -/
def Obligations.RegisterWordFrame : Prop :=
  (
    ∀ (i : Instr) (a : ThreadAt) (ds : List RegRef) (s t : State),
      threadOf i = some a → destsOf i = some ds → exec i s = .next t →
      t.mem = s.mem ∧ t.time = s.time ∧ t.rings = s.rings ∧ t.hb = s.hb ∧
      (∀ p, (t.core p).pad = (s.core p).pad ∧ (t.core p).full = (s.core p).full ∧ (t.core p).kinds = (s.core p).kinds ∧
        (t.core p).mregs = (s.core p).mregs ∧ (t.core p).wc = (s.core p).wc ∧ (t.core p).reqs = (s.core p).reqs) ∧
      (∀ p u, s.siteOf a.row.toNat a.col.toNat ≠ some p ∨ u ≠ a.t → t.thr p u = s.thr p u) ∧
      (∀ p, s.siteOf a.row.toNat a.col.toNat = some p →
        (∀ n, RegRef.x n ∉ ds → (t.thr p a.t).rx n = (s.thr p a.t).rx n) ∧
        (∀ n, RegRef.f n ∉ ds → (t.thr p a.t).rf n = (s.thr p a.t).rf n) ∧
        (∀ n, RegRef.v n ∉ ds → (t.thr p a.t).rv n = (s.thr p a.t).rv n) ∧
        (∀ n, RegRef.m n ∉ ds → (t.thr p a.t).rm' n = (s.thr p a.t).rm' n) ∧
        (∀ n, RegRef.mx n ∉ ds → (t.thr p a.t).rmx n = (s.thr p a.t).rmx n) ∧
        (t.thr p a.t).flags &&& (s.thr p a.t).flags = (s.thr p a.t).flags ∧
        (t.thr p a.t).rm = (s.thr p a.t).rm ∧ (t.thr p a.t).fvecEntry = (s.thr p a.t).fvecEntry ∧
        (t.thr p a.t).cls = (s.thr p a.t).cls ∧ (t.thr p a.t).sendSeq = (s.thr p a.t).sendSeq)) ∧
  (
    ∀ (i : Instr) (s t : State), loads i = true → exec i s = .next t →
      t.mem = s.mem ∧ t.time = s.time ∧
      (∀ p x, Mem.read (t.core p).pad x = Mem.read (s.core p).pad x) ∧
      (∀ p, (t.core p).full = (s.core p).full ∧ (t.core p).kinds = (s.core p).kinds) ∧
      (∀ p c, ((t.core p).mreg c).bytes = ((s.core p).mreg c).bytes))

/-- R59, R73 and Table 3-9: what the thirty words of the FP and FMA groups write, with a rounding mode of 1 to 5: a
binary32 result leaves bits [63:32] zero, x results are sign-extended, and the flags only gather.

R73: a word that rounds in the dynamic mode while THR_FPCSR.rm holds no mode raises ILLEGAL_INSTR with the word, in
the scalar and the vector groups.

R85: a sum, difference or product of two finite operands that the format holds exactly is that value, in every
rounding mode, and raises no flag (binary32 and binary64; the value not zero). -/
def Obligations.FloatWordResults : Prop :=
  (
    ∀ (i : Instr) (a : ThreadAt) (s : State) (site : Nat) (e : FpEffect),
      threadOf i = some a → Issues i a s site → modeGood i (s.thr site a.t) = true →
      fpRule i (s.thr site a.t) = some e →
      exec i s = .next (s.setThr site a.t (e.on (s.thr site a.t)).retire)) ∧
  (
    ∀ (i : Instr) (a : ThreadAt) (s : State) (site : Nat),
      threadOf i = some a → s.siteOf a.row.toNat a.col.toNat = some site → s.running = true → i.wf = true →
      (s.core site).readyFor a i = true → rmField i = some 0 →
      ((s.thr site a.t).rm.toNat = 0 ∨ 5 < (s.thr site a.t).rm.toNat) →
      exec i s = .next (s.raise site a.t { cause := 0x01, addr := BitVec.ofNat 64 (encodeWord i).toNat })) ∧
  (
    ∀ (d : Bool) (r : Rnd) (x y z : Nat) (p q v : Rat),
      x < 2 ^ laneBits d → y < 2 ^ laneBits d → z < 2 ^ laneBits d →
      ((fmtD d).decode x).rat = some p → ((fmtD d).decode y).rat = some q → ((fmtD d).decode z).rat = some v → v ≠ 0 →
      (p + q = v → (fmtD d).add r x y = (z, 0)) ∧
      (p - q = v → (fmtD d).sub r x y = (z, 0)) ∧
      (p * q = v → (fmtD d).mul r x y = (z, 0)))

/-- R86: an addition, subtraction, multiplication, division, square root or fused operation that reads a NaN returns the
canonical NaN of its format, and sets nv, alone, where an operand is signalling.

R88: of one number and one NaN, a minimum or maximum is the number; of two NaNs, the canonical NaN; -0 orders below
+0; a magnitude maximum is positive; a signalling operand sets nv.

R103: VMXS writes a scale code to byte b of vd for each lane b of the mx register, and zero to bytes 32 to 127: 127
for +0 and +subnormals, 254 for an infinity, and else floor(log2 m) - emax + h + 127 held between 0 and 254, for lanes
that are not negative.  With reset the mx register becomes +0. -/
def Obligations.NumberRules : Prop :=
  (
    ∀ (d : Bool) (r : Rnd) (x y z : Nat) (np na : Bool),
      let f := fmtD d
      let nan := if d then 0x7FF8000000000000 else 0x7FC00000
      let two := fun (s t : FVal) => if s.isSNan || t.isSNan then (16 : Flags) else 0
      ((f.decode x).isNan = true ∨ (f.decode y).isNan = true →
        f.add r x y = (nan, two (f.decode x) (f.decode y)) ∧ f.sub r x y = (nan, two (f.decode x) (f.decode y)) ∧
        f.mul r x y = (nan, two (f.decode x) (f.decode y)) ∧ f.div r x y = (nan, two (f.decode x) (f.decode y))) ∧
      ((f.decode x).isNan = true → f.sqrt r x = (nan, if (f.decode x).isSNan then 16 else 0)) ∧
      ((f.decode x).isNan = true ∨ (f.decode y).isNan = true ∨ (f.decode z).isNan = true →
        (f.fma np na r x y z).1 = nan)) ∧
  (
    ∀ (d isMax : Bool) (x y : Nat), x < 2 ^ laneBits d → y < 2 ^ laneBits d →
      let f := fmtD d
      let top := 2 ^ (laneBits d - 1)
      ((f.decode x).isNan = true → (f.decode y).isNan = false →
        (f.minMax isMax x y).1 = y ∧ (f.amax x y).1 = y % top) ∧
      ((f.decode x).isNan = false → (f.decode y).isNan = true →
        (f.minMax isMax x y).1 = x ∧ (f.amax x y).1 = x % top) ∧
      ((f.decode x).isNan = true → (f.decode y).isNan = true →
        (f.minMax isMax x y).1 = f.nan ∧ (f.amax x y).1 = f.nan) ∧
      f.minMax false 0 top = (top, 0) ∧ f.minMax false top 0 = (top, 0) ∧
      f.minMax true 0 top = (0, 0) ∧ f.minMax true top 0 = (0, 0) ∧
      ((f.minMax isMax x y).2 = if (f.decode x).isSNan || (f.decode y).isSNan then 16 else 0)) ∧
  (
    ∀ (a : ThreadAt) (o : VmxsOp) (s : State) (site : Nat) (th : Thread),
      th = s.thr site a.t → Issues (.vmxs a o) a s site →
      ∃ s' th', exec (.vmxs a o) s = .next s' ∧ th' = s'.thr site a.t ∧ s'.mem = s.mem ∧ th'.flags = th.flags ∧
        th'.x = th.x ∧ th'.f = th.f ∧ th'.m = th.m ∧
        (o.reset = true → th'.rmx o.mx = 0) ∧ (o.reset = false → th'.mx = th.mx) ∧
        (∀ b, 32 ≤ b → b < 128 → byteV (th'.rv o.vd) b = 0) ∧
        (∀ b m, b < 32 → m = laneV false (th.rmx o.mx) b → m < 2 ^ 23 → byteV (th'.rv o.vd) b = 127) ∧
        (∀ b m, b < 32 → m = laneV false (th.rmx o.mx) b → m = 0x7F800000 →
          byteV (th'.rv o.vd) b = 254 ∧ th'.scaleClamped = true) ∧
        (∀ b m, b < 32 → m = laneV false (th.rmx o.mx) b → 2 ^ 23 ≤ m → m < 0x7F800000 →
          (byteV (th'.rv o.vd) b : Int) =
            max 0 (min 254 (((m / 2 ^ 23 : Nat) : Int) - 127 - mxEmax o.efmt.toNat + o.h.toNat + 127))))

/-- R83, R96 and Table 4-8: VCVT.  Each lane of va is converted on its own; to a narrower format the elements go to segment
seg of vd, whose other bytes stay, from a wider one they come from segment seg of va.  Flags, VEC_STATUS and the generator
follow R95 and R97 to R99.

R100, R101, R102: VMX down converts the 32 binary32 lanes of va times 2^(127 - s), and 2^6 more for MXINT8, into segment
seg of vd, and with mxen takes the magnitudes of its lanes into lane b of the mx register; it raises VCTL with rb where
seg is past the format's segments or s is 0xFF.  VMX up reads segment seg of va times 2^(s - 127) under
roundTiesToEven; it raises VCTL where seg is past the segments, and writes 32 canonical NaNs and no flag where s is 0xFF.

R103: VMXS writes the scale code of each lane of the mx register, zero to bytes 32 to 127, sets scale_clamped where a code was
clamped, and with reset makes the mx register +0.  Log entry 27: a lane for which R103 states no code is not named.

R104: VCRC64 folds the first xb[7:0] bytes of va into the check value in xd; above 128 it raises VCTL with xb. -/
def Obligations.ConversionWords : Prop :=
  ∀ (a : ThreadAt) (s : State) (site : Nat) (th : Thread), th = s.thr site a.t →
    (∀ (o : VcvtOp) (n size segs : Nat) (exact : Bool) (c : Nat → Cvt), Issues (.vcvt a o) a s site →
      (o.rnd ≠ 0 ∨ exact = true ∨ 1 ≤ th.rm.toNat ∧ th.rm.toNat ≤ 5) →
      cvtPair o.src.toNat o.dst.toNat = some (n, size, segs, exact) →
      let narrow := elemBits o.dst.toNat < elemBits o.src.toNat
      c = cvtLane (dstOf o.dst.toNat) o.rnd o.sat th (fun k => elemVal o.src.toNat
        (elemAt (th.rv o.va) (if narrow then 0 else o.seg.toNat * size) (elemBits o.src.toNat) k)) →
      ∃ v : V1024, exec (.vcvt a o) s = .next (s.setThr site a.t (((th.wv o.vd v).converted o.rnd n c).retire)) ∧
        (narrow → (∀ k, k < n → elemAt v (o.seg.toNat * size) (elemBits o.dst.toNat) k =
            (c k).code % 2 ^ elemBits o.dst.toNat) ∧ sameOutside v (th.rv o.vd) (o.seg.toNat * size) size) ∧
        (¬ narrow → ∀ k, k < n → elemAt v 0 (elemBits o.dst.toNat) k = (c k).code % 2 ^ elemBits o.dst.toNat)) ∧
    (∀ (o : VmxDn) (c : Nat → Cvt), Issues (.vmxDown a o) a s site →
      (o.rnd ≠ 0 ∨ 1 ≤ th.rm.toNat ∧ th.rm.toNat ≤ 5) →
      c = cvtLane (mxDst o.efmt.toNat) o.rnd o.sat th (fun k =>
        scaleVal (127 - (vmxS (th.rx o.rb) : Int) + (if o.efmt.toNat = 5 then 6 else 0))
          (binary32.decode (laneV false (th.rv o.va) k))) →
      (vmxG (th.rx o.rb) < segsOf o.efmt → vmxS (th.rx o.rb) ≠ 255 →
        ∃ (v : V1024) (t1 : Thread), t1 = (th.wv o.vd v).converted o.rnd 32 c ∧
          (∀ k, k < 32 → elemAt v (vmxG (th.rx o.rb) * segBytes o.efmt) (mxElemBits o.efmt) k =
            (c k).code % 2 ^ mxElemBits o.efmt) ∧
          sameOutside v (th.rv o.vd) (vmxG (th.rx o.rb) * segBytes o.efmt) (segBytes o.efmt) ∧
          (o.mxen = false → exec (.vmxDown a o) s = .next (s.setThr site a.t t1.retire)) ∧
          (o.mxen = true → ∃ (w : V1024) (y : Nat × Flags),
            y = chain (binary32.minMax true) (laneV false (th.rmx o.mxs) (vmxB (th.rx o.rb))) (magnitudes (th.rv o.va)) ∧
            (∀ k, k < 32 → laneV false w k =
              if k = vmxB (th.rx o.rb) then y.1 % 2 ^ 32 else laneV false (th.rmx o.mxs) k) ∧
            exec (.vmxDown a o) s = .next (s.setThr site a.t
              ({ t1.wmx o.mxs w with flags := t1.flags ||| y.2 } : Thread).retire))) ∧
      (segsOf o.efmt ≤ vmxG (th.rx o.rb) ∨ vmxS (th.rx o.rb) = 255 →
        exec (.vmxDown a o) s = .next (s.raise site a.t { cause := 0x10, addr := th.rx o.rb }))) ∧
    (∀ (o : VmxUp) (c : Nat → Cvt), Issues (.vmxUp a o) a s site →
      c = cvtLane (.flt binary32) 1 false th (fun k => scaleVal ((vmxS (th.rx o.rb) : Int) - 127)
        (mxElem o.efmt.toNat (elemAt (th.rv o.va) (vmxG (th.rx o.rb) * segBytes o.efmt) (mxElemBits o.efmt) k))) →
      (vmxG (th.rx o.rb) < segsOf o.efmt → vmxS (th.rx o.rb) ≠ 255 →
        ∃ v : V1024, exec (.vmxUp a o) s = .next (s.setThr site a.t ((th.wv o.vd v).converted 1 32 c).retire) ∧
          ∀ k, k < 32 → laneV false v k = (c k).code % 2 ^ 32) ∧
      (vmxG (th.rx o.rb) < segsOf o.efmt → vmxS (th.rx o.rb) = 255 →
        ∃ v : V1024, exec (.vmxUp a o) s = .next (s.setThr site a.t (th.wv o.vd v).retire) ∧
          ∀ k, k < 32 → laneV false v k = 0x7FC00000) ∧
      (segsOf o.efmt ≤ vmxG (th.rx o.rb) →
        exec (.vmxUp a o) s = .next (s.raise site a.t { cause := 0x10, addr := th.rx o.rb }))) ∧
    (∀ o : VmxsOp, Issues (.vmxs a o) a s site →
      ∃ (v : V1024) (s1 : State), keepsDie s s1 ∧ s1.tray = s.tray ∧
        exec (.vmxs a o) s = .next (s1.setThr site a.t
          ({ (if o.reset then th.wmx o.mx 0 else th).wv o.vd v with
             scaleClamped := th.scaleClamped || (List.range 32).any fun b =>
               ((scaleRule o.efmt o.h.toNat (laneV false (th.rmx o.mx) b)).map (·.2)).getD false } : Thread).retire) ∧
        (∀ b c, b < 32 → scaleRule o.efmt o.h.toNat (laneV false (th.rmx o.mx) b) = some c → byteV v b = c.1) ∧
        ∀ b, 32 ≤ b → b < 128 → byteV v b = 0) ∧
    (∀ o, Issues (.vcrc64 a o) a s site →
      ((th.rx o.xb).toNat % 256 ≤ 128 → exec (.vcrc64 a o) s = .next (s.setThr site a.t (th.wx o.xd
        (((List.range ((th.rx o.xb).toNat % 256)).map fun k => BitVec.ofNat 8 (byteV (th.rv o.va) k)).foldl crc64Byte
          (th.rx o.xd))).retire)) ∧
      (128 < (th.rx o.xb).toNat % 256 →
        exec (.vcrc64 a o) s = .next (s.raise site a.t { cause := 0x10, addr := th.rx o.xb })))

/-- R89, R90, R95 and Tables 4-6 and 4-7: the masked lane-wise words.  Lane k of vd becomes what the table gives where
the mask has bit k, and keeps its value elsewhere; the flags of the active lanes gather; nothing else changes.

R89, R90 and Tables 4-6 and 4-7: the six compares.  Bit k of the mask result is the relation of lane k where lane k
is active, and clear elsewhere; a compare into m0 is discarded. -/
def Obligations.LaneWordResults : Prop :=
  (
    ∀ (i : Instr) (a : ThreadAt) (s : State) (site : Nat) (th : Thread) (e : LaneEffect),
      threadOf i = some a → Issues i a s site → th = s.thr site a.t → modeGood i th = true →
      laneRule i th = some e →
      ∃ v, exec i s = .next (s.setThr site a.t
          ({ th.wv e.vd v with flags := th.flags ||| laneFlags (th.rm' e.m) e.g (lanesOf e.d) } : Thread).retire) ∧
        ∀ k, k < lanesOf e.d →
          laneV e.d v k = if (th.rm' e.m).getLsbD k then (e.g k).1 % 2 ^ laneBits e.d else laneV e.d (th.rv e.vd) k) ∧
  (
    ∀ (i : Instr) (a : ThreadAt) (s : State) (site : Nat) (th : Thread) (e : CmpEffect),
      threadOf i = some a → Issues i a s site → th = s.thr site a.t → cmpRule i th = some e →
      ∃ v : W32, exec i s = .next (s.setThr site a.t
          ({ th.wm e.md v with flags := th.flags ||| cmpFlags (th.rm' e.m) e.g (lanesOf e.d) } : Thread).retire) ∧
        (∀ k, k < 32 → v.getLsbD k = (decide (k < lanesOf e.d) && (th.rm' e.m).getLsbD k && (e.g k).1)) ∧
        (e.md = 0 → th.wm e.md v = th))

/-- Table 4-10, R89 and Table 4-6: VMAND, VMOR, VMXOR, VMANDN, VMPOPC, VMFIRST, VMFX, VMTX, VMXR, VMXW, VEXT and
VPERMB.

Table 4-6: VINS writes lane xb of vd and keeps the others; VSEL takes lane k of va where the mask has bit k, of vb
elsewhere.

R88, R94 and Table 4-7: the reductions.  Lane 0 of vd is the maximum, minimum or largest magnitude of the active
lanes, or the sum over the fixed tree in which an inactive lane is -0; the other lanes are +0. -/
def Obligations.MaskMoveAndReductionWords : Prop :=
  (
    ∀ (i : Instr) (a : ThreadAt) (s : State) (site : Nat) (th' : Thread),
      threadOf i = some a → Issues i a s site → moveRule i (s.thr site a.t) = some th' →
      exec i s = .next (s.setThr site a.t th'.retire)) ∧
  (
    ∀ (a : ThreadAt) (s : State) (site : Nat) (th : Thread), th = s.thr site a.t →
      (∀ o, Issues (.vins a o) a s site → ∃ v, exec (.vins a o) s = .next (s.setThr site a.t (th.wv o.vd v).retire) ∧
        ∀ k, k < lanesOf o.d → laneV o.d v k =
          if k = (th.rx o.xb).toNat % lanesOf o.d then (th.rx o.xa).toNat % 2 ^ laneBits o.d
          else laneV o.d (th.rv o.vd) k) ∧
      (∀ o, Issues (.vsel a o) a s site → ∃ v, exec (.vsel a o) s = .next (s.setThr site a.t (th.wv o.vd v).retire) ∧
        ∀ k, k < lanesOf o.d → laneV o.d v k =
          if (th.rm' o.m).getLsbD k then laneV o.d (th.rv o.va) k else laneV o.d (th.rv o.vb) k)) ∧
  (
    ∀ (i : Instr) (a : ThreadAt) (s : State) (site : Nat) (th : Thread) (d : Bool) (vd : BitVec 5)
      (r : Nat × Flags),
      threadOf i = some a → Issues i a s site → th = s.thr site a.t → modeGood i th = true →
      reductionRule i th = some (d, vd, r) →
      ∃ v : V1024, exec i s = .next (s.setThr site a.t
          ({ th.wv vd v with flags := th.flags ||| r.2 } : Thread).retire) ∧
        v.toNat = r.1 % 2 ^ laneBits d)

/-- R71 and Table 3-8: a scalar load from the scratchpad, outside a tagged region, of naturally aligned bytes that no
uncorrectable word holds.  rd takes the bytes, least significant first, extended as the table says; nothing stored
changes.

R61, R72, R147, R148: a scalar load from stack memory.  A hit in the window cache gives the line's bytes, counts in
wcHits and sends nothing; a miss counts in wcMisses and sends one request for the line, with the class timeout of the
thread's class, and its destination awaits the load (a load to x0 awaits nothing). -/
def Obligations.ScalarLoads : Prop :=
  (
    ∀ (i : Instr) (a : ThreadAt) (s : State) (site n : Nat) (o : ImmOp) (put : Nat → Thread → Thread) (th : Thread),
      threadOf i = some a → Issues i a s site → loadRule i = some (n, o, put) → th = s.thr site a.t →
      addrOf th o % n = 0 → PadGood (s.core site) (addrOf th o) n → regionKind (s.core site) (addrOf th o) ≠ 1 →
      ∃ s', exec i s = .next s' ∧
        s'.thr site a.t = (put (padNumber (s.core site) (addrOf th o) n) th).retire ∧
        s'.mem = s.mem ∧ (∀ p, (s'.core p).pad = (s.core p).pad ∧ (s'.core p).full = (s.core p).full) ∧
        (∀ u, u ≠ a.t → s'.thr site u = s.thr site u)) ∧
  (
    ∀ (i : Instr) (a : ThreadAt) (s : State) (site n : Nat) (o : ImmOp) (put : Nat → Thread → Thread) (th : Thread),
      threadOf i = some a → Issues i a s site → loadRule i = some (n, o, put) → th = s.thr site a.t →
      addrOf th o % n = 0 → addrOf th o < 0x5A00000000 →
      (∀ k e, (s.core site).wcFind (addrOf th o / 64) = some (k, e) → e.bad = [] →
        ∃ s', exec i s = .next s' ∧
          s'.thr site a.t =
            (put (bytesSum (fun j => e.data.toNat / 2 ^ (8 * (addrOf th o % 64 + j)) % 256) n) th).retire ∧
          (s'.core site).wcHits = (s.core site).wcHits + 1 ∧ (s'.core site).reqs = (s.core site).reqs ∧ s'.mem = s.mem) ∧
      ((s.core site).wcFind (addrOf th o / 64) = none →
        ∃ s' r, exec i s = .next s' ∧ (s'.core site).reqs = (s.core site).reqs ++ [r] ∧
          r.line = addrOf th o / 64 ∧ r.thread = a.t ∧ r.epoch = s.epoch ∧
          r.deadline = s.now + s.classTimeout (clsOf th.cls) ∧
          (s'.core site).wcMisses = (s.core site).wcMisses + 1 ∧ s'.mem = s.mem ∧
          (s'.thr site a.t).pc = th.retire.pc ∧
          (∀ reg ∈ (destsLoad i), reg ≠ RegRef.x 0 → ∃ id, (reg, id) ∈ (s'.thr site a.t).waiting)))

/-- R71 and Table 3-8: a scalar store to a plain region of the scratchpad, naturally aligned.  Its n bytes are the low
bytes of rs, least significant first; every other byte of this scratchpad, every tag, every other core's scratchpad and
stack memory stay.

R147, R210, R211: a scalar store to stack memory leaves the core as one request with its class timeout; stack
memory itself changes only when the home controller serves it, and the scratchpad not at all. -/
def Obligations.ScalarStores : Prop :=
  (
    ∀ (i : Instr) (a : ThreadAt) (s : State) (site n : Nat) (o : ImmOp) (src : Thread → W64) (th : Thread),
      threadOf i = some a → Issues i a s site → storeRule i = some (n, o, src) → th = s.thr site a.t →
      addrOf th o % n = 0 → padBase ≤ addrOf th o → addrOf th o < 2 ^ 40 → regionKind (s.core site) (addrOf th o) = 0 →
      ∃ s', exec i s = .next s' ∧ s'.thr site a.t = th.retire ∧
        (∀ k, k < n → (Mem.read (s'.core site).pad (addrOf th o - padBase + k)).toNat =
          (src th).toNat / 2 ^ (8 * k) % 256) ∧
        (∀ x, x < addrOf th o - padBase ∨ addrOf th o - padBase + n ≤ x →
          Mem.read (s'.core site).pad x = Mem.read (s.core site).pad x) ∧
        (s'.core site).full = (s.core site).full ∧ (∀ p, p ≠ site → s'.core p = s.core p) ∧ s'.mem = s.mem) ∧
  (
    ∀ (i : Instr) (a : ThreadAt) (s : State) (site n : Nat) (o : ImmOp) (src : Thread → W64) (th : Thread),
      threadOf i = some a → Issues i a s site → storeRule i = some (n, o, src) → th = s.thr site a.t →
      addrOf th o % n = 0 → addrOf th o < 0x5A00000000 →
      ∃ s' r, exec i s = .next s' ∧ (s'.core site).reqs = (s.core site).reqs ++ [r] ∧
        r.kind = .store (BitVec.ofNat 64 (addrOf th o)) ∧ r.line = addrOf th o / 64 ∧ r.thread = a.t ∧
        r.deadline = s.now + s.classTimeout (clsOf th.cls) ∧
        s'.thr site a.t = th.retire ∧ s'.mem = s.mem ∧ (∀ p, (s'.core p).pad = (s.core p).pad))

/-- R90, R93 and Table 4-5: VLD, VLDS.W, VLDS.D, VBC.W and VBC.D from the scratchpad outside tagged regions.  Each active
lane takes the bytes at its address, the others keep their value, and no other register changes.

R90, R93, R244 and Table 4-5: VST, VSTS.W and VSTS.D to plain regions of the scratchpad.  A byte that active lanes
name takes it from the highest of them; every other byte stays.

R71, R77, R154: what a scalar load or store raises.  MISALIGNED_DATA with the address where it is not naturally
aligned; else ADDRESS where no scratchpad of this core and no stack memory lies there; else, a store, TAGSTORE in a
tagged region and QUEUEWRITE in a queue. -/
def Obligations.VectorAccesses : Prop :=
  (
    ∀ (i : Instr) (a : ThreadAt) (s : State) (site : Nat) (e : VecAccess) (th : Thread),
      threadOf i = some a → Issues i a s site → th = s.thr site a.t → vloadRule i th = some e →
      (∀ k, e.active th k = true → e.tested k % e.unit = 0 ∧ PadGood (s.core site) (e.addr k) e.w ∧
        regionKind (s.core site) (e.addr k) ≠ 1) →
      ∃ s', exec i s = .next s' ∧ (s'.thr site a.t).pc = th.retire.pc ∧
        (∀ k, k < 128 / e.w → elemV e.w ((s'.thr site a.t).rv e.v) k =
          if e.active th k then padNumber (s.core site) (e.addr k) e.w else elemV e.w (th.rv e.v) k) ∧
        (∀ n, n ≠ e.v → (s'.thr site a.t).rv n = th.rv n) ∧ (s'.thr site a.t).x = th.x ∧ (s'.thr site a.t).f = th.f ∧
        (s'.thr site a.t).m = th.m ∧ s'.mem = s.mem ∧ (∀ p, (s'.core p).pad = (s.core p).pad)) ∧
  (
    ∀ (i : Instr) (a : ThreadAt) (s : State) (site : Nat) (e : VecAccess) (th : Thread),
      threadOf i = some a → Issues i a s site → th = s.thr site a.t → vstoreRule i th = some e →
      (∀ k, e.active th k = true → e.tested k % e.unit = 0 ∧ padBase ≤ e.addr k ∧ e.addr k < 2 ^ 40 ∧
        regionKind (s.core site) (e.addr k) = 0) →
      ∃ s', exec i s = .next s' ∧ s'.thr site a.t = th.retire ∧
        (∀ x, Mem.read (s'.core site).pad x =
          match e.lastLane th (padBase + x) with
          | some k => BitVec.ofNat 8 (byteV (th.rv e.v) (e.w * k + (padBase + x - e.addr k)))
          | none => Mem.read (s.core site).pad x) ∧
        (s'.core site).full = (s.core site).full ∧ (∀ p, p ≠ site → s'.core p = s.core p) ∧ s'.mem = s.mem) ∧
  (
    ∀ (i : Instr) (a : ThreadAt) (s : State) (site n : Nat) (o : ImmOp) (th : Thread),
      threadOf i = some a → Issues i a s site → th = s.thr site a.t →
      ((∃ put, loadRule i = some (n, o, put)) ∨ (∃ src, storeRule i = some (n, o, src))) →
      (addrOf th o % n ≠ 0 →
        exec i s = .next (s.raise site a.t { cause := 0x04, addr := BitVec.ofNat 64 (addrOf th o) })) ∧
      (addrOf th o % n = 0 → 0x5A00000000 ≤ addrOf th o → (addrOf th o < padBase ∨ 2 ^ 40 ≤ addrOf th o) →
        exec i s = .next (s.raise site a.t { cause := 0x05, addr := BitVec.ofNat 64 (addrOf th o) })) ∧
      (addrOf th o % n = 0 → padBase ≤ addrOf th o → addrOf th o < 2 ^ 40 → (∃ src, storeRule i = some (n, o, src)) →
        (regionKind (s.core site) (addrOf th o) = 1 →
          exec i s = .next (s.raise site a.t { cause := 0x30, addr := BitVec.ofNat 64 (addrOf th o) })) ∧
        (regionKind (s.core site) (addrOf th o) = 2 →
          exec i s = .next (s.raise site a.t { cause := 0x31, addr := BitVec.ofNat 64 (addrOf th o) }))))

/-- R136, R137, R138: a tagged access to a tagged region, aligned to its size, that the arbiter serves at issue.  LDE
empties its slots, LDK leaves them, STF fills them, STP leaves them; loads read and stores write all their bytes.  A load
over no uncorrectable word writes its register.  Where tags have changed the arbiter then serves the accesses that wait.

R136, R138: the same access where the arbiter does not serve it.  The thread enters BLOCK at its pc, and nothing
stored changes.

R56, R136, R138 and Table 3-2: TAGGED_ACCESS_GRANT.  A blocked access that the arbiter serves, before its thread's THR_TCMP,
has its effect on the tags, its store lands, and its thread runs on; one that it does not serve stays; one that it has
served already has its thread run on.

R138, R142: after tags have changed the arbiter serves, one after another, the waiting accesses that they let go ahead, the
one that goes first before the others: a thread's has its effect and leaves its wait, to be woken by its grant.

R141, R154: a tagged access outside a tagged region raises NOTAGGED, in a queue QUEUEWRITE, misaligned
MISALIGNED_DATA, elsewhere ADDRESS. -/
def Obligations.TaggedAccesses : Prop :=
  (
    ∀ (i : Instr) (a : ThreadAt) (s : State) (site : Nat) (o : TagOp) (load : Bool) (set : Option Bool) (th : Thread),
      threadOf i = some a → Issues i a s site → tagRule i = some (o, load, set) → th = s.thr site a.t →
      tagAddrOf th o % tagBytesOf o = 0 → padBase ≤ tagAddrOf th o → tagAddrOf th o < 2 ^ 40 →
      regionKind (s.core site) (tagAddrOf th o) = 1 →
      TagServed (s.core site) s.now { classA := th.cls == 1, order := (s.core site).waitOrder, kind := tagKind load set
                                      slots := slotsOf (tagAddrOf th o) (tagBytesOf o) } →
      ∃ t : State, exec i s = .next (if set = none then t else t.arbitrate site) ∧ t.mem = s.mem ∧ t.now = s.now ∧
        (load = true → (t.core site).pad = (s.core site).pad ∧ (t.thr site a.t).pc = th.retire.pc ∧
          (t.thr site a.t).st = .run ∧
          (PadGood (s.core site) (tagAddrOf th o) (tagBytesOf o) → t.thr site a.t =
            (tagWrite o (padNumber (s.core site) (tagAddrOf th o) (tagBytesOf o)) th).retire)) ∧
        (load = false → t.thr site a.t = th.retire ∧
          padNumber (t.core site) (tagAddrOf th o) (tagBytesOf o) = tagSource o th ∧
          ∀ x, x < tagAddrOf th o - padBase ∨ tagAddrOf th o - padBase + tagBytesOf o ≤ x →
            Mem.read (t.core site).pad x = Mem.read (s.core site).pad x) ∧
        (∀ k, (t.core site).isFull k = if k ∈ slotsOf (tagAddrOf th o) (tagBytesOf o)
          then set.getD ((s.core site).isFull k) else (s.core site).isFull k)) ∧
  (
    ∀ (i : Instr) (a : ThreadAt) (s : State) (site : Nat) (o : TagOp) (load : Bool) (set : Option Bool) (th : Thread),
      threadOf i = some a → Issues i a s site → tagRule i = some (o, load, set) → th = s.thr site a.t →
      tagAddrOf th o % tagBytesOf o = 0 → padBase ≤ tagAddrOf th o → tagAddrOf th o < 2 ^ 40 →
      regionKind (s.core site) (tagAddrOf th o) = 1 →
      ¬ TagServed (s.core site) s.now { classA := th.cls == 1, order := (s.core site).waitOrder, kind := tagKind load set
                                        slots := slotsOf (tagAddrOf th o) (tagBytesOf o) } →
      ∃ s', exec i s = .next s' ∧ (s'.thr site a.t).st = .block ∧ (s'.thr site a.t).pc = th.pc ∧
        (s'.thr site a.t).x = th.x ∧ (s'.thr site a.t).f = th.f ∧ (s'.thr site a.t).v = th.v ∧
        (s'.core site).pad = (s.core site).pad ∧ (s'.core site).full = (s.core site).full ∧ s'.mem = s.mem) ∧
  (
    ∀ (a : ThreadAt) (s : State) (site : Nat), s.siteOf a.row.toNat a.col.toNat = some site →
      ((s.thr site a.t).block = .served →
        exec (.taggedAccessGrant a) s = .next (s.setThr site a.t
          ({ s.thr site a.t with st := .run, block := .none } : Thread).retire)) ∧
      (∀ w, (s.thr site a.t).block = .tagged w →
        let served := inTime (s.thr site a.t) s.now ∧
          TagServed (s.core site) s.now { classA := (s.thr site a.t).cls == 1, order := w.order, kind := w.kind
                                          slots := w.slots }
        (¬ served → exec (.taggedAccessGrant a) s = .next s) ∧
        (served → ∃ t : State,
          exec (.taggedAccessGrant a) s = .next (if w.kind = 0 ∨ w.kind = 2 then t.arbitrate site else t) ∧
          (t.thr site a.t).st = .run ∧ (t.thr site a.t).block = .none ∧ t.mem = s.mem ∧ t.now = s.now ∧
          (∀ ad b, w.act = .store ad b → (t.thr site a.t) = (s.thr site a.t).unblock ∧
            ∀ k, k < b.length → Mem.read (t.core site).pad (ad.toNat - padBase + k) = b.getD k 0) ∧
          (∀ k, (t.core site).isFull k = if k ∈ w.slots then
              (if w.kind = 0 then false else if w.kind = 2 then true else (s.core site).isFull k)
            else (s.core site).isFull k)))) ∧
  (
    ∀ (s : State) (site : Nat),
      ((∀ w ∈ (s.core site).waiters s.now, ¬ tagReady (s.core site) w) → s.arbitrate site = s) ∧
      ((∃ w ∈ (s.core site).waiters s.now, tagReady (s.core site) w) →
        ∃ w ∈ (s.core site).waiters s.now, tagReady (s.core site) w ∧
          (∀ v ∈ (s.core site).waiters s.now, tagReady (s.core site) v → ¬ goesFirst v w) ∧
          s.arbitrate site =
            (s.serveWaiter site w).arbitrateN site (((s.core site).waiters s.now).length - 1)) ∧
      (∀ (w : Waiter) (b : TagWait), w.row = none → (s.thr site w.thread).block = .tagged b →
        (s.serveWaiter site w).mem = s.mem ∧ ((s.serveWaiter site w).thr site w.thread).block = .served ∧
        ((s.serveWaiter site w).thr site w.thread).pc = (s.thr site w.thread).pc ∧
        (∀ ad l, b.act = .store ad l → ∀ k, k < l.length →
          Mem.read ((s.serveWaiter site w).core site).pad (ad.toNat - padBase + k) = l.getD k 0) ∧
        ∀ k, ((s.serveWaiter site w).core site).isFull k = if k ∈ b.slots then
            (if b.kind = 0 then false else if b.kind = 2 then true else (s.core site).isFull k)
          else (s.core site).isFull k)) ∧
  (
    ∀ (i : Instr) (a : ThreadAt) (s : State) (site : Nat) (o : TagOp) (load : Bool) (set : Option Bool) (th : Thread)
      (v : Nat),
      threadOf i = some a → Issues i a s site → tagRule i = some (o, load, set) → th = s.thr site a.t → v = tagAddrOf th o →
      (v % tagBytesOf o ≠ 0 → exec i s = .next (s.raise site a.t { cause := 0x04, addr := BitVec.ofNat 64 v })) ∧
      (v % tagBytesOf o = 0 → 0x5A00000000 ≤ v → (v < padBase ∨ 2 ^ 40 ≤ v) →
        exec i s = .next (s.raise site a.t { cause := 0x05, addr := BitVec.ofNat 64 v })) ∧
      (v % tagBytesOf o = 0 → (v < 0x5A00000000 ∨ (padBase ≤ v ∧ v < 2 ^ 40 ∧ regionKind (s.core site) v = 0)) →
        exec i s = .next (s.raise site a.t { cause := 0x32, addr := BitVec.ofNat 64 v })) ∧
      (v % tagBytesOf o = 0 → padBase ≤ v → v < 2 ^ 40 → regionKind (s.core site) v = 2 →
        exec i s = .next (s.raise site a.t { cause := 0x31, addr := BitVec.ofNat 64 v })))

/-- R141 and Table 6-4: TPROBE reads tag and region kind; TSETE empties and TSETF fills the tags of a range of a tagged
region; SZERO zeroes a range of plain or tagged slots and empties its tags.  The range runs over rb slots from the slot
of ra, and lies within the scratchpad.

R142: the arbiter then serves the waiting accesses that the new tags let go ahead.

R153 and Table 6-6: WINV drops the lines of its range from the window cache, every line where rb is 0, and keeps
the others; fills in flight for them are not installed. -/
def Obligations.TagControlAndWindow : Prop :=
  (
    ∀ (a : ThreadAt) (s : State) (site : Nat) (th : Thread) (c : Core), th = s.thr site a.t → c = s.core site →
      (∀ o, Issues (.tprobe a o) a s site → padBase ≤ (th.rx o.ra).toNat → (th.rx o.ra).toNat < 2 ^ 40 →
        exec (.tprobe a o) s = .next (s.setThr site a.t (th.wx o.rd (BitVec.ofNat 64
          ((c.isFull (((th.rx o.ra).toNat - padBase) / 64)).toNat + 2 * regionKind c (th.rx o.ra).toNat))).retire)) ∧
      (∀ (o : RaRb) (lo n : Nat), padBase ≤ (th.rx o.ra).toNat → (th.rx o.ra).toNat < 2 ^ 40 →
        lo = ((th.rx o.ra).toNat - padBase) / 64 → n = (th.rx o.rb).toNat → 1 ≤ n → lo + n ≤ 8192 →
        ((∀ k, lo ≤ k → k < lo + n → c.kindAt (64 * k) = 1) →
          (Issues (.tsete a o) a s site → ∃ s' : State, exec (.tsete a o) s = .next (s'.arbitrate site) ∧ s'.thr site a.t = th.retire ∧
            (s'.core site).pad = c.pad ∧ s'.mem = s.mem ∧
            ∀ k, (s'.core site).isFull k = (c.isFull k && !decide (lo ≤ k ∧ k < lo + n))) ∧
          (Issues (.tsetf a o) a s site → ∃ s' : State, exec (.tsetf a o) s = .next (s'.arbitrate site) ∧ s'.thr site a.t = th.retire ∧
            (s'.core site).pad = c.pad ∧ s'.mem = s.mem ∧
            ∀ k, (s'.core site).isFull k = (c.isFull k || decide (lo ≤ k ∧ k < lo + n)))) ∧
        ((∀ k, lo ≤ k → k < lo + n → c.kindAt (64 * k) ≠ 2) →
          (Issues (.szero a o) a s site → ∃ s' : State, exec (.szero a o) s = .next (s'.arbitrate site) ∧ s'.thr site a.t = th.retire ∧
            s'.mem = s.mem ∧
            (∀ x, Mem.read (s'.core site).pad x =
              if 64 * lo ≤ x ∧ x < 64 * (lo + n) then 0 else Mem.read c.pad x) ∧
            ∀ k, (s'.core site).isFull k = (c.isFull k && !decide (lo ≤ k ∧ k < lo + n)))))) ∧
  (
    ∀ (a : ThreadAt) (o : RaRb) (s : State) (site : Nat) (th : Thread), th = s.thr site a.t →
      Issues (.winv a o) a s site →
      ∃ s', exec (.winv a o) s = .next s' ∧ s'.thr site a.t = th.retire ∧ s'.mem = s.mem ∧
        (∀ e, e ∈ (s'.core site).wc ↔ e ∈ (s.core site).wc ∧ (th.rx o.rb).toNat ≠ 0 ∧
          ¬ (64 * e.2.line < (th.rx o.ra).toNat + (th.rx o.rb).toNat ∧ (th.rx o.ra).toNat < 64 * e.2.line + 64)) ∧
        (∀ f ∈ (s'.core site).fills, ((th.rx o.rb).toNat = 0 ∨ (64 * f.line < (th.rx o.ra).toNat + (th.rx o.rb).toNat ∧
          (th.rx o.ra).toNat < 64 * f.line + 64)) → f.noInstall = true))

/-- R152, R153 and Table 6-6: a volatile load, or an atomic, of an aligned address of stack memory sends one request to
the line's home controller, and its register awaits the answer; an atomic drops this core's copy of the line.  Elsewhere
both raise ADDRESS, and misaligned MISALIGNED_DATA.

R75 and Table 3-2: FENCE puts its thread into BLOCK at its pc where no deferred fault stands, and FENCE_COMPLETE
lets it go on once its earlier loads, stores and tile operations have ended, and not before. -/
def Obligations.HomeAccesses : Prop :=
  (
    ∀ (i : Instr) (a : ThreadAt) (s : State) (site n : Nat) (ra : BitVec 5) (reg : Option RegRef) (th : Thread) (v : Nat),
      threadOf i = some a → Issues i a s site → homeRule i = some (n, ra, reg) → th = s.thr site a.t →
      v = (th.rx ra).toNat →
      (v % n = 0 → v < 0x5A00000000 → ∃ s' r, exec i s = .next s' ∧ (s'.core site).reqs = (s.core site).reqs ++ [r] ∧
        r.line = v / 64 ∧ r.thread = a.t ∧ r.deadline = s.now + s.classTimeout (clsOf th.cls) ∧
        (s'.thr site a.t).pc = th.retire.pc ∧ s'.mem = s.mem ∧ (s'.core site).pad = (s.core site).pad ∧
        (∀ g, reg = some g → ∃ id, (g, id) ∈ (s'.thr site a.t).waiting) ∧
        (isAtomic i = true → (s'.core site).wcFind (v / 64) = none)) ∧
      (v % n ≠ 0 → exec i s = .next (s.raise site a.t { cause := 0x04, addr := th.rx ra })) ∧
      (v % n = 0 → 0x5A00000000 ≤ v → exec i s = .next (s.raise site a.t { cause := 0x05, addr := th.rx ra }))) ∧
  (
    ∀ (a : ThreadAt) (s : State) (site : Nat) (th : Thread), th = s.thr site a.t →
      (Issues (.fence a) a s site → s.deferred site a.t = none →
        exec (.fence a) s = .next (s.setThr site a.t { th with st := .block, block := .fence })) ∧
      (s.siteOf a.row.toNat a.col.toNat = some site → th.block = .fence →
        ((∀ l ∈ (s.core site).loads, l.thread ≠ a.t) ∧ (∀ r ∈ (s.core site).reqs, r.thread ≠ a.t) ∧
          (∀ p ∈ (s.core site).tileOps, p.thread ≠ a.t) → s.deferred site a.t = none →
          exec (.fenceComplete a) s = .next (s.setThr site a.t ({ th with st := .run, block := .none } : Thread).retire)) ∧
        ((∃ l ∈ (s.core site).loads, l.thread = a.t) ∨ (∃ r ∈ (s.core site).reqs, r.thread = a.t) ∨
          (∃ p ∈ (s.core site).tileOps, p.thread = a.t) → exec (.fenceComplete a) s = .next s)))

/-- R107, R111, R115, R117, R121: TLD and TLDS that do not resume, and TST and TSTS.  Where the thread owns the
register, base and stride are aligned, every row is reached, and a store's rows may be read, the operation joins the tile
port behind the others with its rows still to move, and the thread goes on; a load's rows become invalid and its register
loading, its rows past nrow being zero and valid; a TLD to a tile sets the tags it names.

R119: a TLD or TLDS that resumes loads rows f to nrow - 1, f being the lowest row whose mask bit is clear, and leaves
the rows below f as they are; with no such row below nrow it loads nothing.

R107, R115, R131: a tile load or store whose rows are all reached raises TOWNER with the register's code where its
thread does not own it; else, of a load, TALIGN with the base or stride that fails. -/
def Obligations.TileOperations : Prop :=
  (
    ∀ (i : Instr) (a : ThreadAt) (s : State) (site : Nat) (e : TileAccess) (th : Thread) (c : Core),
      threadOf i = some a → Issues i a s site → tileRule i = some e → th = s.thr site a.t → c = s.core site →
      e.resume = false → c.owns a.t e.code = true → e.aligned th →
      (∀ r, r < e.nrow → rowReached c e.store (e.row th r) (rowBytes e.code)) →
      (e.store = true → MatGood c a.t e.code (List.range e.nrow)) →
      ∃ s' op, exec i s = .next s' ∧ (s'.core site).tileOps = c.tileOps ++ [op] ∧
        op.thread = a.t ∧ op.reg = e.code ∧ op.store = e.store ∧ op.base = th.rx e.ra ∧ op.stride = th.rx e.rb ∧
        op.rows.map (·.1) = List.range e.nrow ∧ (∀ p ∈ op.rows, p.2 = .pending) ∧
        s'.thr site a.t = th.retire ∧ (s'.core site).pad = c.pad ∧ s'.mem = s.mem ∧
        (e.store = true → (s'.core site).mregs = c.mregs) ∧
        (e.store = false → ((s'.core site).mreg e.code).loading = true ∧
          (∀ r, r < e.nrow → ((s'.core site).mreg e.code).valid.getLsbD r = false) ∧
          (∀ r, e.nrow ≤ r → r < 32 → ((s'.core site).mreg e.code).valid.getLsbD r = true ∧
            ∀ k, k < rowBytes e.code → (matRow (s'.core site) e.code r).getD k 0 = 0)) ∧
        (∀ o, i = .tld a o → o.tgt.toNat < 8 →
          ((s'.core site).mreg e.code).fmt = o.fmt ∧ ((s'.core site).mreg e.code).lay = o.lay)) ∧
  (
    ∀ (i : Instr) (a : ThreadAt) (s : State) (site f : Nat) (e : TileAccess) (th : Thread) (c : Core),
      threadOf i = some a → Issues i a s site → tileRule i = some e → th = s.thr site a.t → c = s.core site →
      e.resume = true → c.owns a.t e.code = true → e.aligned th →
      (∀ o, i = .tld a o → o.tgt.toNat < 8 → (c.mreg e.code).fmt = o.fmt ∧ (c.mreg e.code).lay = o.lay) →
      f ≤ 32 → (∀ r, r < f → (c.mreg e.code).valid.getLsbD r = true) →
      (f < 32 → (c.mreg e.code).valid.getLsbD f = false) →
      (∀ r, f ≤ r → r < e.nrow → rowReached c e.store (e.row th r) (rowBytes e.code)) →
      ∃ s', exec i s = .next s' ∧ s'.thr site a.t = th.retire ∧ s'.mem = s.mem ∧
        (∀ r, r < f → ((s'.core site).mreg e.code).valid.getLsbD r = true ∧
          matRow (s'.core site) e.code r = matRow c e.code r) ∧
        (e.nrow ≤ f → (s'.core site).tileOps = c.tileOps) ∧
        (f < e.nrow → ∃ op, (s'.core site).tileOps = c.tileOps ++ [op] ∧
          op.rows.map (·.1) = (List.range (e.nrow - f)).map (· + f) ∧ (∀ p ∈ op.rows, p.2 = .pending))) ∧
  (
    ∀ (i : Instr) (a : ThreadAt) (s : State) (site : Nat) (e : TileAccess) (th : Thread) (c : Core),
      threadOf i = some a → Issues i a s site → tileRule i = some e → th = s.thr site a.t → c = s.core site →
      e.resume = false → (∀ r, r < e.nrow → rowReached c e.store (e.row th r) (rowBytes e.code)) →
      (c.owns a.t e.code = false →
        exec i s = .next (s.raise site a.t { cause := 0x25, addr := BitVec.ofNat 64 e.code.toNat })) ∧
      (c.owns a.t e.code = true → e.store = false → (th.rx e.ra).toNat % e.unit ≠ 0 →
        exec i s = .next (s.raise site a.t { cause := 0x20, addr := th.rx e.ra })) ∧
      (c.owns a.t e.code = true → e.store = false → (th.rx e.ra).toNat % e.unit = 0 →
        ((th.rx e.rb).toNat % e.unit ≠ 0 ∨ 2 ^ 40 ≤ (th.rx e.rb).toNat) →
        exec i s = .next (s.raise site a.t { cause := 0x20, addr := th.rx e.rb })))

/-- R116, R117, R118: TILE_PORT_ROW with a row in the scratchpad.  A load's lowest unfinished row takes the bytes of its
128 or 8 and becomes valid; a store's row puts them into the scratchpad, and nothing else there changes.  With no row to
serve the port does nothing. -/
def Obligations.TilePortMovesRow : Prop :=
  ∀ (k : CoreAt) (s : State) (site r : Nat) (op : TileOp) (c : Core),
    s.siteOf k.row.toNat k.col.toNat = some site → c = s.core site →
    (c.portChoice = none → exec (.tilePortRow k) s = .next s) ∧
    (c.portChoice = some (op, r) → padBase ≤ op.rowAddr r → op.rowAddr r + op.rowSize ≤ 2 ^ 40 → r < 32 →
      (∀ j, j < op.rowSize → regionKind c (op.rowAddr r + j) = 0 ∧ (op.rowAddr r - padBase + j) / 8 ∉ c.padBad) →
      ∀ (pre post : List (Nat × RowSt)), op.rows = pre ++ (r, .pending) :: post →
      (∀ p ∈ pre, p.2 = .written ∧ p.1 < r) → (∀ p ∈ post, p.2 = .pending ∧ r < p.1) →
      ∃ s', exec (.tilePortRow k) s = .next s' ∧ s'.mem = s.mem ∧
        (op.store = false → (s'.core site).pad = c.pad ∧ ((s'.core site).mreg op.reg).valid.getLsbD r = true ∧
          ∀ j, j < op.rowSize → (matRow (s'.core site) op.reg r).getD j 0 = Mem.read c.pad (op.rowAddr r - padBase + j)) ∧
        (op.store = true → ∀ x, Mem.read (s'.core site).pad x =
          if op.rowAddr r - padBase ≤ x ∧ x < op.rowAddr r - padBase + op.rowSize
          then (matRow c op.reg r).getD (x - (op.rowAddr r - padBase)) 0 else Mem.read c.pad x))

/-- R107, R114, R121, R130 and Table 5-9: TSCW, TSCF, TWR, TRD, TRL and TZ of a register that the thread owns, and whose
rows may be read where the word reads them. -/
def Obligations.TileMoveWords : Prop :=
  ∀ (a : ThreadAt) (s : State) (site : Nat) (th : Thread) (c : Core), th = s.thr site a.t → c = s.core site →
    (∀ o, Issues (.tscw a o) a s site → c.owns a.t (scaleCodeOf o.sc) = true →
      ∃ s', exec (.tscw a o) s = .next s' ∧ s'.thr site a.t = th.retire ∧ s'.mem = s.mem ∧
        ((s'.core site).mreg (scaleCodeOf o.sc)).valid = BitVec.allOnes 32 ∧
        ∀ r j, r < 32 → j < 8 → ((matRow (s'.core site) (scaleCodeOf o.sc) r).getD j 0).toNat =
          if j = (th.rx o.rb).toNat % 8 then byteV (th.rv o.va) r
          else ((matRow c (scaleCodeOf o.sc) r).getD j 0).toNat) ∧
    (∀ o, Issues (.tscf a o) a s site → c.owns a.t (scaleCodeOf o.sc) = true →
      ∃ s', exec (.tscf a o) s = .next s' ∧ s'.thr site a.t = th.retire ∧ s'.mem = s.mem ∧
        ((s'.core site).mreg (scaleCodeOf o.sc)).valid = BitVec.allOnes 32 ∧
        ∀ r j, r < 32 → j < 8 → ((matRow (s'.core site) (scaleCodeOf o.sc) r).getD j 0).toNat = (th.rx o.ra).toNat % 256) ∧
    (∀ o r, Issues (.twr a o) a s site → c.owns a.t (tileCode o.td) = true → r = (th.rx o.rb).toNat % 32 →
      ∃ s', exec (.twr a o) s = .next s' ∧ s'.thr site a.t = th.retire ∧ s'.mem = s.mem ∧
        ((s'.core site).mreg (tileCode o.td)).fmt = o.fmt ∧ ((s'.core site).mreg (tileCode o.td)).lay = o.lay ∧
        (∀ j, j < 128 → ((matRow (s'.core site) (tileCode o.td) r).getD j 0).toNat = byteV (th.rv o.va) j) ∧
        (∀ q, q < 32 → ((s'.core site).mreg (tileCode o.td)).valid.getLsbD q =
          (decide (q = r) || (decide ((c.mreg (tileCode o.td)).fmt = o.fmt ∧ (c.mreg (tileCode o.td)).lay = o.lay) &&
            (c.mreg (tileCode o.td)).valid.getLsbD q)))) ∧
    (∀ o r, Issues (.trd a o) a s site → r = (th.rx o.rb).toNat % 32 → MatGood c a.t (tileCode o.ts) [r] →
      ∃ v, exec (.trd a o) s = .next (s.setThr site a.t (th.wv o.vd v).retire) ∧
        ∀ j, j < 128 → byteV v j = ((matRow c (tileCode o.ts) r).getD j 0).toNat) ∧
    (∀ o, Issues (.trl a o) a s site → MatGood c a.t (tileCode o.td) rows32 →
      ∃ s', exec (.trl a o) s = .next s' ∧ s'.thr site a.t = th.retire ∧ s'.mem = s.mem ∧
        ((s'.core site).mreg (tileCode o.td)).lay = o.lay ∧
        ((s'.core site).mreg (tileCode o.td)).fmt = (c.mreg (tileCode o.td)).fmt ∧
        ∀ r j, r < 32 → j < 128 → (matRow (s'.core site) (tileCode o.td) r).getD j 0 =
          (matRow c (tileCode o.td) r).getD j 0) ∧
    (∀ o, Issues (.tz a o) a s site → c.owns a.t (tileCode o.td) = true →
      ∃ s', exec (.tz a o) s = .next s' ∧ s'.thr site a.t = th.retire ∧ s'.mem = s.mem ∧
        ((s'.core site).mreg (tileCode o.td)).fmt = o.fmt ∧ ((s'.core site).mreg (tileCode o.td)).lay = o.lay ∧
        ((s'.core site).mreg (tileCode o.td)).valid = BitVec.allOnes 32 ∧
        ∀ r j, r < 32 → j < 128 → (matRow (s'.core site) (tileCode o.td) r).getD j 0 = 0)

/-- R112, R113, R122, R124: an MMA whose registers are owned and readable, and whose tiles carry the format it names and
layouts AIL and BIL, takes the engine; MMA_COMPLETE frees the engine, and in INT8 adds to each accumulator value (m, n)
the sum over k of A(m, k) x B(n, k), modulo 2^32, from zero in the zero form; no row of the accumulator stays invalid.

R126 and Table 5-7: AMAX, AMIN, ASCR and ASUBR replace each value of the accumulator, and the flags of every value
gather; AZERO zeroes it and clears its poison; ACOPY copies bits.

R88, R126 and Table 5-7: ARD and AWR move a row between an accumulator and a vector register; ARMAX and ARMIN put
the maximum or minimum of row r into lane r. -/
def Obligations.MatrixEngine : Prop :=
  (
    ∀ (a : ThreadAt) (o : MmaOp) (s : State) (site : Nat) (c : Core), c = s.core site →
      (Issues (.mma a o) a s site → c.owns a.t (accCode o.acd) = true →
        (o.zero = false → MatGood c a.t (accCode o.acd) rows32) →
        MatGood c a.t (tileCode o.ta) rows32 → MatGood c a.t (tileCode o.tb) rows32 →
        (o.mx = true → MatGood c a.t (scaleCodeOf o.sa) rows32 ∧ MatGood c a.t (scaleCodeOf o.sb) rows32) →
        (c.mreg (tileCode o.ta)).fmt = o.fmt → (c.mreg (tileCode o.tb)).fmt = o.fmt →
        (c.mreg (tileCode o.ta)).lay = 1 → (c.mreg (tileCode o.tb)).lay = 2 →
        ∃ s', exec (.mma a o) s = .next s' ∧ (s'.core site).mma = some { thread := a.t, op := o } ∧
          s'.thr site a.t = (s.thr site a.t).retire ∧ (s'.core site).mregs = c.mregs ∧ s'.mem = s.mem) ∧
      (∀ (k : CoreAt) (bad : Bool), s.siteOf k.row.toNat k.col.toNat = some site →
        c.mma = some { thread := a.t, op := o } →
        ∃ s', exec (.mmaComplete k bad) s = .next s' ∧ (s'.core site).mma = none ∧ s'.mem = s.mem ∧
          ((s'.core site).mreg (accCode o.acd)).valid = BitVec.allOnes 32 ∧
          ((s'.core site).mreg (accCode o.acd)).poisoned = (o.chk && bad) ∧
          (∀ r, r ≠ accCode o.acd → (s'.core site).mreg r = c.mreg r) ∧
          (o.mx = false → o.fmt = 9 → ∀ m n, m < 32 → n < 32 →
            (accAt (s'.core site) (accCode o.acd) m n : Int) =
              ((if o.zero then 0 else (accAt c (accCode o.acd) m n : Int)) +
                sumInt (fun q => int8At c (tileCode o.ta) m q * int8At c (tileCode o.tb) n q) 128) % 2 ^ 32))) ∧
  (
    ∀ (a : ThreadAt) (s : State) (site : Nat) (th : Thread) (c : Core), th = s.thr site a.t → c = s.core site →
      (∀ (i : Instr) (acd : BitVec 2) (src : List (BitVec 4)) (g : Nat → Nat → Nat × Flags),
        threadOf i = some a → Issues i a s site → accRule i c th = some (acd, src, g) →
        MatGood c a.t (accCode acd) rows32 → (∀ r ∈ src, MatGood c a.t r rows32) →
        ∃ s', exec i s = .next s' ∧ s'.mem = s.mem ∧ (s'.thr site a.t).pc = th.retire.pc ∧ (s'.thr site a.t).x = th.x ∧
          (∀ r, r ≠ accCode acd → (s'.core site).mreg r = c.mreg r) ∧
          (∀ r n, r < 32 → n < 32 → accAt (s'.core site) (accCode acd) r n = (g r n).1 % 2 ^ 32 ∧
            (s'.thr site a.t).flags &&& (g r n).2 = (g r n).2) ∧
          (s'.thr site a.t).flags &&& th.flags = th.flags) ∧
      (∀ o, Issues (.azero a o) a s site → c.owns a.t (accCode o.acd) = true →
        ∃ s', exec (.azero a o) s = .next s' ∧ s'.thr site a.t = th.retire ∧ s'.mem = s.mem ∧
          ((s'.core site).mreg (accCode o.acd)).poisoned = false ∧
          ((s'.core site).mreg (accCode o.acd)).valid = BitVec.allOnes 32 ∧
          ∀ r n, r < 32 → n < 32 → accAt (s'.core site) (accCode o.acd) r n = 0) ∧
      (∀ o, Issues (.acopy a o) a s site → c.owns a.t (accCode o.acd) = true → MatGood c a.t (accCode o.acs) rows32 →
        ∃ s', exec (.acopy a o) s = .next s' ∧ s'.thr site a.t = th.retire ∧ s'.mem = s.mem ∧
          ∀ r n, r < 32 → n < 32 → accAt (s'.core site) (accCode o.acd) r n = accAt c (accCode o.acs) r n)) ∧
  (
    ∀ (a : ThreadAt) (s : State) (site : Nat) (th : Thread) (c : Core), th = s.thr site a.t → c = s.core site →
      (∀ o r, Issues (.ard a o) a s site → r = (th.rx o.rb).toNat % 32 → MatGood c a.t (accCode o.acs) [r] →
        ∃ v, exec (.ard a o) s = .next (s.setThr site a.t (th.wv o.vd v).retire) ∧
          ∀ n, n < 32 → laneV false v n = accAt c (accCode o.acs) r n) ∧
      (∀ o r, Issues (.awr a o) a s site → r = (th.rx o.rb).toNat % 32 → c.owns a.t (accCode o.acd) = true →
        ∃ s', exec (.awr a o) s = .next s' ∧ s'.thr site a.t = th.retire ∧ s'.mem = s.mem ∧
          ((s'.core site).mreg (accCode o.acd)).valid.getLsbD r = true ∧
          (∀ n, n < 32 → accAt (s'.core site) (accCode o.acd) r n = laneV false (th.rv o.va) n) ∧
          ∀ q n, q < 32 → q ≠ r → n < 32 →
            accAt (s'.core site) (accCode o.acd) q n = accAt c (accCode o.acd) q n) ∧
      (∀ (isMax : Bool) (o : AredOp), MatGood c a.t (accCode o.acs) rows32 →
        Issues (if isMax then .armax a o else .armin a o) a s site →
        ∃ s', exec (if isMax then .armax a o else .armin a o) s = .next s' ∧ s'.mem = s.mem ∧
          (s'.core site).mregs = c.mregs ∧ (s'.thr site a.t).x = th.x ∧
          ∀ r, r < 32 → laneV false ((s'.thr site a.t).rv o.vd) r =
            (chain (binary32.minMax isMax) 0x7FC00000 ((List.range 32).map (accAt c (accCode o.acs) r))).1 % 2 ^ 32))

/-- R71, R72, R148: WINDOW_CACHE_FILL.  The line that answers a fill is installed where WINV and a plan switch left it and
no earlier fill did, with the stores that left meanwhile; its request ends, so that neither it nor its fill is awaited
any more.  With no such response it does nothing.

R152, R210, R211: MEMORY_RESPONSE.  A response ends the request that it answers; an error of a store is kept for the
thread's FENCE, a good one leaves nothing.  REQUEST_DEADLINE ends it as an error, chip time standing at the deadline or
after.

R116, R118: TILE_ROW_RESPONSE.  The last line that a load's last row awaits, without an error, lets the row arrive: its
bytes are in the register, and the load ends.  A response with an error faults the row, which then ends the load with the
row's address in the register.

R139, R142, R144, R318: DEPOSIT, SCRUB_PERIOD_START and SCRUB_SLOT_READ.  A deposit writes its slot whole, uncorrectable
words included, and fills its tag, so that the arbiter serves what waits for it; it is refused, and counted, at a full
tagged slot.  The scrubber starts at most once in an epoch that begins a period, and reads slot after slot, changing no
data and no tag. -/
def Obligations.ResponsesReachCores : Prop :=
  (
    ∀ (k : CoreAt) (s : State) (site : Nat) (c : Core), s.siteOf k.row.toNat k.col.toNat = some site → c = s.core site →
      ((∀ f ∈ c.memIn, c.answers ReqKind.isFill f = false) → exec (.windowCacheFill k) s = .next s) ∧
      (∀ f rest r id, c.memIn = f :: rest → c.reqOf f = some r → r.kind = .fill id →
        ∃ s', exec (.windowCacheFill k) s = .next s' ∧ (s'.core site).memIn = rest ∧ s'.mem = s.mem ∧
          (s'.core site).reqs = c.reqs.erase r ∧ (s'.core site).pad = c.pad ∧
          (∀ fl, c.fills.find? (fun g => g.txn == r.txn) = some fl → fl.noInstall = false → c.wcFind fl.line = none →
            respGood f = true →
            ∃ w ∈ (s'.core site).wc, w.2.line = fl.line ∧ w.2.bad = [] ∧
              w.2.data = overlay f.payload fl.line (fl.early ++ fl.stores)) ∧
          ∀ l ∈ (s'.core site).loads, l.id = id → r.line ∉ l.want)) ∧
  (
    ∀ (k : CoreAt) (s : State) (site : Nat) (c : Core) (r : Req) (ad : W64),
      s.siteOf k.row.toNat k.col.toNat = some site → c = s.core site → r.kind = .store ad →
      (∀ f rest, c.memIn = f :: rest → f.kind ≠ 8 → c.reqOf f = some r →
        ∃ s', exec (.memoryResponse k) s = .next s' ∧ (s'.core site).memIn = rest ∧
          (s'.core site).reqs = c.reqs.erase r ∧ s'.mem = s.mem ∧
          (s'.thr site r.thread).storeErr =
            (if respGood f then (s.thr site r.thread).storeErr else (s.thr site r.thread).storeErr.or (some ad))) ∧
      (r.txn < 4096 → c.reqs.find? (fun q => (if q.kind.isBurst then 8192 + q.txn else q.txn) == r.txn) = some r →
        ∃ s', exec (.requestDeadline k r.txn) s = .next s' ∧ (s'.core site).reqs = c.reqs.erase r ∧ s'.mem = s.mem ∧
          (s'.thr site r.thread).storeErr = (s.thr site r.thread).storeErr.or (some ad) ∧
          (r.deadline < 2 ^ 64 → s'.now = max s.now r.deadline))) ∧
  (
    ∀ (k : CoreAt) (s : State) (site op row : Nat) (c : Core) (f : Flit) (rest : List Flit) (r : Req),
      s.siteOf k.row.toNat k.col.toNat = some site → c = s.core site → c.memIn = f :: rest → c.reqOf f = some r →
      r.kind = .tileFill op row →
      ∃ s', exec (.tileRowResponse k) s = .next s' ∧ (s'.core site).memIn = rest ∧ (s'.core site).reqs = c.reqs.erase r ∧
        (s'.core site).pad = c.pad ∧ s'.mem = s.mem ∧
        (∀ p want got, c.tileOps.find? (·.id == op) = some p → p.store = false → p.rows = [(row, .lines want got)] →
          (respGood f = true → ∀ l ∈ want, l = r.line) →
          (s'.core site).tileOps = c.tileOps.filter (·.id != op) ∧ ((s'.core site).mreg p.reg).loading = false ∧
            (respGood f = false →
              ((s'.core site).mreg p.reg).rowFault = some (BitVec.ofNat 64 (p.rowAddr row))) ∧
            (respGood f = true → row < 32 → p.rowAddr row % min p.rowSize 64 = 0 →
              ((s'.core site).mreg p.reg).valid.getLsbD row = true ∧
              ∀ j, j < p.rowSize → (matRow (s'.core site) p.reg row).getD j 0 =
                byteL (if (p.rowAddr row + j) / 64 = r.line then c.fillData r f.payload
                  else got.at ((p.rowAddr row + j) / 64) 0) ((p.rowAddr row + j) % 64)))) ∧
  (
    ∀ (k : CoreAt) (s : State) (site : Nat) (c : Core), s.siteOf k.row.toNat k.col.toNat = some site → c = s.core site →
      (∀ f rest slot, c.memIn = f :: rest → f.kind = 8 → slot = f.addr.toNat % 2 ^ 19 / 64 →
        (¬ (c.kindAt (64 * slot) = 1 ∧ c.isFull slot = true) →
          ∃ t : State, exec (.deposit k) s =
              .next (deposited s site f (if c.kindAt (64 * slot) = 1 then t.arbitrate site else t)) ∧
            t.mem = s.mem ∧ t.now = s.now ∧ (t.core site).memIn = rest ∧
            (∀ x, (Mem.read (t.core site).pad x).toNat = if 64 * slot ≤ x ∧ x < 64 * slot + 64
              then f.payload.toNat / 2 ^ (8 * (x - 64 * slot)) % 256 else (Mem.read c.pad x).toNat) ∧
            (∀ w, w ∈ (t.core site).padBad ↔ if 8 * slot ≤ w ∧ w < 8 * slot + 8 then f.bad.getLsbD (w - 8 * slot) = true
              else w ∈ c.padBad) ∧
            (c.kindAt (64 * slot) = 1 → (t.core site).isFull slot = true) ∧
            (∀ q, q ≠ slot → (t.core site).isFull q = c.isFull q)) ∧
        (c.kindAt (64 * slot) = 1 → c.isFull slot = true →
          ∃ t : State, exec (.deposit k) s = .next (deposited s site f t) ∧ t.mem = s.mem ∧
            (t.core site).memIn = rest ∧ (t.core site).pad = c.pad ∧ (t.core site).full = c.full ∧
            (t.events.at (0x087 * 1024 + site) {}).count = (s.events.at (0x087 * 1024 + site) {}).count + 1)) ∧
      (c.scrubAt = some s.epoch → exec (.scrubPeriodStart k) s = .next s) ∧
      (s.epoch % s.boot.rs.scrubEpochs = 0 → c.scrubAt ≠ some s.epoch → c.scrubRun = false →
        ∃ s', exec (.scrubPeriodStart k) s = .next s' ∧ (s'.core site).scrubRun = true ∧ (s'.core site).nextSlot = 0 ∧
          (s'.core site).scrubAt = some s.epoch ∧
          (s'.core site).pad = c.pad ∧ (s'.core site).full = c.full ∧ s'.events = s.events) ∧
      (s.epoch % s.boot.rs.scrubEpochs = 0 → c.scrubAt ≠ some s.epoch → c.scrubRun = true →
        ∃ s', exec (.scrubPeriodStart k) s = .next s' ∧ (s'.core site).scrubPending = true ∧
          (s'.core site).scrubAt = some s.epoch ∧
          (s'.events.at (0x089 * 1024 + site) {}).count = (s.events.at (0x089 * 1024 + site) {}).count + 1) ∧
      (c.scrubRun = true → ∃ s', exec (.scrubSlotRead k) s = .next s' ∧ (s'.core site).pad = c.pad ∧
        (s'.core site).full = c.full ∧ s'.mem = s.mem ∧
        (c.nextSlot < 8191 → (s'.core site).nextSlot = c.nextSlot + 1 ∧ (s'.core site).passes = c.passes) ∧
        (c.nextSlot = 8191 → (s'.core site).nextSlot = 0 ∧ (s'.core site).passes = c.passes + 1 ∧
          (s'.core site).scrubRun = c.scrubPending) ∧
        (∀ w, 8 * c.nextSlot ≤ w → w < 8 * c.nextSlot + 8 → w ∉ (s'.core site).padFlip)))

/-- R156, R168 and Table 7-9: a SEND that meets no fault.  With an entry of its class free it takes the entry, reads its
send_seq into rd, and the next send_seq is one more; with none free its thread blocks at its pc.  SEND_RESUME lets a
blocked SEND take an entry once one is free.  Memory and scratchpad stay.

R168, R182 and Table 7-9: SEND raises MISALIGNED_DATA where its image is not 64 B aligned, ADDRESS where the image
is not in this scratchpad, SENDCLASS where it names a class above its thread's, SENDDEST where Table 7-6 rejects its
destination, SENDIMAGE where the image's version is not 1; in this order.

R168, R169, R171, R268: SCION_INJECT offers the oldest waiting scion of a class whose turn it is, with the class
timeout; one that has no route ends with NOROUTE: EV_SCN_BOUNCE counts it, the bounce record tells of it, and its entry
is free. -/
def Obligations.SendsAndOffers : Prop :=
  (
    ∀ (a : ThreadAt) (o : SendOp) (s : State) (site : Nat) (th : Thread) (c : Core), th = s.thr site a.t → c = s.core site →
      let room := (c.sends.filter fun e => e.cls == clsOf o.cls).length < (if clsOf o.cls = .a then 4 else 16)
      let taken := fun (s' : State) => ∃ e, (s'.core site).sends = c.sends ++ [e] ∧ e.cls = clsOf o.cls ∧
        e.dest = th.rx o.rb ∧ e.thread = a.t ∧ e.seq = th.sendSeq ∧ e.st = .waiting ∧ e.retries = 0 ∧
        (s'.thr site a.t).sendSeq = th.sendSeq + 1 ∧
        (o.rd ≠ 0 → (s'.thr site a.t).rx o.rd = BitVec.ofNat 64 th.sendSeq.toNat) ∧
        (s'.core site).pad = c.pad ∧ s'.mem = s.mem
      (Issues (.send a o) a s site → s.sendFault c a.t th o = none →
        (room → ∃ s', exec (.send a o) s = .next s' ∧ taken s' ∧ (s'.thr site a.t).pc = th.retire.pc) ∧
        (¬ room → exec (.send a o) s = .next (s.setThr site a.t { th with st := .block, block := .send o }))) ∧
      (s.siteOf a.row.toNat a.col.toNat = some site → th.block = .send o →
        (room → ∃ s', exec (.sendResume a) s = .next s' ∧ taken s' ∧ (s'.thr site a.t).st = .run ∧
          (s'.thr site a.t).block = .none) ∧
        (¬ room → exec (.sendResume a) s = .next s))) ∧
  (
    ∀ (a : ThreadAt) (o : SendOp) (s : State) (site v : Nat) (th : Thread) (c : Core),
      Issues (.send a o) a s site → th = s.thr site a.t → c = s.core site → v = (th.rx o.ra).toNat →
      (v % 64 ≠ 0 → exec (.send a o) s = .next (s.raise site a.t { cause := 0x04, addr := th.rx o.ra })) ∧
      (v % 64 = 0 → (v < padBase ∨ 2 ^ 40 ≤ v) →
        exec (.send a o) s = .next (s.raise site a.t { cause := 0x05, addr := th.rx o.ra })) ∧
      (v % 64 = 0 → padBase ≤ v → v + 320 ≤ 2 ^ 40 → hdrLength (Mem.readN c.pad (v - padBase) 64) ≤ 256 →
        (o.cls.toNat < th.cls.toNat →
          exec (.send a o) s = .next (s.raise site a.t { cause := 0x43, addr := BitVec.ofNat 64 o.cls.toNat })) ∧
        (th.cls.toNat ≤ o.cls.toNat → s.destOk (th.rx o.rb) (if o.rc = 0 then none else some (th.rx o.rc)) = false →
          exec (.send a o) s = .next (s.raise site a.t { cause := 0x41, addr := th.rx o.rb })) ∧
        (th.cls.toNat ≤ o.cls.toNat → s.destOk (th.rx o.rb) (if o.rc = 0 then none else some (th.rx o.rc)) = true →
          hdrVersion (Mem.readN c.pad (v - padBase) 64) ≠ 1 →
          exec (.send a o) s = .next (s.raise site a.t { cause := 0x42, addr := th.rx o.ra })))) ∧
  (
    ∀ (k : CoreAt) (cls : Cls) (s : State) (site : Nat) (c : Core) (e : SendEntry),
      s.siteOf k.row.toNat k.col.toNat = some site → c = s.core site →
      c.sends.find? (fun x => x.cls == cls && x.st == .waiting) = some e → c.sendTurn cls = true →
      (∀ dst, s.sendDst e = some dst →
        ∃ s' e', exec (.scionInject k cls) s = .next s' ∧ e' ∈ (s'.core site).sends ∧ e'.cls = e.cls ∧ e'.slot = e.slot ∧
          (∃ txn, e'.st = .offered txn (s.now + s.classTimeout cls)) ∧ e'.image = e.image ∧ e'.seq = e.seq ∧
          (s'.core site).sends.length = c.sends.length ∧ (s'.core site).pad = c.pad ∧ s'.mem = s.mem) ∧
      (s.sendDst e = none →
        ∃ s', exec (.scionInject k cls) s = .next s' ∧
          (∀ x ∈ (s'.core site).sends, ¬ (x.cls = e.cls ∧ x.slot = e.slot)) ∧
          (s'.events.at (0x091 * 1024 + site) {}).count = (s.events.at (0x091 * 1024 + site) {}).count + 1 ∧
          (∃ b, (s'.core site).bounce = some b ∧ b.code = 14 ∧ b.seq = e.seq ∧ b.dest = e.dest ∧ b.thread = e.thread) ∧
          s'.mem = s.mem))

/-- R169, R170: SCION_RESPONSE to the offer of a scion of one destination.  ACCEPTED (0) and SPILLED (1) free its entry;
FULL (2) and PARTIAL (3) hold it for the delay of its next retry while retries are left; every other code, the last
retry, or class A, which is never retried (R173), ends it with a bounce.

R169, R170, R211: SCION_RETRY lets a delayed scion wait to be offered again, its retries one more, and counts it;
SCION_OFFER_TIMEOUT ends an offer with TIMEOUT, chip time standing at its deadline or after. -/
def Obligations.ScionAnswers : Prop :=
  (
    ∀ (k : CoreAt) (s : State) (site txn dl code : Nat) (c : Core) (e : SendEntry) (f : Flit) (rest : List Flit),
      s.siteOf k.row.toNat k.col.toNat = some site → c = s.core site → c.respIn = f :: rest → f.bad = 0 →
      c.sends.find? (fun x => match x.st with
        | .offered t _ => t == f.txn.toNat
        | _ => false) = some e → e.st = .offered txn dl → e.span = none →
      code = f.payload.toNat / 2 ^ 32 % 16 →
      let free := fun (s' : State) => ∀ x, x ∈ (s'.core site).sends ↔ x ∈ c.sends ∧ ¬ (x.cls = e.cls ∧ x.slot = e.slot)
      (code ≤ 1 → ∃ s', exec (.scionResponse k) s = .next s' ∧ (s'.core site).respIn = rest ∧ free s' ∧
        s'.events = s.events ∧ s'.mem = s.mem) ∧
      (code = 2 ∨ code = 3 → e.cls ≠ .a → e.retries < c.retryMax e.cls →
        ∃ s' e' n, exec (.scionResponse k) s = .next s' ∧ (s'.core site).respIn = rest ∧ e' ∈ (s'.core site).sends ∧
          e'.slot = e.slot ∧ e'.cls = e.cls ∧ e'.st = .delay n ∧ e'.retries = e.retries ∧
          64 * 2 ^ min e.retries 7 ≤ n ∧ n < 64 * 2 ^ min e.retries 7 + 64 ∧ s'.mem = s.mem) ∧
      (4 ≤ code ∨ ((code = 2 ∨ code = 3) ∧ (e.cls = .a ∨ c.retryMax e.cls ≤ e.retries)) →
        ∃ s', exec (.scionResponse k) s = .next s' ∧ (s'.core site).respIn = rest ∧ free s' ∧
          (s'.events.at (0x091 * 1024 + site) {}).count = (s.events.at (0x091 * 1024 + site) {}).count + 1 ∧
          ∃ b, (s'.core site).bounce = some b ∧ b.code.toNat = code ∧ b.seq = e.seq ∧ b.dest = e.dest)) ∧
  (
    ∀ (k : CoreAt) (cls : Cls) (entry : Nat) (s : State) (site : Nat) (c : Core) (e : SendEntry),
      s.siteOf k.row.toNat k.col.toNat = some site → c = s.core site →
      c.sends.find? (fun x => x.cls == cls && x.slot == entry) = some e →
      (∀ n, e.st = .delay n → ∃ s', exec (.scionRetry k cls entry) s = .next s' ∧
        { e with st := .waiting, retries := e.retries + 1 } ∈ (s'.core site).sends ∧
        (s'.core site).sends.length = c.sends.length ∧
        (s'.events.at (0x090 * 1024 + site) {}).count = (s.events.at (0x090 * 1024 + site) {}).count + 1) ∧
      (∀ txn dl, e.st = .offered txn dl → e.await = 1 → dl < 2 ^ 64 →
        ∃ s', exec (.scionOfferTimeout k cls entry) s = .next s' ∧
          (∀ x ∈ (s'.core site).sends, ¬ (x.cls = e.cls ∧ x.slot = e.slot)) ∧ s'.now = max s.now dl ∧
          (s'.events.at (0x091 * 1024 + site) {}).count = (s.events.at (0x091 * 1024 + site) {}).count + 1 ∧
          ∃ b, (s'.core site).bounce = some b ∧ b.code = 13 ∧ b.seq = e.seq))

/-- R161, R163, R164, R431: SCION_ARRIVAL and SCION_FLIT_WRITE.  A header that the checks let into a queue takes the
queue's next entry, FILLING, and nothing is written; with the last flit the entry's slots take every flit in turn and it
is READY.  A refused header is counted in EV_SCN_REFUSED and leaves queue and scratchpad as they were.  A later flit out of
sequence or of another class makes its scion MALFORMED: it is counted, and the entry is released.

R165, R166, R209: the last flit of a spilled scion sends its spill burst, with the class timeout.  SPILL_COMMIT: an
acknowledged burst leaves its place held and counts EV_SCN_SPILLED; one refused, or not acknowledged in time, leaves it
void and counts EV_SCN_REFUSED.  REFILL_ENTRY begins to read the oldest spilled scion that has an entry to go to, and once
its lines are back puts it there, READY, or drops and counts it where a line came back with an error.

R174, R175, R176 and Tables 7-4, 7-9, 7-10, 7-13: DISPATCH claims the entry that the classes of its mask offer, rd
taking its address, x31 the link and pc the handler's entry, or leaves 0 in rd; QDONE releases the entry that its thread
has claimed at ra, and raises QRELEASE elsewhere; QSTAT, HENT and SNDSTAT read. -/
def Obligations.ScionQueues : Prop :=
  (
    ∀ (k : CoreAt) (s : State) (site : Nat) (c : Core) (f : Flit) (rest : List Flit) (q : Cls),
      s.siteOf k.row.toNat k.col.toNat = some site → c = s.core site → c.scionIn = f :: rest → f.bad = 0 → f.kind = 0 →
      q = clsOf f.cls →
      (c.arrivals.any (·.is f) = false → c.arrivalCheck f (lineBytes f.payload) = .queue →
        ∃ s', exec (.scionArrival k) s = .next s' ∧ (s'.core site).scionIn = rest ∧ s'.mem = s.mem ∧
          ((s'.core site).queue q).live.length = (c.queue q).live.length + 1 ∧
          (∃ e ∈ ((s'.core site).queue q).live, e.idx = (c.queue q).next ∧
            e.st = if f.last then .ready else .filling) ∧
          (f.last = false → (s'.core site).pad = c.pad ∧ ∃ r ∈ (s'.core site).arrivals,
            r.is f = true ∧ r.kind = .queue (c.queue q).next [f] ∧ r.next = 1) ∧
          (f.last = true → ∀ x, x < 64 → (Mem.read (s'.core site).pad (64 * c.qSlot q (c.queue q).next + x)).toNat =
            f.payload.toNat / 2 ^ (8 * x) % 256)) ∧
      (∀ code, c.arrivals.any (·.is f) = false → c.arrivalCheck f (lineBytes f.payload) = .refuse code →
        ∃ s', exec (.scionArrival k) s = .next s' ∧ (s'.core site).scionIn = rest ∧ s'.mem = s.mem ∧
          (s'.core site).queues = c.queues ∧ (s'.core site).pad = c.pad ∧
          (s'.events.at (0x08B * 1024 + site) {}).count = (s.events.at (0x08B * 1024 + site) {}).count + 1) ∧
      (∀ r e got, c.arrivals.find? (·.is f) = some r → r.kind = .queue e got →
        (f.cls = r.cls ∧ f.index.toNat = r.next ∧ f.last = (r.next + 1 == r.total) →
          ∃ s', exec (.scionFlitWrite k) s = .next s' ∧ (s'.core site).scionIn = rest ∧ s'.mem = s.mem ∧
            (f.last = false → (s'.core site).pad = c.pad ∧ ∃ y ∈ (s'.core site).arrivals,
              y.is f = true ∧ y.kind = .queue e (got ++ [f]) ∧ y.next = r.next + 1) ∧
            (f.last = true → (∀ i g, (got ++ [f])[i]? = some g → ∀ x, x < 64 →
                (Mem.read (s'.core site).pad (64 * (c.qSlot q e + i) + x)).toNat = g.payload.toNat / 2 ^ (8 * x) % 256) ∧
              ∀ y ∈ ((s'.core site).queue q).live, y.idx = e → y.st = .ready)) ∧
        (¬ (f.cls = r.cls ∧ f.index.toNat = r.next ∧ f.last = (r.next + 1 == r.total)) →
          ∃ s', exec (.scionFlitWrite k) s = .next s' ∧ (s'.core site).scionIn = rest ∧ s'.mem = s.mem ∧
            (s'.core site).pad = c.pad ∧
            (∀ y ∈ ((s'.core site).queue (clsOf r.cls)).live, y.idx = e → y.st = .released) ∧
            evCount s' 0x08B site = evCount s 0x08B site + 1 ∧ evCount s' 0x08C site = evCount s 0x08C site + 1)) ∧
      (∀ r idx got, c.arrivals.find? (·.is f) = some r → r.kind = .spill idx got → f.last = true →
        f.cls = r.cls → f.index.toNat = r.next → r.total = r.next + 1 →
        ∃ s' w, exec (.scionFlitWrite k) s = .next s' ∧ (s'.core site).scionIn = rest ∧ s'.mem = s.mem ∧
          (s'.core site).spillWaits = c.spillWaits ++ [w] ∧ w.cls = q ∧ w.idx = idx ∧ w.src = f.src ∧ w.txn = f.txn ∧
          w.deadline = s.now + s.classTimeout q ∧ (s'.core site).pad = c.pad)) ∧
  (
    ∀ (k : CoreAt) (q : Cls) (s : State) (site : Nat) (c : Core), s.siteOf k.row.toNat k.col.toNat = some site →
      c = s.core site →
      let lost := fun (w : SpillWait) (m : List Flit) => ∃ s', exec (.spillCommit k q) s = .next s' ∧ s'.mem = s.mem ∧
        (s'.core site).memIn = m ∧ (s'.core site).spillWaits = c.spillWaits.erase w ∧
        (∀ r ∈ ((s'.core site).queue w.cls).spill, r.idx = w.idx → r.st = .void) ∧
        evCount s' 0x08B site = evCount s 0x08B site + 1
      (∀ f rest w, c.memIn = f :: rest → c.spillOf f = some w → w.cls = q →
        (respGood f = true → ∃ s', exec (.spillCommit k q) s = .next s' ∧ s'.mem = s.mem ∧
          (s'.core site).memIn = rest ∧ (s'.core site).spillWaits = c.spillWaits.erase w ∧
          (∀ r ∈ ((s'.core site).queue w.cls).spill, r.idx = w.idx → r.st = .held) ∧
          evCount s' 0x08E site = evCount s 0x08E site + 1) ∧
        (respGood f = false → lost w rest)) ∧
      ((∀ f ∈ c.memIn, ∀ w, c.spillOf f = some w → w.cls ≠ q) →
        (∀ w, c.spillWaits.find? (fun x => x.lost && x.cls == q) = some w → lost w c.memIn) ∧
        ((∀ w ∈ c.spillWaits, w.lost = true → w.cls ≠ q) → exec (.spillCommit k q) s = .next s)) ∧
      (∀ r, c.refillDone = some r →
        ((∀ x ∈ r.reads, ∃ l, x.got = some (some l)) →
          ∃ s' lines, exec (.refillEntry k) s = .next s' ∧ s'.mem = s.mem ∧ (s'.core site).refills = c.refills.erase r ∧
            lines = r.reads.filterMap (fun x => x.got.join) ∧
            ((s'.core site).queue r.cls).live.length = (c.queue r.cls).live.length + 1 ∧
            (∃ e ∈ ((s'.core site).queue r.cls).live, e.idx = (c.queue r.cls).next ∧ e.st = .ready) ∧
            ∀ i l, i < slotNeed (hdrLength (lines.flatMap fun x => lineBytes x.1)) → lines[i]? = some l → ∀ x, x < 64 →
              (Mem.read (s'.core site).pad (64 * (c.qSlot r.cls (c.queue r.cls).next + i) + x)).toNat =
                l.1.toNat / 2 ^ (8 * x) % 256) ∧
        ((∃ x ∈ r.reads, x.got = some none) →
          ∃ s', exec (.refillEntry k) s = .next s' ∧ s'.mem = s.mem ∧ (s'.core site).refills = c.refills.erase r ∧
            ((s'.core site).queue r.cls).live = (c.queue r.cls).live ∧ (s'.core site).pad = c.pad ∧
            evCount s' 0x08F site = evCount s 0x08F site + 1)) ∧
      (c.refillDone = none →
        (∀ q idx, c.refillNext = some (q, idx) →
          ∃ s' x, exec (.refillEntry k) s = .next s' ∧ s'.mem = s.mem ∧ (s'.core site).refills = c.refills ++ [x] ∧
            x.cls = q ∧ x.idx = idx ∧ x.reads.length = 5 ∧ (∀ y ∈ x.reads, y.got = none) ∧
            (s'.core site).pad = c.pad ∧ (s'.core site).queues = c.queues) ∧
        (c.refillNext = none → exec (.refillEntry k) s = .next s))) ∧
  (
    ∀ (a : ThreadAt) (s : State) (site : Nat) (th : Thread) (c : Core), th = s.thr site a.t → c = s.core site →
      (∀ o, Issues (.dispatch a o) a s site →
        (c.claim a.t o.cmask = none → exec (.dispatch a o) s = .next (s.setThr site a.t (th.wx o.rd 0).retire)) ∧
        (∀ q e, c.claim a.t o.cmask = some (q, e) → hValid (c.handler e.handler.toNat) = true →
          hAccepts (c.handler e.handler.toNat) q = true → hDirect (c.handler e.handler.toNat) = false →
          ∃ s', exec (.dispatch a o) s = .next s' ∧ (s'.thr site a.t).pc.toNat = 4 * (c.handler e.handler.toNat / 4 % 2 ^ 13) ∧
            (s'.thr site a.t).rx o.rd = BitVec.ofNat 64 (padBase + 64 * c.qSlot q e.idx) ∧
            (s'.thr site a.t).rx 31 = linkRule th ∧ s'.events = s.events ∧
            (∀ y ∈ ((s'.core site).queue q).live, y.idx = e.idx → y.st = .claimed a.t) ∧ s'.mem = s.mem)) ∧
      (∀ o, Issues (.qdone a o) a s site →
        (c.claimedAt a.t (th.rx o.ra) = none →
          exec (.qdone a o) s = .next (s.raise site a.t { cause := 0x44, addr := th.rx o.ra })) ∧
        (∀ q e, c.claimedAt a.t (th.rx o.ra) = some (q, e) →
          ∃ s', exec (.qdone a o) s = .next s' ∧ s'.thr site a.t = th.retire ∧ s'.mem = s.mem ∧
            (∀ y ∈ ((s'.core site).queue q).live, y.idx = e → y.st = .released) ∧
            (((s'.core site).queue q).live.head?.map (·.st) ≠ some .released))) ∧
      (∀ o, Issues (.qstat a o) a s site → exec (.qstat a o) s = .next (s.setThr site a.t
        (th.wx o.rd (BitVec.ofNat 64 (
          ((c.queue .a).live.filter (·.st == .ready)).length + ((c.queue .b).live.filter (·.st == .ready)).length * 2 ^ 7 +
          ((c.queue .c).live.filter (·.st == .ready)).length * 2 ^ 16 +
          ((c.queue .b).spill.filter (·.st == .held)).length * 2 ^ 25 +
          ((c.queue .c).spill.filter (·.st == .held)).length * 2 ^ 38 +
          (c.queue .b).spilling.toNat * 2 ^ 51 + (c.queue .c).spilling.toNat * 2 ^ 52))).retire)) ∧
      (∀ o, Issues (.hent a o) a s site → exec (.hent a o) s = .next (s.setThr site a.t
        (th.wx o.rd (BitVec.ofNat 64 (c.handlers.at ((th.rx o.ra).toNat % 256) 0).toNat)).retire)) ∧
      (∀ o, Issues (.sndstat a o) a s site → ∃ v, exec (.sndstat a o) s = .next (s.setThr site a.t (th.wx o.rd v).retire) ∧
        ((∀ q, (c.sends.filter (·.cls == q)).length ≤ if q = .a then 4 else 16) →
          v.toNat % 8 = 4 - (c.sends.filter (·.cls == .a)).length ∧
          v.toNat / 8 % 32 = 16 - (c.sends.filter (·.cls == .b)).length ∧
          v.toNat / 256 % 32 = 16 - (c.sends.filter (·.cls == .c)).length)))

/-- R186, R190, R191, R194: ROUTER_FLIT_ARRIVAL.  A flit with an uncorrectable or malformed header, or of age 2 to 6, is
dropped and counted, and its place is owed upstream; a corrected header is counted.  A flit for one core goes on along its lane; a row ring hands it to
the column ring at its column; at its core's site the core takes it.  At its own edge stop the unit there takes it.

R187, R188, R189: RING_OUTPUT_SEND and RING_CREDIT_RETURN.  An output sends at most one flit in a slot, of those
whose next buffer holds fewer flits than its two places; class A goes first, and slot 0 is class A's alone.  The bit errors
that the flit takes on the way mark its words and change nothing else of it (R185).  A returned credit counts one place less
in use.

R193: EPOCH_HELD_REQUEST.  The first held request whose stops owe no older answer leaves the hold as a request of the
present epoch, and its flits for an edge stop wait at the row ring's output; with none the core stays as it is. -/
def Obligations.RingsCarryFlits : Prop :=
  (
    ∀ (inp : RingInput) (s : State) (f : Flit) (rest : List Flit),
      s.rings.inBuf.at (inputKey inp) [] = f :: rest →
      let k := inputKey inp
      let taken := fun (s' : State) => s'.rings.inBuf.at k [] = rest ∧ keepsMemory s s'
      let dropped := fun (crn unit : Nat) => ∃ s', exec (.routerFlitArrival inp) s = .next s' ∧ taken s' ∧
        s'.rings.owed.at k 0 = s.rings.owed.at k 0 + 1 ∧ evCount s' crn unit = evCount s crn unit + 1 ∧
        s'.rings.outWait = s.rings.outWait ∧ s'.rings.ports = s.rings.ports ∧ s'.cores = s.cores
      let waits := fun (lane : Nat) => ∃ s' w, exec (.routerFlitArrival inp) s = .next s' ∧ taken s' ∧
        s'.rings.outWait.at (16 * inp.stop + lane) [] = s.rings.outWait.at (16 * inp.stop + lane) [] ++ [w] ∧
        w.flit = f ∧ w.place = some (k, s.rings.serial) ∧ s'.rings.owed = s.rings.owed ∧ s'.cores = s.cores
      let age := (s.epoch + 8 - f.ep.toNat) % 8
      let b := s.routes (s.flitEpoch f.ep)
      let d := s.siteFor b (addrRow f.dst) (addrCol f.dst)
      (f.hdrErr = 2 ∨ f.wellFormed = false →
        dropped (if inp.stop < 1000 then 0x095 else 0x09F) (if inp.stop < 1000 then inp.stop else 0)) ∧
      (f.hdrErr = 1 → ∃ s', exec (.routerFlitArrival inp) s = .next s' ∧
        evCount s' (if inp.stop < 1000 then 0x094 else 0x0C5) (if inp.stop < 1000 then inp.stop else 0) =
          evCount s (if inp.stop < 1000 then 0x094 else 0x0C5) (if inp.stop < 1000 then inp.stop else 0) + 1) ∧
      (f.hdrErr = 0 → f.wellFormed = true → 2 ≤ age → age ≤ 6 →
        dropped (if inp.stop < 1000 then 0x096 else 0x0A0) (if inp.stop < 1000 then inp.stop else 0)) ∧
      (f.hdrErr = 0 → f.wellFormed = true → age < 2 ∨ age = 7 → f.mkind = 0 →
        (inp.stop < 1000 → addrIsEdge f.dst = false →
          (inp.lane < 4 → d % 32 ≠ inp.stop % 32 → waits inp.lane) ∧
          (inp.lane < 4 → d % 32 = inp.stop % 32 → d ≠ inp.stop →
            waits (if blkNorth b (inp.stop % 32) (rowAt b inp.stop) (addrRow f.dst) then 6 else 4)) ∧
          (4 ≤ inp.lane → inp.lane < 8 → d ≠ inp.stop → waits inp.lane) ∧
          (inp.lane < 8 → blkCore b (addrRow f.dst) (addrCol f.dst) = some inp.stop →
            blkCore (s.routes s.epoch) (addrRow f.dst) (addrCol f.dst) = some inp.stop →
            ∃ s', exec (.routerFlitArrival inp) s = .next s' ∧ taken s' ∧
              s'.rings.owed.at k 0 = s.rings.owed.at k 0 + 1 ∧
              (s'.core inp.stop).delivered = (s.core inp.stop).delivered + 1 ∧
              (s'.core inp.stop).scionIn = (s.core inp.stop).scionIn ++ (if f.kind = 0 then [f] else []) ∧
              (s'.core inp.stop).respIn = (s.core inp.stop).respIn ++ (if f.kind = 1 then [f] else []) ∧
              (s'.core inp.stop).memIn = (s.core inp.stop).memIn ++ (if f.kind = 0 ∨ f.kind = 1 then [] else [f]))) ∧
        (∀ e, inp.stop = 1000 + e → 8 ≤ inp.lane → addrIsEdge f.dst = true → addrEdge f.dst = e →
          (e < 17 ∨ (49 ≤ e ∧ e < 65)) →
          ∃ s', exec (.routerFlitArrival inp) s = .next s' ∧ taken s' ∧ s'.rings.owed.at k 0 = s.rings.owed.at k 0 + 1 ∧
            s'.rings.ports.at (portKey e (clsNum (clsOf f.cls)) f.chanNum) [] =
              s.rings.ports.at (portKey e (clsNum (clsOf f.cls)) f.chanNum) [] ++ [f]))) ∧
  (
    (∀ (o : RingSend) (s : State), let k := 16 * o.stop + o.lane
      let l := s.rings.outWait.at k []
      let slot := s.rings.slot.at k 0
      let room := fun (w : WaitFlit) => s.rings.used.at (s.nextKey o.stop o.lane w.flit) 0 < 2
      let mayGo := fun (w : WaitFlit) => w ∈ l ∧ room w ∧ (slot = 0 → clsOf w.flit.cls = .a)
      ((∀ w, ¬ mayGo w) → ∃ s', exec (.ringOutputSend o) s = .next s' ∧ s'.rings.slot.at k 0 = (slot + 1) % 8 ∧
        s'.rings.inBuf = s.rings.inBuf ∧ s'.rings.used = s.rings.used ∧
        (s'.rings.outWait.at k []).map (·.flit) = l.map (·.flit) ∧ keepsMemory s s') ∧
      ((∃ w, mayGo w) → ∃ s' w n, exec (.ringOutputSend o) s = .next s' ∧ mayGo w ∧
        n = s.nextKey o.stop o.lane w.flit ∧ s'.rings.slot.at k 0 = (slot + 1) % 8 ∧
        ((∃ u, mayGo u ∧ clsOf u.flit.cls = .a) → clsOf w.flit.cls = .a) ∧
        s'.rings.inBuf.at n [] = s.rings.inBuf.at n [] ++ [o.errs.foldl Flit.strike w.flit] ∧
        s'.rings.used.at n 0 = s.rings.used.at n 0 + 1 ∧
        (s'.rings.outWait.at k []).length + 1 = l.length ∧ keepsMemory s s')) ∧
    (∀ (f : Flit) (e : WordErr),
      { f.strike e with hbad := f.hbad, hflip := f.hflip, bad := f.bad, flip := f.flip } = f ∧
      (∀ i, f.bad.getLsbD i = true → (f.strike e).bad.getLsbD i = true) ∧
      (e.two = true → 2 ≤ e.word.toNat → e.word.toNat < 10 → (f.strike e).bad.getLsbD (e.word.toNat - 2) = true)) ∧
    (∀ (inp : RingInput) (s : State),
      (s.rings.owed.at (inputKey inp) 0 = 0 → exec (.ringCreditReturn inp) s = .next s) ∧
      (s.rings.owed.at (inputKey inp) 0 ≠ 0 → ∃ s', exec (.ringCreditReturn inp) s = .next s' ∧
        s'.rings.owed.at (inputKey inp) 0 + 1 = s.rings.owed.at (inputKey inp) 0 ∧
        s'.rings.used.at (inputKey inp) 0 = s.rings.used.at (inputKey inp) 0 - 1 ∧
        s'.rings.inBuf = s.rings.inBuf ∧ s'.rings.outWait = s.rings.outWait ∧ s'.cores = s.cores ∧ s'.mem = s.mem))) ∧
  (
    ∀ (k : CoreAt) (s : State) (site : Nat) (c : Core), s.siteOf k.row.toNat k.col.toNat = some site → c = s.core site →
      ((∀ h ∈ c.held, c.olderRequest h.dst h.span s.epoch = true) → exec (.epochHeldRequest k) s = .next s) ∧
      (∀ h, c.held.find? (fun h => !c.olderRequest h.dst h.span s.epoch) = some h →
        ∃ s', exec (.epochHeldRequest k) s = .next s' ∧ (s'.core site).held = c.held.erase h ∧ keepsMemory s s' ∧
          (∀ f l, h.flits = f :: l → ∀ r ∈ (s'.core site).reqs, r.kind.flit = f.kind → r.txn = f.txn.toNat →
            r.epoch = s.epoch) ∧
          ((∀ f ∈ h.flits, f.mkind = 0 ∧ addrIsEdge f.dst = true) →
            (s'.core site).injected = c.injected + BitVec.ofNat 32 h.flits.length ∧
            (s'.rings.outWait.at (16 * site + laneToEnd (site % 32)) []).map (·.flit) =
              (s.rings.outWait.at (16 * site + laneToEnd (site % 32)) []).map (·.flit) ++
                h.flits.map fun f => { f with ep := s.epNow })))

/-- R37, R39, R428: PACE_WINDOW_END.  A window ends at the next multiple of 1,024 ns after the last window's end, one that
chip time has not passed (log entries 5 and 113: the model's choice of moments, here and below); a void one counts for nothing; else the
least count and its monitor are kept, a count below pace_threshold raises the alarm, which counts, reports and asserts
MOD_ERR_CORR_N, and one below the threshold + 16 makes the epoch fail a clear condition.

R37 to R40, R429: THERMAL_CONVERSION and SENSE_POINT_SAMPLE.  Above 95 degrees a sensor counts once per excursion;
above 100, or a sense point below 0.73 V, the epoch fails a clear condition; above 105, or below 0.72 V, the alarm is
raised; above 115, or below 0.62 V, the die trips, asserts MOD_ERR_FATAL_N and holds MOD_HB.

R80: HEARTBEAT_EXPIRY ends toggling, sets lapsed and counts; MOD_HB_TOGGLE turns MOD_HB's level where the die has
not tripped and runs at the start rate, or is armed with chip time below the expiry. -/
def Obligations.PaceAndHeartbeat : Prop :=
  (
    ∀ (counts : List Nat) (s : State), s.boot.powered = true → s.boot.inReset = false → counts.length = 16 →
      s.now < 2 ^ 63 → s.pace.windowAt < 2 ^ 63 →
      ∃ s', exec (.paceWindowEnd counts) s = .next s' ∧
        s'.now = max ((s.now + 1023) / 1024 * 1024) ((s.pace.windowAt / 1024 + 1) * 1024) ∧ s'.pace.windowAt = s'.now ∧
        keepsMemory s s' ∧ s'.pace.windowVoid = false ∧
        (s.pace.windowVoid = true →
          s'.pace = { s.pace with windowVoid := false, windowAt := s'.now } ∧ s'.events = s.events) ∧
        (s.pace.windowVoid = false →
          (∃ i, i < 16 ∧ s'.pace.minMonitor.toNat = i ∧ s'.pace.minCount.toNat = min (counts.getD i 0) 4095 ∧
            (∀ j, j < 16 → counts.getD i 0 ≤ counts.getD j 0) ∧ (∀ j, j < i → counts.getD i 0 < counts.getD j 0)) ∧
          ((∃ n ∈ counts, n < s.boot.rs.paceThreshold) → s'.pace.alarm = true ∧
            (s.pace.alarm = false → evCount s' 0x098 0 = evCount s 0x098 0 + 1 ∧
              s'.reports = s.reports ++ [.paceAlarm] ∧ (s.errFatal = false → s'.errCorr = true))) ∧
          ((∀ n ∈ counts, s.boot.rs.paceThreshold ≤ n) → s'.pace.alarm = s.pace.alarm ∧ s'.events = s.events) ∧
          ((∃ n ∈ counts, n < s.boot.rs.paceThreshold + 16) → s'.pace.clean = false) ∧
          ((∀ n ∈ counts, s.boot.rs.paceThreshold + 16 ≤ n) → s'.pace.clean = s.pace.clean))) ∧
  (
    ∀ s : State, s.boot.powered = true → s.boot.inReset = false → s.now < 2 ^ 63 → s.pace.convAt < 2 ^ 63 →
      s.pace.sampleAt < 2 ^ 63 →
      let tripped := fun (s' : State) => s'.pace.tripped = true ∧ s'.errFatal = true ∧ s'.hb.toggling = false ∧
        s'.hb.bootRate = false ∧ s'.hb.level = s.hb.level
      (∀ t : List (BitVec 12), t.length = 32 →
        ∃ s', exec (.thermalConversion t) s = .next s' ∧ keepsMemory s s' ∧
          s'.now = max ((s.now + 9999) / 10000 * 10000) ((s.pace.convAt / 10000 + 1) * 10000) ∧ s'.pace.convAt = s'.now ∧
          (∃ i, i < 32 ∧ s'.pace.maxSensor.toNat = i ∧ s'.pace.maxTemp = t.getD i 0 ∧
            (∀ j, j < 32 → (t.getD j 0).toInt ≤ (t.getD i 0).toInt) ∧
            ∀ j, j < i → (t.getD j 0).toInt < (t.getD i 0).toInt) ∧
          (∀ i, i < 32 → s'.pace.prevTemp.find i = some (t.getD i 0)) ∧
          evCount s' 0x099 0 = evCount s 0x099 0 + BitVec.ofNat 31 ((List.range 32).filter fun i =>
            decide (760 < (t.getD i 0).toInt) && !((s.pace.prevTemp.find i).any fun p => decide (760 < p.toInt))).length ∧
          (s'.pace.clean = true ↔ s.pace.clean = true ∧ ∀ x ∈ t, x.toInt ≤ 800) ∧
          (s'.pace.alarm = true ↔ s.pace.alarm = true ∨ ∃ x ∈ t, 840 < x.toInt) ∧
          ((∃ x ∈ t, 920 < x.toInt) → tripped s') ∧
          ((∀ x ∈ t, x.toInt ≤ 920) → s'.pace.tripped = s.pace.tripped ∧ s'.errFatal = s.errFatal ∧ s'.hb = s.hb)) ∧
      (∀ p : List SenseReading, p.length = 4 →
        ∃ s', exec (.sensePointSample p) s = .next s' ∧ keepsMemory s s' ∧
          s'.now = max ((s.now + 249) / 250 * 250) ((s.pace.sampleAt / 250 + 1) * 250) ∧ s'.pace.sampleAt = s'.now ∧
          (s'.pace.clean = true ↔ s.pace.clean = true ∧ ∀ x ∈ p, x.atLeast073 = true) ∧
          (s'.pace.alarm = true ↔ s.pace.alarm = true ∨ ∃ x ∈ p, x.below072 = true) ∧
          ((∃ x ∈ p, x.below062 = true) → tripped s') ∧
          ((∀ x ∈ p, x.below062 = false) →
            s'.pace.tripped = s.pace.tripped ∧ s'.errFatal = s.errFatal ∧ s'.hb = s.hb))) ∧
  (
    ∀ s : State,
      (s.running = true → s.hb.toggling = true → ∃ s', exec .heartbeatExpiry s = .next s' ∧
        s'.hb.toggling = false ∧ s'.hb.lapsed = true ∧ s'.hb.level = s.hb.level ∧ s'.hb.expiry = s.hb.expiry ∧
        s'.now = max s.now s.hb.expiry.toNat ∧ evCount s' 0x082 0 = evCount s 0x082 0 + 1 ∧ keepsMemory s s') ∧
      (¬ (s.running = true ∧ s.hb.toggling = true) → exec .heartbeatExpiry s = .next s) ∧
      (s.boot.powered = true → s.boot.inReset = false → s.pace.tripped = false →
        s.hb.bootRate = true ∨ (s.hb.toggling = true ∧ s.now < s.hb.expiry.toNat) →
        exec .modHbToggle s = .next { s with hb := { s.hb with level := !s.hb.level } }) ∧
      (s.pace.tripped = true ∨ (s.hb.bootRate = false ∧ (s.hb.toggling = false ∨ s.hb.expiry.toNat ≤ s.now)) →
        exec .modHbToggle s = .next s))

/-- R54, R344, R347, R39, R297, R327: EPOCH_BOUNDARY.  Chip time passes the next multiple of 2^20 ns; an accepted change
of banks whose boundary it is takes effect; the pace alarm clears after a whole clean epoch of an unwaived envelope;
the links' scores start again; stack memory and the scratchpads stay.

R79, R89, R108, R133, R146, R151, R335: CORE_PLAN_SWITCH.  A core that the switch reached and that runs no MMA applies the
plan in force: its window cache is empty, its slots and tile owners are the plan's, and every scratchpad keeps its bytes,
but for what a tile store still under way writes.  A thread that the plan does not carry, and every thread where the plan
has moved the core to this site, starts at its entry pc with its registers and its vector state zero and its seed stored;
a carried one that waits for nothing keeps its pc and registers.  A core not reached, or with an MMA, waits. -/
def Obligations.BoundariesAndPlans : Prop :=
  (
    ∀ s : State, s.boot.powered = true → s.boot.inReset = false → s.epoch < 2 ^ 42 → s.now < 2 ^ 63 →
      ∃ s', exec .epochBoundary s = .next s' ∧ s'.epoch = s.epoch + 1 ∧
        s'.now = max s.now ((s.epoch + 1) * 2 ^ 20) ∧ keepsMemory s s' ∧
        (∀ n, s.boot.next = some n → n.epoch ≤ s.epoch + 1 → s'.bankNow = 1 - s.bankNow ∧ s'.boot.next = none ∧
          s'.boot.lastSwitch = some n.epoch ∧ s'.boot.plan = n.plan.or s.boot.plan) ∧
        ((∀ n, s.boot.next = some n → s.epoch + 1 < n.epoch) → s'.bankNow = s.bankNow ∧ s'.boot = s.boot) ∧
        s'.banks = s.banks ∧ s'.pace.whole = true ∧ s'.pace.clean = true ∧
        (s'.pace.alarm = true ↔ s.pace.alarm = true ∧
          ¬ (s.pace.clean = true ∧ s.pace.whole = true ∧ s.pace.waived = false)) ∧
        (∀ k, (s'.link k).score = 0 ∧ (s'.link k).tagFails = 0 ∧ (s'.link k).st = (s.link k).st) ∧
        ((s.epoch + 1) % 64 = 0 → ReportKind.stateSummary ∈ s'.reports)) ∧
  (
    ∀ (k : CoreAt) (s : State) (site : Nat) (p : Plan) (b : List Byte),
      s.siteOf k.row.toNat k.col.toNat = some site → s.boot.plan = some p →
      b = recordFor p.threads k.row.toNat k.col.toNat →
      (site ∉ s.switchDue ∨ (s.core site).mma.isSome = true → exec (.corePlanSwitch k) s = .next s) ∧
      (site ∈ s.switchDue → (s.core site).mma = none →
        let stayed := blkCore (s.bank (1 - s.bankNow)).block k.row.toNat k.col.toNat = some site
        ∃ s', exec (.corePlanSwitch k) s = .next s' ∧ site ∉ s'.switchDue ∧ s'.mem = s.mem ∧
          (∀ q, q ≠ site → (s'.core q).pad = (s.core q).pad) ∧
          ((∀ o ∈ (s.core site).tileOps, o.store = false) → (s'.core site).pad = (s.core site).pad) ∧
          (s'.core site).wc = [] ∧ (s'.core site).slotOwner.toNat = thrSlots b % 2 ^ 16 ∧
          (s'.core site).tileOwn.toNat = thrOwner b % 2 ^ 48 ∧
          (∀ t : BitVec 2, (s'.thr site t).cls.toNat = thrClass b t.toNat % 4 ∧
            (thrCarried b t.toNat = false ∨ ¬ stayed → (s'.thr site t).pc.toNat = 4 * (thrWord b t.toNat % 2 ^ 13) ∧
              (s'.thr site t).st = .run ∧ (s'.thr site t).sendSeq = 0 ∧
              (s'.thr site t).srState = srSeed (thrSeed b t.toNat) ∧
              ∀ n, (s'.thr site t).rx n = 0 ∧ (s'.thr site t).rv n = 0) ∧
            (thrCarried b t.toNat = true → stayed → (s.thr site t).block = .none →
              (s'.thr site t).pc = (s.thr site t).pc ∧ (s'.thr site t).x = (s.thr site t).x ∧
              (s'.thr site t).st = (s.thr site t).st))))

/-- R43, R44: SYNC_REQ is answered on its link with its seq and the present chip time as t2 and t3; SYNC_REQ_TIMER, every
2^16 ns (at the multiples of it: log entry 116, the model's choice), opens an exchange with the upstream, whose SYNC_REQ
it queues, and one with the partner that carries a better root still to be measured (R51; log entry 15, the model's
reading); with neither only time passes.

R43, R294, R295: a TIME message that is malformed is dropped and counted in EV_TIME_MALFORMED, and one that the
filter or the grant refuses is counted in EV_ADM_FILTER; neither is answered, and chip time's state stays.

R44, R45, R47, R51, R53: SYNC_RESP of the outstanding exchange.  An exchange of more than 10 us, a negative delay, or
after lock a leap above 200 ns is discarded and counted; the fourth discard in a row drops the upstream for 16 epochs.
Else it is accepted: its offset is kept, the estimate stays within 400 ppm and the slew within 100 ppm; below 25 ns the
module is LOCKED; above 2^20 ns the root is ignored, and EV_TIME_FAR counts.  The exchange of a measurement marks its root far or
near and leaves the reference.  SYNC_RESP_TIMEOUT discards.

R45, R46, R49, R53: a dropped upstream is eligible again at its epoch; LINK_ANNOUNCE is kept as its partner's latest;
a listed root's first announce for an epoch is held and goes out on every link that carries time, any other is dropped;
after holdover_limit epochs in holdover the module is UNSYNC and, with roots listed, asserts MOD_ERR_CORR_N. -/
def Obligations.ChipTimeOverLinks : Prop :=
  (
    ∀ s : State,
      (∀ (k : Nat) (m : TimeMsg), TimeAt s k m → m.kind = 1 →
        ∃ s' f, exec (.syncReq k) s = .next s' ∧ rxOf s' k 6 = (rxOf s k 6).drop 1 ∧ txOf s' k 6 = txOf s k 6 ++ [f] ∧
          field (lineBytes f.payload) 0 1 = 0x12 ∧ field (lineBytes f.payload) 6 2 = m.seq.toNat ∧
          field (lineBytes f.payload) 8 8 = s.nowQ ∧ field (lineBytes f.payload) 16 8 = s.nowQ ∧
          f.dst = (s.link k).partnerNode ∧ s'.time = s.time ∧ s'.events = s.events ∧ keepsMemory s s') ∧
      (s.boot.powered = true → s.boot.inReset = false → s.now < 2 ^ 60 → s.time.reqAt < 2 ^ 60 →
        ∃ s', exec .syncReqTimer s = .next s' ∧ keepsMemory s s' ∧
          s'.now = max ((s.now + 65535) / 65536 * 65536) ((s.time.reqAt / 65536 + 1) * 65536) ∧ s'.time.reqAt = s'.now ∧
          (24 ≤ s.time.upstream → s'.time.exch = s.time.exch ∧ (s.toMeasure = none → s'.links = s.links)) ∧
          (s.time.upstream < 24 →
            s'.time.exch = some { seq := s.time.seq + 1, t1 := BitVec.ofNat 64 (4 * s'.now) } ∧
            ∃ f more, txOf s' s.time.upstream 6 = txOf s s.time.upstream 6 ++ f :: more ∧
              (s.toMeasure = none → more = [] ∧ s'.time.seq = s.time.seq + 1) ∧
              field (lineBytes f.payload) 0 1 = 0x11 ∧
              field (lineBytes f.payload) 6 2 = (s.time.seq.toNat + 1) % 2 ^ 16) ∧
          (s.toMeasure = none → s'.time.probe = none) ∧
          (∀ i k, s.toMeasure = some (i, k) → ∃ p, s'.time.probe = some p ∧ p.root = i ∧ p.link = k ∧
            p.exch.t1 = BitVec.ofNat 64 (4 * s'.now) ∧ p.exch.seq = s'.time.seq))) ∧
  (
    ∀ (k kind : Nat) (c : Instr) (s : State), k < 24 →
      (kind = 1 ∧ c = .syncReq k ∨ kind = 2 ∧ c = .syncResp k ∨ kind = 3 ∧ c = .linkAnnounce k ∨
        kind = 4 ∧ c = .rootAnnounce k) →
      (s.timeHead k kind = .malformed → ∃ s', exec c s = .next s' ∧ rxOf s' k 6 = (rxOf s k 6).drop 1 ∧
        txOf s' k 6 = txOf s k 6 ∧ s'.time = s.time ∧ evCount s' 0x09B 0 = evCount s 0x09B 0 + 1 ∧ keepsMemory s s') ∧
      (∀ msg f, s.timeHead k kind = .refused msg f → ∃ s', exec c s = .next s' ∧ s'.time = s.time ∧
        evCount s' 0x0BD k = evCount s 0x0BD k + 1 ∧ keepsMemory s s') ∧
      (s.timeHead k kind = .none → exec c s = .next s)) ∧
  (
    (∀ (k : Nat) (m : TimeMsg) (s : State) (e : Exchange) (o d : Int) (t4 : W64),
      TimeAt s k m → m.kind = 2 → s.time.exch = some e → t4 = BitVec.ofNat 64 s.nowQ →
      o = ((m.tsA - e.t1).toInt + (m.tsB - t4).toInt) / 2 → d = (t4 - e.t1).toInt - (m.tsB - m.tsA).toInt →
      let bad := 40000 < (t4 - e.t1).toNat ∨ d < 0 ∨ 40000 < d ∨
        (s.time.syncState = 2 ∧ ∃ p, s.time.prevOffset = some p ∧ 800 < (o - p).natAbs)
      ∃ s', exec (.syncResp k) s = .next s' ∧ rxOf s' k 6 = (rxOf s k 6).drop 1 ∧ keepsMemory s s' ∧
        (s.time.upstream ≠ k ∨ e.seq ≠ m.seq → (∀ p, s.time.probe = some p → p.link ≠ k ∨ p.exch.seq ≠ m.seq) →
          s'.time = s.time ∧ s'.events = s.events) ∧
        (s.time.upstream = k → e.seq = m.seq → bad → s'.time.exch = none ∧
          evCount s' 0x09A 0 = evCount s 0x09A 0 + 1 ∧ s'.time.clock = s.time.clock ∧
          (s.time.discards < 3 → s'.time.discards = s.time.discards + 1 ∧ s'.time.upstream = k) ∧
          (3 ≤ s.time.discards → s'.time.excluded.find k = some (s.epoch + 16) ∧ s'.time.upstream ≠ k)) ∧
        (s.time.upstream = k → e.seq = m.seq → ¬ bad → s'.time.exch = none ∧ s'.time.discards = 0 ∧
          s'.time.lastOffset = BitVec.ofInt 32 o ∧
          (o.natAbs ≤ 2 ^ 22 → s'.time.prevOffset = some o ∧ s'.time.freqEst.natAbs ≤ 400000 ∧
            s'.time.slew.natAbs ≤ 100000 ∧ 0 ≤ s'.time.slew * o ∧
            (o.natAbs < 100 → s.time.stratum < 64 → s'.time.syncState = 2)) ∧
          (2 ^ 22 < o.natAbs → s'.time.upstream = 31 ∧ s.time.rootIndex ∈ s'.time.farRoots ∧
            evCount s' 0x09C 0 = evCount s 0x09C 0 + 1))) ∧
    (∀ (k : Nat) (m : TimeMsg) (s : State) (p : Probe) (o d : Int) (t4 : W64),
      TimeAt s k m → m.kind = 2 → s.time.probe = some p → p.link = k → p.exch.seq = m.seq →
      (∀ e, s.time.exch = some e → s.time.upstream ≠ k ∨ e.seq ≠ m.seq) → t4 = BitVec.ofNat 64 s.nowQ →
      o = ((m.tsA - p.exch.t1).toInt + (m.tsB - t4).toInt) / 2 → d = (t4 - p.exch.t1).toInt - (m.tsB - m.tsA).toInt →
      let bad := 40000 < (t4 - p.exch.t1).toNat ∨ d < 0 ∨ 40000 < d
      ∃ s', exec (.syncResp k) s = .next s' ∧ s'.time.probe = none ∧ keepsMemory s s' ∧
        s'.time.upstream = s.time.upstream ∧ s'.time.rootIndex = s.time.rootIndex ∧ s'.time.syncState = s.time.syncState ∧
        s'.time.clock = s.time.clock ∧
        (bad → evCount s' 0x09A 0 = evCount s 0x09A 0 + 1 ∧ s'.time.farRoots = s.time.farRoots) ∧
        (¬ bad → 2 ^ 22 < o.natAbs → p.root ∈ s'.time.farRoots ∧ evCount s' 0x09C 0 = evCount s 0x09C 0 + 1) ∧
        (¬ bad → o.natAbs ≤ 2 ^ 22 → p.root ∈ s'.time.nearRoots ∧ s'.events = s.events)) ∧
    (∀ s : State, (s.time.exch = none → s.time.probe = none → exec .syncRespTimeout s = .next s) ∧
      (∀ p, s.time.exch = none → s.time.probe = some p → ∃ s', exec .syncRespTimeout s = .next s' ∧
        s'.time.probe = none ∧ s'.time.upstream = s.time.upstream ∧ evCount s' 0x09A 0 = evCount s 0x09A 0 + 1 ∧
        keepsMemory s s') ∧
      (∀ e, s.time.exch = some e → ∃ s', exec .syncRespTimeout s = .next s' ∧ s'.time.exch = none ∧
        s'.now = max s.now ((e.t1.toNat + 40000) / 4) ∧ evCount s' 0x09A 0 = evCount s 0x09A 0 + 1 ∧ keepsMemory s s'))) ∧
  (
    ∀ s : State,
      (∀ k, (s.time.excluded.find k = none → exec (.upstreamExclusionEnd k) s = .next s) ∧
        ∀ e, s.time.excluded.find k = some e →
          (s.epoch < e → exec (.upstreamExclusionEnd k) s = .next s) ∧
          (e ≤ s.epoch → ∃ s', exec (.upstreamExclusionEnd k) s = .next s' ∧ s'.time.excluded.find k = none ∧
            (∀ j, j ≠ k → s'.time.excluded.find j = s.time.excluded.find j) ∧ keepsMemory s s')) ∧
      (∀ (k : Nat) (m : TimeMsg), TimeAt s k m → m.kind = 3 →
        ∃ s', exec (.linkAnnounce k) s = .next s' ∧ rxOf s' k 6 = (rxOf s k 6).drop 1 ∧ keepsMemory s s' ∧
          s'.time.announces.find k = some { rootIndex := m.rootIndex, rootNode := m.rootNode
                                            syncState := m.syncState, stratum := m.stratum } ∧
          ∀ j, j ≠ k → s'.time.announces.find j = s.time.announces.find j) ∧
      (∀ (k e : Nat) (m : TimeMsg), TimeAt s k m → m.kind = 4 → e = m.tsA.toNat % 2 ^ 44 →
        let good := m.rootIndex < s.boot.rs.roots.length ∧ s.boot.rs.roots.getD m.rootIndex 0 = m.rootNode ∧
          ∀ h, s.time.rootHeld.find m.rootIndex = some h → h < e
        ∃ s', exec (.rootAnnounce k) s = .next s' ∧ rxOf s' k 6 = (rxOf s k 6).drop 1 ∧ keepsMemory s s' ∧
          (good → s'.time.rootHeld.find m.rootIndex = some e ∧
            ∀ j ∈ s.timeLinks, ∃ f, txOf s' j 6 = txOf s j 6 ++ [f] ∧ field (lineBytes f.payload) 0 1 = 0x14) ∧
          (¬ good → s'.time = s.time ∧ ∀ j, txOf s' j 6 = txOf s j 6)) ∧
      (s.time.syncState = 3 → s.time.holdAt + s.boot.rs.holdoverLimit * 2 ^ 20 ≤ s.now →
        ∃ s', exec .holdoverLimit s = .next s' ∧ s'.time = { s.time with syncState := 0 } ∧ keepsMemory s s' ∧
          (s.boot.rs.roots ≠ [] → s.errFatal = false → s'.errCorr = true)) ∧
      (s.time.syncState ≠ 3 ∨ s.now < s.time.holdAt + s.boot.rs.holdoverLimit * 2 ^ 20 → exec .holdoverLimit s = .next s))

/-- R205, R207, R210, R213, R218, R318: CONTROLLER_READ, CONTROLLER_WRITE and CONTROLLER_ATOMIC take the request at the
head of the stack's port.  A good one queues on the channel of its line and changes nothing stored; a malformed one is
answered FORM and counts in EV_STK_MALFORMED; a write or an atomic with an uncorrectable word counts in EV_STK_UE.
R206, R207: while no channel has been isolated a line of plan memory lies in the channel that its stack offset gives.

R215: CHANNEL_SLOT.  A slot of a channel with no transfer under way goes to its oldest class A transaction, else to
its oldest one of class B or C, the class other than the last such slot's first; a refresh takes it instead.

R212, R213, R214, R217: CHANNEL_TRANSFER_DONE.  A CRC mismatch repeats the transfer up to three times and counts.  A
transfer that ends well has its effect at once: a read changes nothing; a whole-line write puts its 64 bytes and heals
the line; a masked write puts the bytes that its mask names; an atomic replaces its word.  A write or an atomic that
failed for good leaves the bytes, and so does a transaction that took its effect before a burst.  A line found
uncorrectable stays so, counts in EV_STK_UE, and a masked write or an atomic changes none of it. -/
def Obligations.StacksServeRequests : Prop :=
  (
    ∀ (k : Nat) (cls : Cls) (s : State) (f : Flit) (rest : List Flit) (key : Nat),
      k < 8 → key = portKey (stackPort k) (clsNum cls) 0 → s.rings.ports.at key [] = f :: rest →
      let line := f.addr.toNat / 64
      let c := s.chanNow k line
      let queued := fun (i : Instr) (l : List Flit) => ∃ s', exec i s = .next s' ∧ s'.rings.ports.at key [] = rest ∧
        ((s'.stack k).chan c).queue = ((s.stack k).chan c).queue ++ [{ cls := clsOf f.cls, line := line, flits := l }] ∧
        ((s'.stack k).chan c).running = ((s.stack k).chan c).running ∧ s'.events = s.events ∧ keepsMemory s s'
      let refused := fun (i : Instr) (crn : Nat) => ∃ s', exec i s = .next s' ∧ evCount s' crn k = evCount s crn k + 1 ∧
        (s'.stack k).chans = (s.stack k).chans ∧ keepsMemory s s'
      let home := f.addr.toNat < 0x5A00000000 ∧ homeStack f.addr.toNat = k ∧ ((s.stack k).chan c).st ≠ .failed
      (f.kind = 2 → f.index = 0 → f.last = true → f.payload = 0 → f.addr.toNat % 64 = 0 → home →
        queued (.controllerRead k cls) [f]) ∧
      (f.kind ≠ 4 → f.kind ≠ 6 → f.kind ≠ 8 → (f.kind ≠ 2 ∨ f.index ≠ 0 ∨ f.last = false ∨ f.payload ≠ 0) →
        refused (.controllerRead k cls) 0x0A5) ∧
      (f.kind = 4 → f.index = 0 → f.last = true → f.bad = 0 → f.addr.toNat % 64 = 0 → home →
        queued (.controllerWrite k cls) [f]) ∧
      (f.kind = 4 → f.index = 0 → f.last = true → f.bad ≠ 0 → refused (.controllerWrite k cls) 0x0A3) ∧
      (f.kind = 4 → f.index = 0 → f.last = false → ∃ s', exec (.controllerWrite k cls) s = .next s' ∧
        f ∈ (s'.stack k).parts ∧ (s'.stack k).chans = (s.stack k).chans ∧ s'.events = s.events ∧ keepsMemory s s') ∧
      (∀ m, f.kind = 4 → f.index = 1 → f.last = true → (s.stack k).partOf f = some m → m.addr = f.addr →
        zeroBytes (lineBytes m.payload) 8 56 = true → f.bad = 0 → m.bad = 0 → f.addr.toNat % 64 = 0 → home →
        queued (.controllerWrite k cls) [m, f]) ∧
      (f.kind = 6 → f.bad = 0 → atomicForm f = true → f.addr.toNat % 8 = 0 → home →
        queued (.controllerAtomic k cls) [f]) ∧
      (f.kind = 6 → f.bad ≠ 0 → refused (.controllerAtomic k cls) 0x0A3) ∧
      (f.kind = 6 → f.bad = 0 → (atomicForm f = false ∨ f.addr.toNat % 8 ≠ 0) → refused (.controllerAtomic k cls) 0x0A5)) ∧
  (
    ∀ (k line : Nat) (s : State), (s.stack k).moves = [] → 64 * line < 0x5A00000000 →
      s.chanNow k line = (64 * line / 2 ^ 15 * 4096 + 64 * line % 4096) / 256 % 32) ∧
  (
    ∀ (k c : Nat) (refresh : Bool) (s : State) (h : Chan), h = (s.stack k).chan c →
      (h.running ≠ none → exec (.channelSlot k c refresh) s = .next s) ∧
      (h.running = none → refresh = true → ∃ s', exec (.channelSlot k c refresh) s = .next s' ∧
        (s'.stack k).chan c = { h with slot := h.slot + 1 } ∧ keepsMemory s s') ∧
      (h.running = none → h.queue = [] → refresh = false → exec (.channelSlot k c refresh) s = .next s) ∧
      (h.running = none → h.queue ≠ [] → refresh = false → h.st ≠ .failed →
        ∃ s' t, exec (.channelSlot k c refresh) s = .next s' ∧ t ∈ h.queue ∧ keepsMemory s s' ∧
          ((s'.stack k).chan c).running = some t ∧ ((s'.stack k).chan c).repeats = 0 ∧
          ((s'.stack k).chan c).queue.length + 1 = h.queue.length ∧
          (h.queue.any (·.cls == .a) = true → h.queue.find? (·.cls == .a) = some t) ∧
          (h.queue.any (·.cls == .a) = false → h.lastBC = .b → h.queue.any (·.cls == .c) = true →
            h.queue.find? (·.cls == .c) = some t) ∧
          (h.queue.any (·.cls == .a) = false → h.lastBC = .c → h.queue.any (·.cls == .b) = true →
            h.queue.find? (·.cls == .b) = some t))) ∧
  (
    ∀ (k c : Nat) (r : Transfer) (s : State) (h : Chan) (t : Trans), k < 8 → h = (s.stack k).chan c → h.running = some t →
      (r = .crcFail → h.repeats < 3 → ∃ s', exec (.channelTransferDone k c r) s = .next s' ∧
        ((s'.stack k).chan c) = { h with repeats := h.repeats + 1 } ∧
        evCount s' 0x0A4 k = evCount s 0x0A4 k + 1 ∧ keepsMemory s s') ∧
      (r ≠ .crcFail ∨ 3 ≤ h.repeats → h.st ≠ .failed → t.burst = none → ∀ f, t.flits.getLast? = some f →
        ∃ s', exec (.channelTransferDone k c r) s = .next s' ∧ ((s'.stack k).chan c).running = none ∧
          (∀ p, (s'.core p).pad = (s.core p).pad) ∧
          (r = .corrected → evCount s' 0x0A2 k = evCount s 0x0A2 k + 1) ∧
          (f.kind = 2 → s'.mem = s.mem) ∧
          (r = .crcFail → s'.mem = s.mem) ∧
          (t.done ≠ none → s'.mem = s.mem) ∧
          (r = .uncorrectable → t.done = none →
            (f.kind = 2 ∧ (∀ b ∈ (s.stack k).bursts, b.holds t.line = false)) ∨ f.kind = 6 ∨
              (f.kind = 4 ∧ ∃ m, t.flits = [m, f] ∧ m.payload.toNat % 2 ^ 64 ≠ 2 ^ 64 - 1) →
            s'.mem = s.mem ∧ t.line ∈ s'.memBad ∧ evCount s' 0x0A3 k = evCount s 0x0A3 k + 1) ∧
          (r ≠ .crcFail → t.done = none → f.kind = 4 → t.flits = [f] → t.line ∉ s'.memBad ∧
            memPuts s s' (64 * t.line) 64 (byteL f.payload)) ∧
          (r = .good ∨ r = .corrected → t.done = none → f.kind = 4 → t.line ∉ s.memBad → ∀ m, t.flits = [m, f] →
            memPuts s s' (64 * t.line) 64 fun x =>
              if m.payload.toNat.testBit x then byteL f.payload x else Mem.read s.mem (64 * t.line + x)) ∧
          (r = .good ∨ r = .corrected → t.done = none → f.kind = 6 → t.line ∉ s.memBad → ∀ old, old = leNat (Mem.readN s.mem f.addr.toNat 8) →
            memPuts s s' f.addr.toNat 8 fun x => BitVec.ofNat 8
              (amoNew (f.payload.toNat % 256) old (f.payload.toNat / 2 ^ 64 % 2 ^ 64) (f.payload.toNat / 2 ^ 128 % 2 ^ 64)
                / 2 ^ (8 * x)))))

/-- R40, R218, R220, R221, R222: bursts.  BURST_FLIT and BURST_STAGING_GRANT: the first flit of a burst that waits at the
head of its class's buffer takes a free staging buffer; a good burst of one flit commits at once, its line written and its
tag kept for its initiator, and nothing else of memory changes where no earlier request to the line waits; a flit that is
not the last only joins its burst, and the last one commits it, every line written in one step.  While no buffer is free
and no flit is of a staged burst, both wait; after a trip nothing commits (log entry 54: the model's reading of the order).
BURST_ABANDON_LINK and BURST_ABANDON_AGE drop the bursts of a dropped link, or two epochs old, that have not
committed, with their flits at the port, and count them.

R215, R224, R225, R226: CHANNEL_ISOLATE isolates a channel with a cause: with room its lines are relocated, without the
channel is FAILED, which asserts MOD_ERR_CORR_N.  RELOCATION_COPY copies one line in a slot of the channel that nothing
else claims; with the last the channel is RETIRED. -/
def Obligations.BurstsAndChannels : Prop :=
  (
    ∀ (k : Nat) (cls : Cls) (i : Instr) (s : State), k < 8 → i = .burstFlit k cls ∨ i = .burstStagingGrant k cls →
      let st := s.stack k
      let key := portKey (stackPort k) (clsNum cls) 0
      let s0 := s.abandonAged k
      (s.pace.tripped = true → exec i s = .next s) ∧
      (s.pace.tripped = false → (s0.stack k).bufferFree cls = false →
        (∀ x ∈ s0.rings.ports.at key [], x.kind = 8 → (s0.stack k).burstOf x = none) → exec i s = .next s0) ∧
      (∀ (f : Flit) (rest : List Flit), s.pace.tripped = false → s.rings.ports.at key [] = f :: rest → f.kind = 8 →
        s.epoch < s.flitEpoch f.ep + 2 →
        let line := f.addr.toNat / 64
        let h := st.chan (s.chanNow k line)
        (f.index = 0 → f.last = true → f.bad = 0 → f.addr.toNat % 64 = 0 → f.addr.toNat < 0x5A00000000 →
          homeStack f.addr.toNat = k → h.st ≠ .failed → st.burstOf f = none → st.stagedOf cls < stagingOf cls →
          ∃ s', exec i s = .next s' ∧ (s'.stack k).commits.find f.src.toNat = some f.txn ∧
            evCount s' 0x0A6 k = evCount s 0x0A6 k ∧ (∀ p, (s'.core p).pad = (s.core p).pad) ∧
            (∀ x, x < 64 → Mem.read s'.mem (f.addr.toNat + x) = byteL f.payload x) ∧
            ((∀ t, h.running = some t ∨ t ∈ h.queue → t.line ≠ line) →
              memPuts s s' f.addr.toNat 64 (byteL f.payload))) ∧
        (f.index = 0 → f.last = false → st.burstOf f = none → st.stagedOf cls < stagingOf cls →
          ∃ s' b, exec i s = .next s' ∧ keepsMemory s s' ∧ b ∈ (s'.stack k).bursts ∧ b.src = f.src ∧ b.txn = f.txn ∧
            b.lines = [f.payload] ∧ b.committed = false ∧
            (s'.stack k).bursts.length = (s0.stack k).bursts.length + 1) ∧
        (∀ b, i = .burstFlit k cls → st.burstOf f = some b → s.epoch < b.epoch + 2 →
          let b' := b.take k f
          (f.last = false → ∃ s', exec i s = .next s' ∧ keepsMemory s s' ∧ b' ∈ (s'.stack k).bursts ∧
            b'.lines = b.lines ++ [f.payload]) ∧
          (f.last = true → b'.status k st = 0 → b'.base % 64 = 0 →
            ∃ s', exec i s = .next s' ∧ (s'.stack k).commits.find b.src.toNat = some b.txn ∧
              ∀ x, x < 64 * b'.lines.length →
                Mem.read s'.mem (b'.base + x) = byteL (b'.lines.getD (x / 64) 0) (x % 64))))) ∧
  (
    ∀ (k : Nat) (s : State), k < 8 → let st := s.stack k
      (∀ link, let mine := fun f : Flit => f.kind = 8 ∧ f.src = edgeAddr (linkStop link)
        (32 * k + link ∉ s.drops → exec (.burstAbandonLink k link) s = .next s) ∧
        (32 * k + link ∈ s.drops → ∃ s', exec (.burstAbandonLink k link) s = .next s' ∧ 32 * k + link ∉ s'.drops ∧
          keepsMemory s s' ∧ (∀ b, b ∈ (s'.stack k).bursts ↔
            b ∈ st.bursts ∧ ¬ (b.committed = false ∧ b.src = edgeAddr (linkStop link))) ∧
          (∀ cls f, let key := portKey (stackPort k) (clsNum cls) 0
            f ∈ s'.rings.ports.at key [] ↔ f ∈ s.rings.ports.at key [] ∧ ¬ mine f) ∧
          ((∀ cls, ∀ f ∈ s.rings.ports.at (portKey (stackPort k) (clsNum cls) 0) [], ¬ mine f) →
            evCount s' 0x0A7 k = evCount s 0x0A7 k +
              BitVec.ofNat 31 (st.bursts.filter fun b => !b.committed && b.src == edgeAddr (linkStop link)).length))) ∧
      ∃ s', exec (.burstAbandonAge k) s = .next s' ∧ keepsMemory s s' ∧
        ∀ b, b ∈ (s'.stack k).bursts ↔ b ∈ st.bursts ∧ ¬ (b.committed = false ∧ b.epoch + 2 ≤ s.epoch)) ∧
  (
    ∀ (k c : Nat) (s : State), k < 8 → let st := s.stack k
      let h := st.chan c
      (¬ (h.due = true ∧ h.st = .inService) → exec (.channelIsolate k c) s = .next s) ∧
      (h.due = true → h.st = .inService →
        ∃ s', exec (.channelIsolate k c) s = .next s' ∧ keepsMemory s s' ∧ ((s'.stack k).chan c).due = false ∧
          evCount s' 0x0A8 k = evCount s 0x0A8 k + 1 ∧
          (st.room = true → ((s'.stack k).chan c).st = .isolated ∧
            (∃ r, (s'.stack k).reloc = some r ∧ r.chan = c ∧ r.copied = 0) ∧
            ∃ m, (s'.stack k).moves = st.moves ++ [m] ∧ m.chan = c) ∧
          (st.room = false → ((s'.stack k).chan c).st = .failed ∧ (s'.stack k).reloc = st.reloc ∧
            evCount s' 0x0AA k = evCount s 0x0AA k + 1 ∧ (s.errFatal = false → s'.errCorr = true))) ∧
      (st.reloc = none → exec (.relocationCopy k) s = .next s) ∧
      (∀ r, st.reloc = some r → let g := st.chan r.chan
        (g.running ≠ none ∨ g.queue ≠ [] → exec (.relocationCopy k) s = .next s) ∧
        (g.running = none → g.queue = [] → ∃ s', exec (.relocationCopy k) s = .next s' ∧ keepsMemory s s' ∧
          ((s'.stack k).chan r.chan).slot = g.slot + 1 ∧
          (r.copied + 1 < r.total → (s'.stack k).reloc = some { r with copied := r.copied + 1 } ∧ s'.events = s.events) ∧
          (r.total ≤ r.copied + 1 → (s'.stack k).reloc = none ∧ ((s'.stack k).chan r.chan).st = .retired ∧
            evCount s' 0x0A9 k = evCount s 0x0A9 k + 1))))

/-- R231 and Table 9-9: a stream command whose turn it is, on a descriptor in the cache.  A FREE stream answers NOSTREAM,
a state that Table 9-9 rules out STATE; both count in EV_STRM_REFUSED.  READ answers a word; ADVANCE moves the position,
FULL at the limit, and is refused past it or for a step of 0 or above 2^21; SETDUE sets next_due; LATE counts and answers
the count; FAIL makes the stream FAILED.

R215, R226, R314, R380, R381: STREAM_HARVEST of a stream that is open, full or closing reaches its next slot's header
line by one access in the stream's class, and waits while the line's channel gives its slots to others.  Where the line
is good and EMPTY, the slot becomes FILLING with the result number, late where next_due has passed, and the present epoch;
the descriptor's result count, next slot and next_due move on, and no other byte of stack memory changes.  A slot that
is not EMPTY and has not expired answers STATE, a line that is lost or whose channel has FAILED answers DATA.

R230, R231, R232: STREAM_CACHE_FILL brings the descriptor that a stream's oldest command, or a message, waits for into a
way of its set, read from its two lines of stack memory, and the command goes on as a miss; where every way of the set
has a command in progress it waits for one (which messages: log entry 56, the model's choice); STREAM_ID_AVAILABLE makes
a freed ID available at the second boundary after it was freed. -/
def Obligations.StreamTable : Prop :=
  (
    ∀ (a : ThreadAt) (acc : Access) (s : State) (site : Nat) (c : StrmCmd) (d : List Byte),
      let row := fun (n : Nat) => if n = 1 then Instr.streamRead a else if n = 2 then .streamAdvance a
        else if n = 3 then .streamSetdue a else if n = 4 then .streamLate a else if n = 5 then .streamHarvest ⟨a, acc⟩
        else .streamFail a
      let done := fun (n : Nat) (stat resp : Nat) (p : State → List Byte → Prop) => ∃ s' d', exec (row n) s = .next s' ∧
        streamDone s s' a site stat resp ∧ s'.cached c.id = some d' ∧ keepsMemory s s' ∧ p s' d'
      let refused := fun (n : Nat) (stat : Nat) => done n stat 0 fun s' d' => d' = d ∧
        evCount s' 0x0AB (c.id % 8) = evCount s 0x0AB (c.id % 8) + 1
      let live := Desc.st d = 1 ∨ Desc.st d = 2 ∨ Desc.st d = 3
      let step := c.arg.toNat % 2 ^ 22
      (∀ n, 1 ≤ n → n ≤ 6 → StreamServed s a site n c d → Desc.st d = 0 → refused n 1) ∧
      (∀ n, 2 ≤ n → n ≤ 6 → StreamServed s a site n c d → Desc.st d ≠ 0 → (if n = 2 then Desc.st d ≠ 1 else ¬ live) →
        refused n 2) ∧
      (StreamServed s a site 1 c d → Desc.st d ≠ 0 →
        done 1 0 (field d (8 * (c.arg.toNat % 16)) 8) fun _ d' => d' = d) ∧
      (StreamServed s a site 2 c d → Desc.st d = 1 →
        (step = 0 ∨ 2097152 < step → refused 2 4) ∧
        (step ≠ 0 → step ≤ 2097152 → Desc.limit d < Desc.position d + step → refused 2 3) ∧
        (step ≠ 0 → step ≤ 2097152 → Desc.position d + step ≤ Desc.limit d →
          done 2 0 (Desc.position d + step) fun s' d' => s'.events = s.events ∧
            Desc.position d' = Desc.position d + step ∧ Desc.limit d' = Desc.limit d ∧ Desc.gen d' = Desc.gen d ∧
            Desc.st d' = if Desc.position d + step = Desc.limit d then 2 else 1)) ∧
      (StreamServed s a site 3 c d → live → done 3 0 0 fun _ d' => Desc.nextDue d' = c.arg.toNat ∧
        Desc.st d' = Desc.st d ∧ Desc.position d' = Desc.position d) ∧
      (StreamServed s a site 4 c d → live → done 4 0 ((Desc.late d + 1) % 2 ^ 32) fun _ d' =>
        Desc.late d' = (Desc.late d + 1) % 2 ^ 32 ∧ Desc.results d' = Desc.results d ∧ Desc.st d' = Desc.st d) ∧
      (StreamServed s a site 6 c d → live → done 6 0 0 fun _ d' => Desc.st d' = 5 ∧
        Desc.position d' = Desc.position d ∧ Desc.gen d' = Desc.gen d)) ∧
  (
    ∀ (a : ThreadAt) (acc : Access) (s : State) (site : Nat) (c : StrmCmd) (d : List Byte) (at' line : Nat),
      StreamServed s a site 5 c d → (Desc.st d = 1 ∨ Desc.st d = 2 ∨ Desc.st d = 3) →
      at' = slotAddr d (Desc.harvestNext d) → line = at' / 64 →
      let k := homeStack at'
      let ch := (s.stack k).chan (s.chanNow k line)
      let turn := ch.st ≠ .failed ∧ ch.turn (s.streamCls c.id) = true
      let good := turn ∧ line ∉ s.memBad ∧ endsWell acc
      let h := Mem.readN s.mem (64 * line) 64
      let late := Desc.period d ≠ 0 ∧ Desc.nextDue d < s.now
      (ch.st ≠ .failed → ch.turn (s.streamCls c.id) = false → exec (.streamHarvest ⟨a, acc⟩) s = .next s) ∧
      (ch.st = .failed ∨ (turn ∧ (line ∈ s.memBad ∨ acc.result = .uncorrectable ∨ acc.result = .crcFail)) →
        ∃ s', exec (.streamHarvest ⟨a, acc⟩) s = .next s' ∧ streamDone s s' a site 5 0 ∧ keepsMemory s s') ∧
      (good → zeroBytes h 0 12 = true → ∀ n, n = (if late then 1 else 0) →
        ∃ s' d', exec (.streamHarvest ⟨a, acc⟩) s = .next s' ∧ streamDone s s' a site 0 (64 * line + n) ∧
          s'.cached c.id = some d' ∧ Desc.results d' = (Desc.results d + 1) % 2 ^ 32 ∧
          Desc.harvestNext d' = (Desc.harvestNext d + 1) % max 1 (Desc.harvestSlots d) ∧
          Desc.nextDue d' = (if Desc.period d = 0 then Desc.nextDue d else (Desc.nextDue d + Desc.period d) % 2 ^ 64) ∧
          Desc.late d' = (if late then (Desc.late d + 1) % 2 ^ 32 else Desc.late d) ∧
          field (Mem.readN s'.mem (64 * line) 64) 0 8 = 1 + 4 * n + Desc.results d * 2 ^ 32 ∧
          field (Mem.readN s'.mem (64 * line) 64) 16 6 = s.epoch % 2 ^ 44 ∧
          (∀ x, x < 64 * line ∨ 64 * line + 64 ≤ x → Mem.read s'.mem x = Mem.read s.mem x) ∧
          evCount s' 0x0AD (c.id % 8) = evCount s 0x0AD (c.id % 8) + BitVec.ofNat 31 n) ∧
      (good → zeroBytes h 0 12 = false → (Slot.st h = 0 ∨ s.epoch < Slot.fillEpoch h + s.boot.rs.harvestRetention) →
        ∃ s', exec (.streamHarvest ⟨a, acc⟩) s = .next s' ∧ streamDone s s' a site 2 0 ∧ keepsMemory s s')) ∧
  (
    ∀ s : State,
      (∀ (id : Nat) (a b : Access) (who : Option SentCmd),
        who = s.streamCmds.find? (fun k => k.cmd.id == id && s.oldest k.cmd) →
        let i := Instr.streamCacheFill (id % 8) ⟨id, [a, b]⟩
        let asked := who.isSome = true ∨ s.wantsDesc id = true
        let counted := (∀ k, who = some k → k.cmd.missed = false) ∧ (who = none → id ∉ s.strm.filled)
        let line := descAddr id / 64
        ((s.cached id).isSome = true ∨ ¬ asked → exec i s = .next s) ∧
        (s.cached id = none → asked → s.fillWay id = none →
          ((∃ w ∈ (s.stack (id % 8)).fillWaits, w.id = id) → exec i s = .next s) ∧
          ((∀ w ∈ (s.stack (id % 8)).fillWaits, w.id ≠ id) → counted → ∃ s', exec i s = .next s' ∧ keepsMemory s s' ∧
            s'.cached id = none ∧ (s'.stack (id % 8)).fillWaits = (s.stack (id % 8)).fillWaits ++ [{ id := id }] ∧
            s'.strm.misses = s.strm.misses + 1)) ∧
        (s.cached id = none → asked → (s.fillWay id).isSome = true → (∀ e ∈ (s.stack (id % 8)).cache, e.2.dirty = false) →
          LineFree s (id % 8) line → LineFree s (id % 8) (line + 1) → endsWell a → endsWell b → counted →
          ∃ s', exec i s = .next s' ∧ keepsMemory s s' ∧
            s'.cached id = some (Mem.readN s.mem (descAddr id) 128) ∧ s'.strm.misses = s.strm.misses + 1 ∧
            ∀ k, who = some k → (s'.thr k.site k.t).block = .stream { k.cmd with missed := true })) ∧
      (∀ (stack : Nat),
        (s.strm.freed.find? (fun f => f.id % 8 == stack && !f.avail && decide (f.epoch + 2 ≤ s.epoch)) = none →
          exec (.streamIdAvailable stack) s = .next s) ∧
        ∀ f, s.strm.freed.find? (fun f => f.id % 8 == stack && !f.avail && decide (f.epoch + 2 ≤ s.epoch)) = some f →
          ∃ s', exec (.streamIdAvailable stack) s = .next s' ∧ { f with avail := true } ∈ s'.strm.freed ∧
            s'.strm.freed.length = s.strm.freed.length ∧ keepsMemory s s'))

/-- R252, R253 and Table 11-2: a receive lane with more than lane_degrade corrected symbols begins its swap by MIRROR; a
lost one, receive or transmit, is replaced at once, the link retraining with its session, or drops it with NO_LANE where
its direction has no spare.

R252 to R254 and Table 11-2: the LANE messages.  MIRROR copies a lane onto the idle spare and answers MIRROR_ON, or
REFUSE; MIRROR_ON moves the receiver onto the spare and answers SWITCHED; SWITCHED moves the transmitter; TEST puts PRBS31
on a lane out of service, or answers REFUSE; TEST_RESULT keeps the count; REFUSE ends the swap of its lane. -/
def Obligations.LanesSwap : Prop :=
  (
    ∀ (k lane ce : Nat) (s : State) (l : Link), l = s.link k → lane < 5 →
      let begins := s.boot.rs.laneDegrade < ce ∧ laneIn l.rxMap lane = true ∧ l.rxSpare = true
      (l.live = false → exec (.laneDegrade k lane ce) s = .next s ∧ ∀ tx, exec (.laneLoss k ⟨lane, tx⟩) s = .next s) ∧
      (l.live = true → ∃ s', exec (.laneDegrade k lane ce) s = .next s' ∧ (s'.link k).laneCe.find lane = some ce ∧
        (s'.link k).st = l.st ∧ keepsMemory s s' ∧
        (begins → (s'.link k).swap = some lane ∧ (s'.link k).sess.ctrl = l.sess.ctrl ++ [(6, laneBody 1 lane 0)]) ∧
        (¬ begins → (s'.link k).swap = l.swap ∧ (s'.link k).sess = l.sess)) ∧
      (l.live = true → laneIn l.rxMap lane = true →
        ∃ s', exec (.laneLoss k ⟨lane, false⟩) s = .next s' ∧ keepsMemory s s' ∧
          (∀ p, l.rxSpareLane = some p → (s'.link k).st = 5 ∧ (s'.link k).sess = l.sess ∧
            (s'.link k).rxOut.getLsbD lane = true ∧ evCount s' 0x0B4 k = evCount s 0x0B4 k + 1 ∧
            evCount s' 0x0B3 k = evCount s 0x0B3 k + 1 ∧
            ∀ i, i < 4 → laneAt (s'.link k).rxMap i = if laneAt l.rxMap i = lane then p else laneAt l.rxMap i) ∧
          (l.rxSpareLane = none → (s'.link k).st = 6 ∧ (s'.link k).reason = 4 ∧ (s'.link k).sess.held = [] ∧
            (s'.link k).sess.recs = [] ∧ evCount s' 0x0B5 k = evCount s 0x0B5 k + 1)) ∧
      (l.live = true → laneIn l.txMap lane = true →
        ∃ s', exec (.laneLoss k ⟨lane, true⟩) s = .next s' ∧ keepsMemory s s' ∧
          (∀ p, l.txSpareLane = some p → (s'.link k).st = 5 ∧ (s'.link k).sess = l.sess ∧ (s'.link k).rxMap = l.rxMap ∧
            (s'.link k).txOut.getLsbD lane = true ∧ evCount s' 0x0B3 k = evCount s 0x0B3 k + 1 ∧
            ∀ i, i < 4 → laneAt (s'.link k).txMap i = if laneAt l.txMap i = lane then p else laneAt l.txMap i) ∧
          (l.txSpareLane = none → (s'.link k).st = 6 ∧ (s'.link k).reason = 4 ∧
            evCount s' 0x0B5 k = evCount s 0x0B5 k + 1))) ∧
  (
    ∀ (k : Nat) (s : State) (l : Link) (body : List Byte) (rest : List (List Byte)) (lane : Nat), l = s.link k →
      inboxFirst s k 6 body rest → lane = field body 1 1 → lane < 5 →
      let moved := fun (old new : BitVec 12) (sp : Nat) =>
        ∀ i, i < 4 → laneAt new i = if laneAt old i = lane then sp else laneAt old i
      let does := fun (i : Instr) (p : State → Link → Prop) => ∃ s', exec i s = .next s' ∧ (s'.link k).inbox = rest ∧
        (s'.link k).st = l.st ∧ keepsMemory s s' ∧ p s' (s'.link k)
      (field body 0 1 = 1 → does (.laneMirror k) fun _ l' =>
        (l.txSpare = true ∧ laneIn l.txMap lane = true →
          l'.mirror = some lane ∧ l'.sess.ctrl = l.sess.ctrl ++ [(6, laneBody 2 lane 0)]) ∧
        (¬ (l.txSpare = true ∧ laneIn l.txMap lane = true) →
          l'.mirror = l.mirror ∧ l'.sess.ctrl = l.sess.ctrl ++ [(6, laneBody 6 lane 0)])) ∧
      (field body 0 1 = 2 → does (.laneMirrorOn k) fun s' l' =>
        (l.swap = some lane → l'.swap = none ∧ moved l.rxMap l'.rxMap (l.rxSpareLane.getD 4) ∧
          l'.rxOut.getLsbD lane = true ∧ l'.sess.ctrl = l.sess.ctrl ++ [(6, laneBody 3 lane 0)] ∧
          evCount s' 0x0B4 k = evCount s 0x0B4 k + 1) ∧
        (l.swap ≠ some lane → l'.rxMap = l.rxMap ∧ l'.sess = l.sess)) ∧
      (field body 0 1 = 3 → does (.laneSwitched k) fun _ l' =>
        (l.mirror = some lane → l'.mirror = none ∧ moved l.txMap l'.txMap (l.txSpareLane.getD 4) ∧
          l'.txOut.getLsbD lane = true) ∧
        (l.mirror ≠ some lane → l'.txMap = l.txMap ∧ l'.mirror = l.mirror)) ∧
      (field body 0 1 = 4 → does (.laneTest k) fun _ l' =>
        (laneIn l.txMap lane = true → l'.sess.ctrl = l.sess.ctrl ++ [(6, laneBody 6 lane 0)] ∧ l'.txTest = l.txTest) ∧
        (laneIn l.txMap lane = false → l'.txTest = some lane ∧ l'.sess = l.sess)) ∧
      (field body 0 1 = 5 → does (.laneTestResult k) fun _ l' =>
        l'.txTest = none ∧ l'.testErrors.find lane = some (BitVec.ofNat 32 (field body 4 4))) ∧
      (field body 0 1 = 6 → does (.laneRefuse k) fun _ l' =>
        l'.swap = (if l.swap = some lane then none else l.swap) ∧
        l'.rxTest = (if l.rxTest = some lane then none else l.rxTest)))

/-- R271, R272, R273, R298 and Tables 11-8, 11-10: the states of a link.  Signal takes ABSENT to TRAINING and its loss back;
PHY training ends; a TRAIN frame of a set outside compat quarantines with COMPAT, else it is kept, and with both ends seen
the link is ADMITTING and queues for the engine, or fails with SELF where this module's own identity is not usable (R285,
R290).  The timeouts of training and retraining quarantine; DOWN drops to ABSENT; the end of a backoff trains again; after
1,024 whole epochs UP the count n is 0.  Before step 6 of start, and after a start that failed, no link trains (R340). -/
def Obligations.LinkStateMachine : Prop :=
  ∀ (k : Nat) (s : State) (l : Link), l = s.link k →
    let goes := fun (i : Instr) (st : Nat) (p : State → Link → Prop) => ∃ s', exec i s = .next s' ∧
      (s'.link k).st = st ∧ keepsMemory s s' ∧ p s' (s'.link k)
    let any := fun (_ : State) (_ : Link) => True
    let drops := fun (s' : State) (l' : Link) => evCount s' 0x0B5 k = evCount s 0x0B5 k + 1 ∧ l'.sess.held = [] ∧
      l'.sess.recs = [] ∧ l'.grant = 0
    let ready := fun (sent : Bool) (got : Bool) (i : Instr) (p : State → Link → Prop) =>
      (s.boot.ownOk = true ∨ ¬ (sent ∧ got) → goes i (if sent ∧ got then 3 else 2) fun s' l' => p s' l' ∧
        s'.admitQueue = s.admitQueue ++ (if sent ∧ got then [k] else [])) ∧
      (s.boot.ownOk = false → sent → got → goes i 6 fun s' l' => l'.reason = 6 ∧ l'.lastCode = 10 ∧
        evCount s' 0x0BC k = evCount s 0x0BC k + 1)
    let trains := s.boot.powered = true ∧ s.boot.inReset = false ∧ 6 ≤ s.boot.step.toNat ∧ s.boot.reason = 0
    (l.st = 1 → trains → goes (.signalDetect k) 2 fun _ l' => l'.locked = false) ∧
    (¬ trains → exec (.signalDetect k) s = .next s ∧ exec (.quarantineBackoffEnd k) s = .next s) ∧
    (l.st = 2 → goes (.signalLoss k) 1 any) ∧
    (l.live = true → goes (.signalLoss k) 1 fun s' l' => drops s' l' ∧ l'.reason = 1) ∧
    (l.st = 2 ∨ l.st = 5 → goes (.phyTrainingDone k) l.st fun _ l' => l'.phyUp = true) ∧
    (l.st = 2 → l.phyUp = true → s.pace.tripped = false →
      ready (l.sentSeen || l.train.isSome) l.gotSeen (.trainFrameTimer k) fun _ l' => field l'.wire 0 2 % 16 = 4) ∧
    (∀ body rest, l.st = 2 → inboxFirst s k 4 body rest →
      ((field body 4 2 < s.boot.rs.compatLo ∨ s.boot.rs.compatHi < field body 4 2) →
        goes (.train k) 6 fun s' l' => l'.reason = 5 ∧ evCount s' 0x0BF k = evCount s 0x0BF k + 1) ∧
      (s.boot.rs.compatLo ≤ field body 4 2 → field body 4 2 ≤ s.boot.rs.compatHi →
        ready l.sentSeen (l.gotSeen || field body 11 1 == 1) (.train k) fun _ l' =>
          ∃ t, l'.train = some t ∧ t.node.toNat = field body 0 3 % 2 ^ 18 ∧ t.set.toNat = field body 4 2)) ∧
    (l.st = 2 → goes (.trainingTimeout k) 6 fun s' l' => l'.reason = 2 ∧ l'.n = l.n + 1 ∧
      evCount s' 0x0BF k = evCount s 0x0BF k + 1) ∧
    (l.st = 5 → goes (.retrainTimeout k) 6 fun s' l' => drops s' l' ∧ l'.reason = 2 ∧ l'.n = l.n + 1) ∧
    (∀ body rest, l.live = true → inboxFirst s k 7 body rest →
      goes (.linkDown k) 1 fun s' l' => drops s' l' ∧ l'.reason = 9) ∧
    (l.st = 6 → l.pruned = false → trains → l.backoffEnd < 2 ^ 64 → goes (.quarantineBackoffEnd k) 2 fun s' l' =>
      s'.now = max s.now l.backoffEnd ∧ l'.n = l.n ∧ l'.locked = false) ∧
    let whole := s.now / 2 ^ 20 - (l.since + (2 ^ 20 - 1)) / 2 ^ 20
    (l.st = 4 → 1024 ≤ whole → goes (.quarantineCountReset k) 4 fun _ l' => l'.n = 0) ∧
    (l.st ≠ 4 ∨ whole < 1024 → exec (.quarantineCountReset k) s = .next s)

/-- R251, R256, R257, R258, R260, R262, R270, R273: FRAME_RECEIVE.  Uncorrectable FEC codewords count; a frame that fails its
CRC or lies over one of them counts, and an UP link that has frame lock enters NAK; the fourth good frame in a row takes lock, and brings a
RETRAINING link UP.  In UP a frame whose tag fails counts; a DATA frame in sequence gives its flit to the buffer of its
VC.  In TRAINING a TRAIN frame waits to be acted on.

R255, R257, R262, R263, R266: FRAME_BUILD at a port where no response waits, NAK_RESEND and REPLAY_TIMEOUT.  An UP port
sends an IDLE where 63 frames have passed since the last; else a waiting control frame; else a frame to be replayed;
else a new DATA frame, a TIME flit first, kept until it is acknowledged; else an IDLE, which returns every credit.  Each
frame takes the next txc.  A NAK is sent again after 2 us; unacknowledged frames are replayed after 4 us, and after four
replays the link retrains.

R40: after a trip no frame is accepted or sent. -/
def Obligations.LinkFrames : Prop :=
  (
    ∀ (k : Nat) (b : List Byte) (fec : Bool) (n : Nat) (s : State), s.pace.tripped = true →
      exec (.frameReceive k b ⟨fec, n⟩) s = .next s ∧ exec (.frameBuild k) s = .next s ∧ exec (.nakResend k) s = .next s) ∧
  (
    ∀ (k : Nat) (b : List Byte) (fec : Bool) (n : Nat) (s : State) (l : Link), l = s.link k → s.boot.powered = true →
      s.boot.inReset = false → s.pace.tripped = false → 2 ≤ l.st → l.st ≤ 5 → b.length = 352 →
      let good := fec = false ∧ crc32c (slice b 0 12 ++ slice b 16 336) = field b 12 4
      let does := fun (p : State → Link → Prop) => ∃ s', exec (.frameReceive k b ⟨fec, n⟩) s = .next s' ∧ keepsMemory s s' ∧
        p s' (s'.link k)
      let fecs := fun (s' : State) => evCount s' 0x0AF k = evCount s 0x0AF k + BitVec.ofNat 31 n
      let naks := fun (l' : Link) => l.st = 4 → l.sess.nak = false →
        l'.sess.nak = true ∧ l'.sess.ctrl = l.sess.ctrl ++ [(3, [])]
      (¬ good → does fun s' l' => l'.goodRun = 0 ∧ l'.badRun = l.badRun + 1 ∧
        l'.locked = (l.locked && decide (l.badRun + 1 < 8)) ∧ l'.st = l.st ∧
        evCount s' 0x0AE k = evCount s 0x0AE k + (if l.locked then 1 else 0) ∧
        fecs s' ∧ (l.locked = true → naks l')) ∧
      (good → l.locked = false → does fun s' l' => l'.goodRun = l.goodRun + 1 ∧ l'.locked = decide (3 ≤ l.goodRun) ∧
        fecs s' ∧ l'.st = (if l.st = 5 ∧ 3 ≤ l.goodRun then 4 else l.st) ∧
        (l.st = 5 → 3 ≤ l.goodRun → l'.sess.resend = l.sess.held ∧
          evCount s' 0x0B2 k = evCount s 0x0B2 k + (if l.sess.held = [] then 0 else 1)) ∧
        (l.st ≠ 4 → (frameOf b).ep.toNat = (s.epoch + 2) % 8 → l'.apart = true)) ∧
      (good → l.locked = true → l.st = 2 → (frameOf b).ftype = 4 → (frameOf b).wellFormed false = true →
        trainBodyOk (slice b 16 320) = true → does fun _ l' => l'.inbox = l.inbox ++ [4 :: slice b 16 320] ∧ l'.st = 2) ∧
      (good → l.locked = true → l.st = 4 → (frameOf b).ftype ≠ 4 → (frameOf b).ftype ≠ 5 →
        (l.sess.openFrame b = none → l.tagFails < 16 → does fun s' l' => l'.tagFails = l.tagFails + 1 ∧
          evCount s' 0x0B0 k = evCount s 0x0B0 k + 1 ∧ l'.st = 4 ∧ naks l') ∧
        (∀ txc body f x v, l.sess.openFrame b = some (txc, body) → f = { frameOf b with body := body } →
          f.ftype = 1 → f.wellFormed l.sess.enc = true → f.ep.toNat = s.epoch % 8 → f.creditValid = false →
          l.sess.held.any (·.fseq == f.ack) = false → f.fseq = l.sess.expFseq → f.mask = 1 → v = f.vcAt 0 →
          lflitOf (slice body 0 80) = (x, true) → s.lflitOk k v x true = true → (l.sess.vc v).rx.length < vcBuffer v →
          x.follows (l.sess.vc v).rx = true →
          does fun _ l' => (l'.sess.vc v).rx = (l.sess.vc v).rx ++ [x] ∧ l'.sess.expFseq = l.sess.expFseq + 1 ∧
            l'.sess.nak = false ∧ l'.sess.txcRx = txc + 1 ∧ l'.rxData = l.rxData + 1 ∧ l'.st = 4))) ∧
  (
    ∀ (k : Nat) (s : State) (l : Link), l = s.link k → s.boot.powered = true → s.boot.inReset = false →
      s.pace.tripped = false →
      let does := fun (i : Instr) (p : State → Link → Prop) => ∃ s', exec i s = .next s' ∧ keepsMemory s s' ∧ p s' (s'.link k)
      let sends := fun (t : Nat) (p : Link → Prop) => does (.frameBuild k) fun _ l' =>
        field l'.wire 0 2 % 16 = t ∧ l'.sess.txcTx = l.sess.txcTx + 1 ∧ l'.st = l.st ∧ p l'
      ((∀ c, c < 3 → s.rings.ports.at (portKey (linkStop k) c 1) [] = []) →
        (l.st < 3 ∨ l.st = 6 → exec (.frameBuild k) s = .next s) ∧
        (l.st = 5 → l.phyUp = true → sends 2 fun l' => l'.sess.credits = []) ∧
        (l.st = 3 → ∀ t body r, l.sess.ctrl = (t, body) :: r → t < 16 →
          does (.frameBuild k) fun _ l' => l'.sess.ctrl = r ∧ field l'.wire 0 2 % 16 = t) ∧
        (l.st = 4 → (63 ≤ l.sess.sinceIdle → sends 2 fun l' => l'.sess.credits = [] ∧ l'.sess.sinceIdle = 0) ∧
          (l.sess.sinceIdle < 63 → ∀ t body r, l.sess.ctrl = (t, body) :: r → t < 16 → sends t fun l' => l'.sess.ctrl = r) ∧
          (l.sess.ctrl = [] → l.sess.sinceIdle < 63 →
            (∀ fr r, l.sess.resend = fr :: r → sends 1 fun l' => l'.sess.resend = r ∧ l'.sess.held = l.sess.held ∧
              l'.sess.nextFseq = l.sess.nextFseq) ∧
            (l.sess.resend = [] → (∃ v, v < 8 ∧ l.sess.canSend v = true) → l.sess.held.length < 512 →
              sends 1 fun l' => ∃ fr, l'.sess.held = l.sess.held ++ [fr] ∧ fr.fseq = l.sess.nextFseq ∧
                l'.sess.nextFseq = l.sess.nextFseq + 1 ∧ 1 ≤ fr.slots.length ∧ fr.slots.length ≤ 4 ∧
                (l.sess.canSend 6 = true → ∃ f r, (l.sess.vc 6).tx = f :: r ∧ fr.slots.head? = some (6, f))) ∧
            (l.sess.resend = [] → (∀ v, l.sess.canSend v = false) ∨ 512 ≤ l.sess.held.length →
              sends 2 fun l' => l'.sess.held = l.sess.held)))) ∧
      (l.st = 4 → l.sess.nak = true → l.sess.nakAt < 2 ^ 63 → does (.nakResend k) fun s' l' =>
        s'.now = max s.now (l.sess.nakAt + 2000) ∧ l'.sess.nakAt = s'.now ∧ l'.sess.ctrl = l.sess.ctrl ++ [(3, [])]) ∧
      (l.st ≠ 4 ∨ l.sess.nak = false → exec (.nakResend k) s = .next s) ∧
      (l.st = 4 → l.sess.held ≠ [] → l.sess.heldAt < 2 ^ 63 → does (.replayTimeout k) fun s' l' =>
        s'.now = max s.now (l.sess.heldAt + 4000) ∧ l'.sess.held = l.sess.held ∧
        (l.sess.replays < 4 → l'.sess.resend = l.sess.held ∧ l'.sess.replays = l.sess.replays + 1 ∧ l'.st = 4 ∧
          evCount s' 0x0B2 k = evCount s 0x0B2 k + 1) ∧
        (4 ≤ l.sess.replays → l'.st = 5 ∧ evCount s' 0x0B3 k = evCount s 0x0B3 k + 1)) ∧
      (l.st ≠ 4 ∨ l.sess.held = [] → exec (.replayTimeout k) s = .next s))

/-- R261, R265, R274, R294, R295: INGRESS_FORWARD.  A request that the checks let through to a core, a stack or another
link keeps response room and leaves the buffer for the edge ring; where that room is taken it waits.  One that the filter
refuses, and a response that ends no request, count.  A response ends its record.

R265, R272, R274, R275, R278, R296: EGRESS_RESERVE writes a record with the class timeout and queues the message on its
VC; without room the request waits, and on a dead or draining link it leaves the port.  A record ends after its timeout.
STALL_DRAIN_ENTER drains a class whose oldest request has waited stall_limit.  APERTURE_BURST_DELIVERED ends a staged
burst.  ACAP_WINDOW_END starts the class A count again. -/
def Obligations.LinkPorts : Prop :=
  (
    ∀ (k v : Nat) (s : State) (l : Link), l = s.link k →
      (l.st ≠ 4 ∨ s.vcHead k v = none → exec (.ingressForward k v) s = .next s) ∧
      (∀ f r overCap, l.st = 4 → s.vcHead k v = some (f :: r) → overCap = (v == 0 && l.sess.aMarks.headD false) →
        (v < 6 → v % 2 = 0 → s.storeFree k (clsOf f.cls) = false → exec (.ingressForward k v) s = .next s) ∧
        (v < 6 → v % 2 = 0 → (s.judge k v (f :: r) f overCap = .core ∨ (s.judge k v (f :: r) f overCap = .stack ∧ f.kind ≠ 8) ∨
            ∃ out, s.judge k v (f :: r) f overCap = .transit out) →
          (s.storeFree k (clsOf f.cls) = true → ∃ s' q, exec (.ingressForward k v) s = .next s' ∧ keepsMemory s s' ∧
            rxOf s' k v = (rxOf s k v).drop (r.length + 1) ∧ (s'.link k).sess.inRecs = l.sess.inRecs ++ [q] ∧
            q.ptxn = f.txn ∧ q.node = f.src ∧ q.cls = clsOf f.cls ∧ q.kind = f.kind ∧ q.txn = l.sess.nextIn % 2 ^ 12)) ∧
        (v < 6 → v % 2 = 0 → s.storeFree k (clsOf f.cls) = true → s.judge k v (f :: r) f overCap = .filter → ∃ s', exec (.ingressForward k v) s = .next s' ∧
          evCount s' 0x0BD k = evCount s 0x0BD k + 1 ∧ keepsMemory s s') ∧
        (v < 6 → v % 2 = 1 →
          (∀ q, l.sess.recs.find? (fun r => r.txn == f.txn.toNat && r.kind + 1 == f.kind && r.cls == clsOf f.cls) = some q →
            ∃ s', exec (.ingressForward k v) s = .next s' ∧ rxOf s' k v = (rxOf s k v).drop 1 ∧
              (s'.link k).sess.recs = l.sess.recs.erase q ∧ keepsMemory s s') ∧
          (l.sess.recs.find? (fun r => r.txn == f.txn.toNat && r.kind + 1 == f.kind && r.cls == clsOf f.cls) = none →
            ∃ s', exec (.ingressForward k v) s = .next s' ∧ rxOf s' k v = (rxOf s k v).drop 1 ∧
              (s'.link k).sess.recs = l.sess.recs ∧ evCount s' 0x0B9 k = evCount s 0x0B9 k + 1 ∧ keepsMemory s s')))) ∧
  (
    ∀ (k : Nat) (s : State) (l : Link), l = s.link k →
      (∀ g, s.portMessage k g = none → exec (.egressReserve k g) s = .next s) ∧
      (∀ g f r rest, s.portMessage k g = some (f :: r, rest) → f.index = 0 → (f :: r).any (·.last) = true →
        (∀ x ∈ f :: r, x.bad = 0) → f.kind = 0 →
        (l.live = true → l.stalled g = false → l.sess.egressRoom g = true → ∃ s' q, exec (.egressReserve k g) s = .next s' ∧
          keepsMemory s s' ∧ s'.rings.ports.at (portKey (linkStop k) (clsNum g) 0) [] = rest ∧
          (s'.link k).sess.recs = l.sess.recs ++ [q] ∧ q.cls = g ∧ q.src = f.src ∧ q.otxn = f.txn ∧
          q.deadline = s.now + s.classTimeout g ∧
          (txOf s' k (2 * clsNum g)).length = (txOf s k (2 * clsNum g)).length + (r.length + 1)) ∧
        (l.live = true → l.stalled g = false → l.sess.egressRoom g = false → ∃ s', exec (.egressReserve k g) s = .next s' ∧
          keepsMemory s s' ∧ s'.rings = s.rings ∧ (s'.link k).sess = l.sess ∧
          (s'.link k).waitFrom.find (clsNum g) = some ((l.waitFrom.find (clsNum g)).getD s.now)) ∧
        (l.live = false ∨ l.stalled g = true → ∃ s', exec (.egressReserve k g) s = .next s' ∧ keepsMemory s s' ∧
          (s'.link k).sess = l.sess)) ∧
      (∀ rec, (l.sess.recs.find? (·.txn == rec) = none → exec (.requestRecordTimeout k rec) s = .next s) ∧
        ∀ q, l.sess.recs.find? (·.txn == rec) = some q → q.deadline < 2 ^ 64 →
          ∃ s', exec (.requestRecordTimeout k rec) s = .next s' ∧ (s'.link k).sess.recs = l.sess.recs.erase q ∧
            s'.now = max s.now q.deadline ∧ keepsMemory s s') ∧
      (∀ g, (l.oldestWait g = none ∨ l.live = false ∨ l.stalled g = true →
          exec (.stallDrainEnter k g) s = .next s) ∧
        ∀ t0, l.oldestWait g = some t0 → l.live = true → l.stalled g = false →
          ∃ s', exec (.stallDrainEnter k g) s = .next s' ∧ (s'.link k).stalled g = true ∧
            evCount s' 0x0B8 k = evCount s 0x0B8 k + 1 ∧ keepsMemory s s') ∧
      (∀ n, ((∀ c, c < 3 → ∀ f ∈ s.rings.ports.at (portKey (linkStop k) c 1) [], ¬ (apAck f = true ∧ f.txn.toNat = n)) →
          exec (.apertureBurstDelivered k n) s = .next s) ∧
        ((∃ c, c < 3 ∧ ∃ f ∈ s.rings.ports.at (portKey (linkStop k) c 1) [], apAck f = true ∧ f.txn.toNat = n) →
          (∀ c, c < 3 → ∀ f ∈ s.rings.ports.at (portKey (linkStop k) c 1) [], apAck f = true → f.txn.toNat = n → f.bad = 0) →
          ∃ s', exec (.apertureBurstDelivered k n) s = .next s' ∧ keepsMemory s s' ∧
            (∀ a, a ∈ (s'.link k).aps ↔ a ∈ l.aps ∧ a.bseq.toNat ≠ n) ∧
            ∀ q, q ∈ (s'.link k).brec.out ↔ q ∈ l.brec.out ∧ q.toNat ≠ n)) ∧
      (∃ s', exec (.acapWindowEnd k) s = .next s' ∧ (s'.link k).aWindow = 0 ∧ (s'.link k).sess = l.sess ∧ keepsMemory s s'))

/-- R284, R287 to R293, R298 and Table 12-8: admission.  The engine takes the port that has waited longest and sends HELLO; a HELLO or a PROVE that passes its checks is answered by PROVE or RESULT; a good
RESULT brings the link UP with the partner's node and the grant of its chain; the first check that fails, a malformed
RESULT (1), an error RESULT (12) or the timeout (9) ends in quarantine with reason ADMIT and its code, and counts. -/
def Obligations.AdmissionExchange : Prop :=
  ∀ (s : State),
    let fails := fun (k : Nat) (c : Instr) (code : Nat) => ∃ s', exec c s = .next s' ∧ keepsMemory s s' ∧
      (s'.link k).st = 6 ∧ (s'.link k).reason = 6 ∧ (s'.link k).lastCode.toNat = code % 16 ∧
      (s'.link k).n = (s.link k).n + 1 ∧ evCount s' 0x0BC k = evCount s 0x0BC k + 1 ∧
      evCount s' 0x0BF k = evCount s 0x0BF k + 1
    let sends := fun (k : Nat) (c : Instr) (msg : Nat) => ∃ s', exec c s = .next s' ∧ keepsMemory s s' ∧
      (s'.link k).st = 3 ∧ (s'.link k).adm.stage = msg ∧ (s'.link k).adm.sentMsg = msg ∧ (s'.link k).adm.sentAt = s.now ∧
      s'.events = s.events ∧ (∃ e ∈ (s'.link k).sess.ctrl, e.1 = 5 ∧ field e.2 0 1 = msg)
    (s.admitQueue = [] → exec .admitEngineStart s = .next s) ∧
    (∀ k rest, s.admitQueue = k :: rest → (s.link k).st = 3 → sends k .admitEngineStart 1) ∧
    (∀ k b, (s.link k).st = 3 → (s.link k).adm.stage = 1 → (s.link k).adm.message 1 = some b →
      (∀ code, s.helloCode k b = some code → fails k (.admitHello k) code) ∧
      (s.helloCode k b = none → sends k (.admitHello k) 2)) ∧
    (∀ k b, (s.link k).st = 3 → (s.link k).adm.stage = 2 → (s.link k).adm.message 2 = some b →
      (∀ code, (s.link k).adm.proveCode b = some code → fails k (.admitProve k) code) ∧
      ((s.link k).adm.proveCode b = none → sends k (.admitProve k) 3)) ∧
    (∀ k b, (s.link k).st = 3 → (s.link k).adm.message 3 = some b →
      (resultOk b = false → fails k (.admitResult k) 1) ∧
      (resultOk b = true → field b 1 1 ≠ 0 → fails k (.admitResult k) 12) ∧
      (resultOk b = true → field b 1 1 = 0 → (s.link k).adm.stage = 3 →
        (slice b 16 48 = hmac (s.link k).adm.cPeer (slice b 0 16 ++ (s.link k).adm.h) → ∀ t, (s.link k).train = some t →
          ∃ s', exec (.admitResult k) s = .next s' ∧ (s'.link k).st = 4 ∧ (s'.link k).grant = (s.link k).adm.grant ∧
            (s'.link k).partnerNode = t.node ∧ (∀ v, v < 8 → ((s'.link k).sess.vc v).limit = t.init.getD v 0) ∧
            (s'.link k).sess.kTx = (s.link k).adm.kTx ∧ (s'.link k).sess.txcTx = 0 ∧ keepsMemory s s') ∧
        (slice b 16 48 ≠ hmac (s.link k).adm.cPeer (slice b 0 16 ++ (s.link k).adm.h) → fails k (.admitResult k) 7))) ∧
    (∀ k, (s.link k).st = 3 → (s.link k).adm.sentMsg ≠ 0 → (s.link k).adm.sentAt < 2 ^ 63 →
      ((s.link k).adm.sentMsg = 3 ∨ (s.link k).adm.message ((s.link k).adm.sentMsg + 1) = none) →
      ∃ s', exec (.admitResend k) s = .next s' ∧ s'.now = max s.now ((s.link k).adm.sentAt + 1000000) ∧
        (s'.link k).adm.sent = (s.link k).adm.sent ∧ (s'.link k).adm.sentAt = s'.now ∧ keepsMemory s s') ∧
    (∀ k, (s.link k).st = 3 → fails k (.admitTimeout k) 9) ∧
    (∀ k, (s.link k).st ≠ 3 → exec (.admitHello k) s = .next s ∧ exec (.admitProve k) s = .next s ∧
      exec (.admitResult k) s = .next s ∧ exec (.admitTimeout k) s = .next s)

/-- R421 and Table 15-11: MOD_PWR_EN_CHANGE, MOD_RESET_N_ASSERT and INPUT_UNDERVOLTAGE.  Power lost or given, or reset
asserted, leaves the die held in reset: no link, core, stack memory or event count of it stays; the flash images, the tray
and the commands that wait do.  A reset without a power cycle keeps the locked configuration and its image, a waived
envelope with its alarm, and FAILED channels (R24, R36, Table 14-7; log entry 77, the model's reading).

R80, R338: BOOT_PLAN_THREAD_START.  At the first boundary after step 8 the boot plan's threads run: step 9, and the
heartbeat is armed; before it, or with no plan in force, nothing happens. -/
def Obligations.PowerResetAndThreads : Prop :=
  (
    ∀ s : State,
      let held := fun (i : Instr) (powered : Bool) => ∃ s', exec i s = .next s' ∧ s'.boot.powered = powered ∧
        s'.boot.inReset = true ∧ s'.boot.running = false ∧ s'.boot.step = 0 ∧ s'.boot.plan = none ∧
        s'.boot.flashA = s.boot.flashA ∧ s'.boot.flashB = s.boot.flashB ∧ s'.tray = s.tray ∧ s'.links = [] ∧ s'.cores = [] ∧
        s'.mem = [] ∧ s'.events = [] ∧ s'.errFatal = false ∧ s'.time = {} ∧ s'.hb = {} ∧
        s'.strm = {} ∧ s'.wdn = {} ∧ s'.units = [] ∧
        (i ≠ .modResetNAssert → s'.pace = {} ∧ s'.errCorr = false ∧ s'.boot.locked = false ∧ s'.memStacks = []) ∧
        (i = .modResetNAssert → s'.boot.locked = s.boot.locked ∧ s'.boot.rs = s.boot.rs ∧ s'.boot.image = s.boot.image ∧
          s'.pace.tripped = false ∧ s'.pace.waived = s.pace.waived ∧
          (s'.pace.alarm = true ↔ s.pace.waived = true ∧ s.pace.alarm = true) ∧
          (s'.pace.alarm = true → s'.errCorr = s.errCorr) ∧
          ∀ k c, ((s'.stack k).chan c).st = .failed ↔ ((s.stack k).chan c).st = .failed)
      (∀ on, s.boot.powered = on → exec (.modPwrEnChange on) s = .next s) ∧
      (∀ on, s.boot.powered ≠ on → held (.modPwrEnChange on) on) ∧
      (s.boot.powered = true → s.boot.inReset = false → held .modResetNAssert true) ∧
      (s.boot.powered = false ∨ s.boot.inReset = true → exec .modResetNAssert s = .next s) ∧
      (s.boot.powered = true → held .inputUndervoltage false) ∧
      (s.boot.powered = false → exec .inputUndervoltage s = .next s)) ∧
  (
    ∀ s : State,
      let due := s.boot.powered = true ∧ s.boot.inReset = false ∧ s.boot.ready = true ∧ s.boot.running = false ∧
        s.boot.readyEpoch < s.epoch
      (due → ∃ s', exec .bootPlanThreadStart s = .next s' ∧ s'.boot.running = true ∧ s'.boot.step = 9 ∧
        s'.hb.toggling = true ∧ s'.hb.bootRate = false ∧ s'.cores = s.cores ∧ s'.events = s.events ∧ keepsMemory s s') ∧
      (¬ due → exec .bootPlanThreadStart s = .next s))

/-- R337, R338, R340 and Table 15-12: MOD_RESET_N_RELEASE samples the straps.  A die that fails its self-test stops at step
1 with reason 6; straps 11 hold the boot controller at step 1; straps 00, 01 and 10 name image A, image B, and the usable
image of the higher seq, A on a tie; with no usable image start stops at step 2 with reason 1, or 2 where the named image
is valid.  A module whose configuration is locked keeps it and its image (R24; log entry 77).  A start that stops asserts MOD_ERR_FATAL_N and owes the warden START_FAILED.

R36, R42, R52, R198, R204, R338, R339, R340 and Table 15-11: steps 4 to 8 after the configuration is applied.  No legal
site map stops start with reason 3, a stack that does not train or retires two channels with reason 4, no boot plan of the
die's shape, or one that is refused or whose SHA-384 differs, with reason 5 and the code.  Else the plan goes into both
banks, and step 8 is done.  A start that stops holds every trained link in QUARANTINED with reason DISABLED. -/
def Obligations.StartSequence : Prop :=
  (
    ∀ (env : StartEnv) (s : State), s.boot.powered = true → s.boot.inReset = true →
      let a := rootstockUsable s.boot.flashA
      let b := rootstockUsable s.boot.flashB
      let stops := fun (s' : State) (step reason : Nat) => s'.boot.step.toNat = step ∧ s'.boot.reason.toNat = reason ∧
        s'.errFatal = true ∧ ReportKind.startFailed ∈ s'.reports
      let named := if env.straps = 1 then s.boot.flashB else s.boot.flashA
      let takesB := env.straps = 1 ∨ env.straps = 2 ∧ (a = false ∨ b = true ∧ imageSeq s.boot.flashA < imageSeq s.boot.flashB)
      let some1 := if env.straps = 0 then a = true else if env.straps = 1 then b = true else a = true ∨ b = true
      let fails := fun (n : Nat) => env.dieFail = some n
      let goes := ¬ fails 1 ∧ ¬ fails 2 ∧ env.straps ≠ 3
      ∃ s', exec (.modResetNRelease env) s = .next s' ∧ s'.boot.inReset = false ∧ s'.boot.straps = env.straps ∧
        s'.boot.running = false ∧ s'.tray = s.tray ∧ s'.boot.flashA = s.boot.flashA ∧ s'.boot.flashB = s.boot.flashB ∧
        (fails 1 → stops s' 1 6) ∧
        (¬ fails 1 → env.straps = 3 → s'.boot.step = 1 ∧ s'.boot.reason = 0 ∧ s'.errFatal = false ∧ s'.links = []) ∧
        (env.straps ≠ 3 → fails 2 → stops s' 2 6) ∧
        (goes → s.boot.locked = false → ¬ some1 → stops s' 2 (if rootstockValid named then 2 else 1)) ∧
        (goes → s.boot.locked = false → some1 → ¬ fails 3 →
          (s'.boot.image = true ↔ takesB) ∧ s'.boot.locked = true ∧
          s'.boot.rs = rootstockOf (if s'.boot.image then s.boot.flashB else s.boot.flashA) ∧
          4 ≤ s'.boot.step.toNat ∧ s'.boot.step.toNat ≤ 8) ∧
        (goes → s.boot.locked = true → s'.boot.locked = true ∧ s'.boot.image = s.boot.image ∧ s'.boot.rs = s.boot.rs)) ∧
  (
    ∀ (env : StartEnv) (s : State), env.dieFail = none →
      let fixed := if s.boot.shaped then some (s.boot.reduced, s.boot.givenCol) else none
      (startSiteMap s.boot.rs env.failedSites fixed = none → (s.startRest env).boot.step = 4 ∧ (s.startRest env).boot.reason = 3 ∧
        (s.startRest env).errFatal = true) ∧
      (∀ m reduced given built, startSiteMap s.boot.rs env.failedSites fixed = some (m, reduced, given, built) →
        let s1 := { s with boot := { s.boot with
          startMap := m, shaped := true, reduced := reduced, givenCol := given, recomputed := built
          failedSites := env.failedSites } }
        let two := ∃ k, k < 8 ∧ 1 < (s1.startRetired env.failedChans k).length
        (env.untrained ≠ [] ∨ two → (s.startRest env).boot.step = 5 ∧ (s.startRest env).boot.reason = 4) ∧
        (∀ s2, s1.startStacks env = some s2 → s2.mem = [] ∧ s2.memBad = [] ∧ s2.strm = {} ∧
          (∀ k c, k < 8 → (((s2.stack k).chan c).st = .retired ↔ c ∈ s1.startRetired env.failedChans k)) ∧
          (∀ code refused, ((s2.startLinks env).startTime env.acquired).startPlan = .error (code, refused) →
            (s.startRest env).boot.step = 8 ∧ (s.startRest env).boot.reason = 5 ∧
            (s.startRest env).boot.planReason = BitVec.ofNat 5 code ∧ (s.startRest env).boot.ready = s.boot.ready) ∧
          (∀ p, ((s2.startLinks env).startTime env.acquired).startPlan = .ok p → ∃ s', s.startRest env = s' ∧
            s'.boot.step = 8 ∧ s'.boot.ready = true ∧ s'.boot.plan = some p ∧ s'.bankNow = 0 ∧
            s'.bank 0 = { loaded := true, block := p.routes } ∧ s'.bank 1 = { loaded := false, block := p.routes } ∧
            s'.boot.reason = s.boot.reason)) ∧
        (env.untrained = [] → ¬ two → (s1.startStacks env).isSome = true)) ∧
      (∀ a, env.acquired = some a → s.acquires a = true → (s.startTime (some a)).now = a.now.toNat ∧
        (s.startTime (some a)).time.syncState = 2 ∧ (s.startTime (some a)).time.upstream = a.link ∧
        (s.startTime (some a)).time.stratum = a.stratum ∧ (s.startTime (some a)).pace.windowVoid = true) ∧
      (∀ step reason code k, k < 24 → (s.link k).trained = true → ((s.startFail step reason code).link k).st = 6 ∧
        ((s.startFail step reason code).link k).reason = 10 ∧ ((s.startFail step reason code).link k).n = (s.link k).n + 1))

/-- R341 to R345 and Tables 15-13 to 15-15: the install messages.  OPEN opens the one session for 3 to 65,536 pages; CHUNK
stores 2,048 B of it; INSTALL closes it, and loads the other route bank for boundary S where the image is whole, S lies
1,024 epochs to 2^20 ahead, no change is pending and the plan is good; ABORT closes a session, or discards a next plan
more than 64 epochs ahead; QUERY changes nothing.  Every message is answered with PLAN_STATUS, and a refusal is counted.

R342, R346: PLAN_SESSION_IDLE closes a session 10 s after its latest message; OLD_BANK_RELEASE frees the old route bank
two boundaries after a switch. -/
def Obligations.PlansOverLinks : Prop :=
  (
    ∀ (k : Nat) (s : State) (f : LFlit) (r : List LFlit) (h body : List Byte),
      h = lineBytes f.payload → body = mgmtBody (f :: r) →
      let does := fun (i : Instr) (op code : Nat) (p : State → Prop) =>
        ∃ s', exec i s = .next s' ∧ installed s s' k op code f r ∧ p s'
      let keeps := fun (s' : State) => s'.boot.session = s.boot.session
      let sess := s.boot.session.filter fun x => x.link == k && x.id == field h 2 2
      let o := field h 4 4
      let n := field h 4 4
      let b := field h 8 8
      (MgmtAt s k 2 1 f r →
        let form := zeroBytes h 1 3 = true ∧ zeroBytes h 8 56 = true ∧ body = []
        (¬ form → does (.planOpen k) 1 1 keeps) ∧
        (form → (n < 3 ∨ 65536 < n) → does (.planOpen k) 1 5 keeps) ∧
        (form → 3 ≤ n → n ≤ 65536 → s.boot.session ≠ none → does (.planOpen k) 1 17 keeps) ∧
        (form → 3 ≤ n → n ≤ 65536 → s.boot.session = none → does (.planOpen k) 1 0 fun s' =>
          ∃ x, s'.boot.session = some x ∧ x.id = s.boot.nextSession ∧ x.link = k ∧ x.pages = n ∧ x.chunks = [] ∧
            x.last = s.now ∧ s'.boot.next = s.boot.next)) ∧
      (MgmtAt s k 2 2 f r →
        (sess = none → does (.planChunk k) 2 18 keeps) ∧
        ∀ x, sess = some x →
          let form := zeroBytes h 1 1 = true ∧ zeroBytes h 8 56 = true ∧ body.length = 2048 ∧ o % 2048 = 0
          (¬ form → does (.planChunk k) 2 1 keeps) ∧
          (form → 4096 * x.pages ≤ o → does (.planChunk k) 2 18 keeps) ∧
          (form → o < 4096 * x.pages → does (.planChunk k) 2 0 fun s' => ∃ x', s'.boot.session = some x' ∧
            x'.chunks.find (o / 2048) = some body ∧ (∀ j, j ≠ o / 2048 → x'.chunks.find j = x.chunks.find j) ∧
            x'.id = x.id ∧ x'.link = k ∧ x'.pages = x.pages ∧ x'.last = s.now)) ∧
      (MgmtAt s k 2 3 f r →
        let form := zeroBytes h 1 1 = true ∧ zeroBytes h 4 4 = true ∧ zeroBytes h 16 48 = true ∧ body = [] ∧ b < 2 ^ 44
        let closed := fun (s' : State) => s'.boot.session = none
        let inTime := s.epoch + 1024 ≤ b ∧ b ≤ s.epoch + 2 ^ 20
        (sess = none → does (.planInstall k) 3 18 keeps) ∧
        ∀ x, sess = some x →
          (form → x.whole ≠ x.pages → does (.planInstall k) 3 18 closed) ∧
          (form → x.whole = x.pages → ¬ inTime → does (.planInstall k) 3 16 closed) ∧
          (form → x.whole = x.pages → inTime → s.banksBusy = true → does (.planInstall k) 3 17 closed) ∧
          (form → x.whole = x.pages → inTime → s.banksBusy = false →
            (∀ c, s.planCheck x.image s.boot.plan = .error c → c ≠ 0 → does (.planInstall k) 3 c closed) ∧
            (∀ p, s.planCheck x.image s.boot.plan = .ok p → does (.planInstall k) 3 0 fun s' => closed s' ∧
              s'.boot.next = some { epoch := b, plan := some p } ∧
              s'.bank (1 - s.bankNow) = { loaded := true, block := p.routes } ∧
              s'.bank s.bankNow = s.bank s.bankNow))) ∧
      (MgmtAt s k 2 4 f r → zeroBytes h 1 1 = true → zeroBytes h 4 60 = true → body = [] →
        (field h 2 2 ≠ 0 → sess = none → does (.planAbort k) 4 18 keeps) ∧
        (field h 2 2 ≠ 0 → sess ≠ none → does (.planAbort k) 4 0 fun s' => s'.boot.session = none ∧ s'.boot.next = s.boot.next) ∧
        (field h 2 2 = 0 → (∀ x, s.boot.next = some x → x.plan = none) → does (.planAbort k) 4 18 keeps) ∧
        (∀ x, field h 2 2 = 0 → s.boot.next = some x → x.plan ≠ none →
          (x.epoch ≤ s.epoch + 64 → does (.planAbort k) 4 19 keeps) ∧
          (s.epoch + 64 < x.epoch → does (.planAbort k) 4 0 fun s' => s'.boot.next = none ∧
            (s'.bank (1 - s.bankNow)).loaded = false ∧ s'.bank s.bankNow = s.bank s.bankNow))) ∧
      (MgmtAt s k 2 5 f r → zeroBytes h 1 63 = true → body = [] → does (.planQuery k) 5 0 fun s' => s'.boot = s.boot)) ∧
  (
    ∀ s : State,
      (s.boot.session = none → exec .planSessionIdle s = .next s) ∧
      (∀ x, s.boot.session = some x → x.last + 10000000000 < 2 ^ 64 →
        ∃ s', exec .planSessionIdle s = .next s' ∧ s'.boot.session = none ∧ s'.now = max s.now (x.last + 10000000000) ∧
          s'.boot.plan = s.boot.plan ∧ s'.banks = s.banks ∧ s'.events = s.events ∧ keepsMemory s s') ∧
      (∀ b, s.boot.lastSwitch = some b → s.boot.next = none → b + 2 ≤ s.epoch →
        ∃ s', exec .oldBankRelease s = .next s' ∧ s'.boot.lastSwitch = none ∧ (s'.bank (1 - s.bankNow)).loaded = false ∧
          s'.bank s.bankNow = s.bank s.bankNow ∧ s'.boot.plan = s.boot.plan ∧ keepsMemory s s') ∧
      (∀ b, s.boot.lastSwitch = some b → s.epoch < b + 2 → exec .oldBankRelease s = .next s) ∧
      (s.boot.lastSwitch = none → exec .oldBankRelease s = .next s))

/-- R350, R352 to R355 and Table 16-6: PRUNE and GRAFT.  The request is answered with UNIT_STATUS; one that meets the checks
waits for its boundary S as PRUNE_PENDING or GRAFT_PENDING, and a variant that it names goes into the other route bank for
S; a refused one changes no unit.  Named here are the codes of form, privilege, unit, state, test and boundary.

R359 and Tables 16-4, 16-7: UNIT_TEST starts the test of a pruned unit, which goes to TESTING, and for a lane asks the
partner for PRBS31; UNIT_TEST_END makes it TESTED where it passed, with no more than 2,125,000 bit errors on a lane or a
link, else FAILED_TEST; UNIT_QUERY answers a unit's state and changes none. -/
def Obligations.PruneAndGraft : Prop :=
  (
    ∀ (graft : Bool) (src : MgmtSrc) (s : State) (h body : List Byte) (op : Nat) (c : Instr),
      op = (if graft then 7 else 6) → c = (if graft then .graft src else .prune src) → UnitAsked s src op h body →
      let i := field h 2 2
      let b := field h 8 8
      let refused := fun (code : Nat) => ∃ s', exec c s = .next s' ∧ unitReplied s s' src op (statusIs op code) ∧
        s'.units = s.units ∧ s'.boot.next = s.boot.next ∧ s'.banks = s.banks ∧ s'.strm = s.strm ∧ keepsMemory s s'
      let form := fun (u : UnitId) => zeroBytes h 1 1 = true ∧ zeroBytes h 16 48 = true ∧ body = [] ∧ b < 2 ^ 44 ∧
        s.indexOk u i = true
      let ok := fun (u : UnitId) => if graft then s.graftState u = true else s.pruneState u = true
      (unitNamed h = none → refused 1) ∧
      (∀ u, unitNamed h = some u →
        (¬ form u → refused 1) ∧
        (form u → unitIsModule u = true → src ≠ .warden → refused 2) ∧
        (form u → (unitIsModule u = false ∨ src = .warden) →
          (unitPresent u = false → refused 3) ∧
          (unitPresent u = true → ¬ ok u → refused 4) ∧
          (unitPresent u = true → ok u → graft = true → unitIsModule u = false → s.unitState u ≠ 4 → refused 9) ∧
          (unitPresent u = true → ok u → graft = false → s.channelRoom u = false → refused 10) ∧
          (unitPresent u = true → ok u → (graft = true → unitIsModule u = true ∨ s.unitState u = 4) →
            (graft = false → s.channelRoom u = true) →
            ((b < s.epoch + 2 ∨ s.epoch + 2 ^ 20 < b) → refused 7) ∧
            (s.epoch + 2 ≤ b → b ≤ s.epoch + 2 ^ 20 → i ≠ 0xFFFF →
              (s.banksBusy = true → refused 8) ∧
              (s.banksBusy = false → s.variantFits u i graft = false → refused 5) ∧
              (s.banksBusy = false → s.variantFits u i graft = true → s.sharesKept u i = false → refused 6)) ∧
            (s.epoch + 2 ≤ b → b ≤ s.epoch + 2 ^ 20 →
              (i = 0xFFFF ∨ s.banksBusy = false ∧ s.variantFits u i graft = true ∧ s.sharesKept u i = true) →
              ∃ s', exec c s = .next s' ∧ s'.unitState u = (if graft then 6 else 1) ∧
                unitReplied s s' src op (fun a => statusIs op 0 a ∧ field a 2 1 = (if graft then 6 else 1) ∧ field a 8 8 = b) ∧
                (s'.unitRec u).bind (·.due) = some b ∧ (∀ v, v ≠ u → s'.unitRec v = s.unitRec v) ∧
                (i = 0xFFFF → s'.banks = s.banks ∧ s'.boot.next = s.boot.next) ∧
                (∀ block, i ≠ 0xFFFF → s.variantBlock i = some block →
                  s'.boot.next = some { epoch := b, plan := none } ∧
                  s'.bank (1 - s.bankNow) = { loaded := true, block := block }) ∧ keepsMemory s s'))))) ∧
  (
    (∀ (src : MgmtSrc) (s : State) (h body : List Byte) (u : UnitId), unitNamed h = some u → unitForm h body = true →
      (unitIsModule u = false ∨ src = .warden) → unitPresent u = true →
      (UnitAsked s src 8 h body →
        (s.testState u = true → ∃ s', exec (.unitTest src) s = .next s' ∧ s'.unitState u = 3 ∧
          unitReplied s s' src 8 (fun b => statusIs 8 0 b ∧ field b 2 1 = 3) ∧ (∀ v, v ≠ u → s'.unitRec v = s.unitRec v) ∧
          keepsMemory s s' ∧ ∀ k l, u = .lane k l → (s'.link k).rxTest = some l ∧
            ((s.link k).live = true → (s'.link k).sess.ctrl = (s.link k).sess.ctrl ++ [(6, laneBody 4 l 0)])) ∧
        (s.testState u = false → ∃ s', exec (.unitTest src) s = .next s' ∧ s'.units = s.units ∧
          unitReplied s s' src 8 (statusIs 8 4) ∧ keepsMemory s s')) ∧
      (UnitAsked s src 9 h body → ∃ s', exec (.unitQuery src) s = .next s' ∧ s'.units = s.units ∧ s'.boot = s.boot ∧
        keepsMemory s s' ∧ unitReplied s s' src 9 (fun b => statusIs 9 0 b ∧ field b 2 1 = s.unitState u % 256))) ∧
    (∀ (u : UnitId) (pass : Bool) (errors : Nat) (s : State), errors < 2 ^ 32 →
      (s.unitState u ≠ 3 → exec (.unitTestEnd u pass errors) s = .next s) ∧
      (s.unitState u = 3 → (∀ k l, u = .lane k l → (s.link k).rxTest = some l) → ∃ s', exec (.unitTestEnd u pass errors) s = .next s' ∧
        (∀ v, v ≠ u → s'.unitRec v = s.unitRec v) ∧ keepsMemory s s' ∧
        (let passed := pass = true ∧ (errors ≤ 2125000 ∨ (∀ k l, u ≠ .lane k l) ∧ ∀ k, u ≠ .link k)
         (passed → s'.unitState u = 4) ∧ (¬ passed → s'.unitState u = 5)) ∧
        ∀ k l, u = .lane k l → (s'.link k).rxTest = none ∧
          ((s.link k).live = true → (s'.link k).sess.ctrl = (s.link k).sess.ctrl ++ [(6, laneBody 5 l errors)]))))

/-- R356, R360 to R365: UNIT_SWITCH at S, and PRUNE_FINAL at S + 2.  Before S nothing happens.  A pruned unit is PRUNED: a
SPARE channel retires, a lane out of the map leaves the receiver, a link with no variant drops; a grafted one serves again.
At S + 2 a module that pruned itself stops, and tells the warden.

R232, R366, R374, R399: a MIGRATE message waits for its descriptor and its turn at the engine.  MIGRATE_OUT makes an OPEN, FULL or CLOSING stream MIGRATING; MIGRATE_END frees its ID, or brings back its
earlier state; MIGRATE_IN of a descriptor that is malformed or has no place is refused with ADMIT and counted, and else
opens a stream under a new ID. -/
def Obligations.UnitsAndStreamsMove : Prop :=
  (
    ∀ (u : UnitId) (s : State),
      (s.unitRec u = none → exec (.unitSwitch u) s = .next s ∧ exec (.pruneFinal u) s = .next s) ∧
      (∀ r, s.unitRec u = some r → r.due = none → exec (.unitSwitch u) s = .next s) ∧
      (∀ r b, s.unitRec u = some r → r.due = some b → s.epoch < b → exec (.unitSwitch u) s = .next s) ∧
      (∀ r b, s.unitRec u = some r → r.due = some b → b ≤ s.epoch →
        ∃ s', exec (.unitSwitch u) s = .next s' ∧ s'.mem = s.mem ∧ (∀ v, v ≠ u → s'.unitRec v = s.unitRec v) ∧
          (r.graft = true → s'.unitRec u = none ∧
            (∀ k c, u = .channel k c → ((s'.stack k).chan c).st = .spare) ∧
            (∀ k l, u = .lane k l → l < 5 → (s'.link k).rxOut.getLsbD l = false) ∧
            (∀ k, u = .link k → (s.link k).st = 6 → (s'.link k).st = 2 ∧ (s'.link k).pruned = false)) ∧
          (r.graft = false → (s'.unitRec u).map (fun x => (x.st, x.due)) = some (2, none) ∧
            (∀ k c, u = .channel k c → ((s.stack k).chan c).st = .spare → ((s'.stack k).chan c).st = .retired) ∧
            (∀ k l, u = .lane k l → l < 5 → laneIn (s.link k).rxMap l = false → (s'.link k).rxOut.getLsbD l = true) ∧
            (∀ k, u = .link k → r.variant = 0xFFFF → (s.link k).live = true →
              (s'.link k).st = 6 ∧ (s'.link k).reason = 8 ∧ (s'.link k).pruned = true) ∧
            (∀ n, u = .modul n → n = s.boot.rs.node → s'.refusing = true ∧
              (s'.unitRec u).bind (·.final) = some (b + 2))) ∧
          ((∃ p c, u = .site p c) → s'.awaiting = [])) ∧
      (∀ r e, s.unitRec u = some r → r.final = some e → r.unit = u → s.epoch < e → exec (.pruneFinal u) s = .next s) ∧
      (∀ r n e, s.unitRec u = some r → u = .modul n → r.unit = u → r.final = some e → e ≤ s.epoch →
        ∃ s', exec (.pruneFinal u) s = .next s' ∧ s'.stopped = true ∧ (∀ k, k < 24 → (s'.link k).st ≠ 4) ∧
          (s'.unitRec u).bind (·.final) = none ∧ s'.mem = s.mem) ∧
      (∀ r k e, s.unitRec u = some r → u = .link k → r.unit = u → r.final = some e → e ≤ s.epoch → (s.link k).live = true →
        ∃ s', exec (.pruneFinal u) s = .next s' ∧ (s'.link k).st = 6 ∧ (s'.link k).reason = 8 ∧ s'.mem = s.mem)) ∧
  (
    ∀ (src : MgmtSrc) (s : State) (h body : List Byte),
      let id := field h 5 3
      let form := zeroBytes h 1 1 = true ∧ zeroBytes h 4 1 = true ∧ id < 2 ^ 21 ∧ zeroBytes h 8 56 = true ∧ body = []
      (UnitAsked s src 11 h body → form → zeroBytes h 2 2 = true → s.cached id = none ∨ ¬ EngineFree s id →
        exec (.migrateOut src) s = .next s) ∧
      (UnitAsked s src 13 h body → form → field h 2 2 < 2 → s.cached id = none ∨ ¬ EngineFree s id →
        exec (.migrateEnd src) s = .next s) ∧
      (UnitAsked s src 11 h body → form → zeroBytes h 2 2 = true → EngineFree s id → ∀ d, s.cached id = some d →
        ((Desc.st d = 1 ∨ Desc.st d = 2 ∨ Desc.st d = 3) → ∃ s' d', exec (.migrateOut src) s = .next s' ∧
          s'.cached id = some d' ∧ Desc.st d' = 4 ∧ Desc.position d' = Desc.position d ∧
          s'.strm.earlier.find id = some (Desc.st d) ∧ keepsMemory s s' ∧
          (∀ k, src = .link k → unitReplied s s' src 11 (statusIs 11 0))) ∧
        (¬ (Desc.st d = 1 ∨ Desc.st d = 2 ∨ Desc.st d = 3) → ∃ s', exec (.migrateOut src) s = .next s' ∧
          s'.cached id = some d ∧ unitReplied s s' src 11 (statusIs 11 4) ∧ keepsMemory s s')) ∧
      (UnitAsked s src 13 h body → form → field h 2 2 < 2 → EngineFree s id → ∀ d, s.cached id = some d →
        (Desc.st d ≠ 4 → ∃ s', exec (.migrateEnd src) s = .next s' ∧ s'.cached id = some d ∧
          unitReplied s s' src 13 (statusIs 13 4) ∧ keepsMemory s s') ∧
        (Desc.st d = 4 → ∃ s' d', exec (.migrateEnd src) s = .next s' ∧ s'.cached id = some d' ∧ keepsMemory s s' ∧
          unitReplied s s' src 13 (statusIs 13 0) ∧ Desc.gen d' = Desc.gen d ∧
          (field h 2 2 = 1 → Desc.st d' = 0 ∧ s'.strm.freed = s.strm.freed ++ [{ id := id, epoch := s.epoch }]) ∧
          (∀ e, field h 2 2 = 0 → s.strm.earlier.find id = some e → e < 8 → Desc.st d' = e ∧ s'.strm.freed = s.strm.freed))) ∧
      (UnitAsked s src 12 h body → zeroBytes h 1 1 = true → zeroBytes h 4 60 = true → body.length = 128 → field h 2 2 < 24 →
        let cls := clsOf (BitVec.ofNat 2 (Desc.cls body))
        let good := s.movedOk body = true ∧ s.refusing = false ∧ s.capacity cls = true ∧
          s.periodOk cls (Desc.period body) = true ∧ s.shareOk cls (field h 2 2) = true
        (¬ good → ∃ s', exec (.migrateIn src) s = .next s' ∧ unitReplied s s' src 12 (statusIs 12 12) ∧
          s'.strm = s.strm ∧ evCount s' 0x0AB 0 = evCount s 0x0AB 0 + 1 ∧ keepsMemory s s') ∧
        (good → s.strm.fresh < 2 ^ 21 → s.cached s.strm.fresh = none ∨ ¬ EngineFree s s.strm.fresh →
          exec (.migrateIn src) s = .next s) ∧
        (good → ∀ d, s.strm.fresh < 2 ^ 21 → s.cached s.strm.fresh = some d → EngineFree s s.strm.fresh →
          ∃ s' d', exec (.migrateIn src) s = .next s' ∧ unitReplied s s' src 12 (statusIs 12 0) ∧
            s'.cached s.strm.fresh = some d' ∧ s'.strm.fresh = s.strm.fresh + 1 ∧
            Desc.gen d' = (Desc.gen d + 1) % 4096 ∧ Desc.ownerLink d' = field h 2 2 ∧ Desc.position d' = Desc.position body ∧
            s'.strm.opened cls = s.strm.opened cls + 1 ∧ keepsMemory s s')))

/-- R372, R374, R378: HOST_CLOSE, HOST_END and HOST_QUERY of the owner's open stream.  CLOSE takes OPEN or FULL to CLOSING,
END takes CLOSING or FAILED to FREE, both tell the home cores by a notice and answer after it; any other state is refused
with STATE and counted; QUERY answers position, counts and state, and changes none.  Each waits for its descriptor and its
turn at the engine (R232, R374).

R215, R226, R380 to R384: HOST_HREAD and HOST_HRELEASE reach the slot's header by one access, and wait while the line's
channel gives its slots to others; a line that is lost, or whose channel has FAILED, is answered DATA.  HOST_HREAD answers NOT_READY of a slot that is not FULL or TAKEN, and else the payload, with DATA the
first time and ALREADY_TAKEN after it, the slot then TAKEN and its take count risen; HOST_HRELEASE empties a FULL or TAKEN
slot and refuses another.  The header is not expired, and no other byte of stack memory changes.

R375 to R379: HOST_SUBMIT.  A submission that fails a check is refused with its code and counted, with no descriptor
written; a good one takes an ID, its descriptor is OPEN with a new generation, its owner and the present epoch, the stream
counts as open, and the home cores are told; SUBMIT_NOTICE_DONE answers the host message of the oldest notice that is
over, and a refused opening leaves the stream FAILED. -/
def Obligations.HostStreams : Prop :=
  (
    ∀ (k : Nat) (s : State) (f : LFlit) (d : List Byte) (id : Nat), id = hostId (lineBytes f.payload) →
      let notes := fun (s' : State) (op : Nat) => rxOf s' k 7 = (rxOf s k 7).drop 1 ∧
        ∃ n, s'.notices = s.notices ++ [n] ∧ n.link = k ∧ n.op = op ∧ n.id = id ∧ n.gen = Desc.gen d ∧ n.ptxn = f.txn ∧
          n.deadline = s.now + s.classTimeout (clsOf (BitVec.ofNat 2 (Desc.cls d)))
      let refused := fun (i : Instr) (op : Nat) => ∃ s', exec i s = .next s' ∧ s'.cached id = some d ∧ s'.notices = s.notices ∧
        mgmtReplied s s' k f [] (hostIs op 11 (Desc.st d)) ∧
        evCount s' 0x0AB (id % 8) = evCount s 0x0AB (id % 8) + 1 ∧ keepsMemory s s'
      (HostAsked s k 2 f d →
        ((Desc.st d = 1 ∨ Desc.st d = 2) → ∃ s' d', exec (.hostClose k) s = .next s' ∧ notes s' 2 ∧
          s'.cached id = some d' ∧ Desc.st d' = 3 ∧ Desc.position d' = Desc.position d ∧ keepsMemory s s') ∧
        (Desc.st d ≠ 1 → Desc.st d ≠ 2 → refused (.hostClose k) 2)) ∧
      (HostAsked s k 6 f d →
        ((Desc.st d = 3 ∨ Desc.st d = 5) → ∃ s' d', exec (.hostEnd k) s = .next s' ∧ notes s' 3 ∧
          s'.cached id = some d' ∧ Desc.st d' = 0 ∧ Desc.gen d' = Desc.gen d ∧ keepsMemory s s' ∧
          s'.strm.freed = s.strm.freed ++ [{ id := id, epoch := s.epoch }]) ∧
        (Desc.st d ≠ 3 → Desc.st d ≠ 5 → refused (.hostEnd k) 6)) ∧
      (HostAsked s k 5 f d → ∃ s', exec (.hostQuery k) s = .next s' ∧ s'.cached id = some d ∧ s'.events = s.events ∧
        keepsMemory s s' ∧ mgmtReplied s s' k f [] fun b => hostIs 5 0 (Desc.st d) b ∧ field b 24 8 = field d 0 8 ∧
          field b 32 8 = field d 56 8 ∧ field b 40 8 = field d 80 8)) ∧
  (
    ∀ (k op : Nat) (acc : List Access) (s : State) (f : LFlit) (i : Instr),
      (op, i) ∈ ([(2, .hostClose k), (3, .hostHread ⟨k, acc⟩), (4, .hostHrelease ⟨k, acc⟩), (5, .hostQuery k),
        (6, .hostEnd k)] : List (Nat × Instr)) →
      s.hostHead k op = some [f] → hostForm (lineBytes f.payload) [] (op == 3 || op == 4) = true →
      hostId (lineBytes f.payload) < 2 ^ 21 →
      s.cached (hostId (lineBytes f.payload)) = none ∨ ¬ EngineFree s (hostId (lineBytes f.payload)) →
      exec i s = .next s) ∧
  (
    ∀ (k : Nat) (acc : List Access) (s : State) (f : LFlit) (d : List Byte) (n at' line : Nat),
      n = hostSlot (lineBytes f.payload) → at' = slotAddr d n → line = at' / 64 → n < Desc.harvestSlots d → Desc.st d ≠ 4 →
      let home := homeStack at'
      let ch := (s.stack home).chan (s.chanNow home line)
      let cls := s.streamCls (hostId (lineBytes f.payload))
      let a := acc.getD 0 {}
      let read := Instr.hostHread ⟨k, acc⟩
      let free := Instr.hostHrelease ⟨k, [a]⟩
      (ch.st ≠ .failed → ch.turn cls = false →
        (HostAsked s k 3 f d → exec read s = .next s) ∧ (HostAsked s k 4 f d → exec free s = .next s)) ∧
      (ch.st = .failed ∨
          (ch.turn cls = true ∧ (line ∈ s.memBad ∨ a.result = .uncorrectable ∨ a.result = .crcFail)) →
        (HostAsked s k 3 f d → ∃ s', exec read s = .next s' ∧ keepsMemory s s' ∧
          mgmtReplied s s' k f [] (hostIs 3 14 (Desc.st d))) ∧
        (HostAsked s k 4 f d → ∃ s', exec free s = .next s' ∧ keepsMemory s s' ∧
          mgmtReplied s s' k f [] (hostIs 4 14 (Desc.st d)))) ∧
      (LineFree s home line → endsWell a →
      let h := Mem.readN s.mem (64 * line) 64
      let h' := fun (s' : State) => Mem.readN s'.mem (64 * line) 64
      let rest := fun (s' : State) => (∀ x, x < 64 * line ∨ 64 * line + 64 ≤ x → Mem.read s'.mem x = Mem.read s.mem x) ∧
        evCount s' 0x0AB (hostId (lineBytes f.payload) % 8) = evCount s 0x0AB (hostId (lineBytes f.payload) % 8)
      slotBad d h = false → (Slot.st h = 0 ∨ s.epoch < Slot.fillEpoch h + s.boot.rs.harvestRetention) →
      (HostAsked s k 3 f d →
        (Slot.st h < 2 → ∃ s', exec read s = .next s' ∧ keepsMemory s s' ∧
          mgmtReplied s s' k f [] fun b => hostIs 3 0 (Desc.st d) b ∧ field b 2 1 % 4 = 2) ∧
        (2 ≤ Slot.st h → (∀ x ∈ acc, endsWell x) →
          (∀ j, j < (Slot.length h + 63) / 64 → LineFree s (homeStack (64 * (line + 1 + j))) (line + 1 + j)) →
          ∃ s', exec read s = .next s' ∧ rest s' ∧
          Slot.st (h' s') = 3 ∧ Slot.length (h' s') = Slot.length h ∧
          Slot.takeCount (h' s') = (if Slot.st h = 2 then 1 else (Slot.takeCount h + 1) % 2 ^ 32) ∧
          mgmtReplied s s' k f [] fun b => hostIs 3 0 (Desc.st d) b ∧ field b 2 1 % 4 = (if Slot.st h = 2 then 1 else 3) ∧
            field b 20 2 = Slot.length h % 2 ^ 16)) ∧
      (HostAsked s k 4 f d →
        (Slot.st h < 2 → ∃ s', exec free s = .next s' ∧ keepsMemory s s' ∧
          mgmtReplied s s' k f [] (hostIs 4 11 (Desc.st d))) ∧
        (2 ≤ Slot.st h → ∃ s', exec free s = .next s' ∧ rest s' ∧ Slot.isEmpty (h' s') = true ∧
          mgmtReplied s s' k f [] (hostIs 4 0 (Desc.st d)))))) ∧
  (
    ∀ s : State,
      (∀ (k code : Nat) (f : LFlit) (r : List LFlit) (d : List Byte), s.hostHead k 1 = some (f :: r) →
        (s.link k).partnerNode = f.src → s.notices.any (·.op == 1) = false → d = mgmtBody (f :: r) →
        code = s.submitCode k (lineBytes f.payload) d →
        (code ≠ 0 → ∃ s', exec (.hostSubmit k) s = .next s' ∧ s'.strm = s.strm ∧ s'.notices = s.notices ∧ keepsMemory s s' ∧
          mgmtReplied s s' k f r (fun b => field b 0 1 = 0x11 ∧ field b 1 1 = code) ∧
          evCount s' 0x0AB 0 = evCount s 0x0AB 0 + 1) ∧
        (code = 0 → s.strm.fresh < 2 ^ 21 → s.cached s.strm.fresh = none ∨ ¬ EngineFree s s.strm.fresh →
          exec (.hostSubmit k) s = .next s) ∧
        (code = 0 → ∀ e, s.strm.fresh < 2 ^ 21 → s.cached s.strm.fresh = some e → EngineFree s s.strm.fresh →
          ∃ s' d' n, exec (.hostSubmit k) s = .next s' ∧ s'.cached s.strm.fresh = some d' ∧
            s'.strm.fresh = s.strm.fresh + 1 ∧ Desc.st d' = 1 ∧ Desc.gen d' = (Desc.gen e + 1) % 4096 ∧
            Desc.ownerNode d' = f.src.toNat ∧ Desc.ownerLink d' = k % 32 ∧ Desc.limit d' = Desc.limit d ∧
            Desc.nextDue d' = (if Desc.nextDue d = 0 then (s.now + Desc.period d) % 2 ^ 64 else Desc.nextDue d) ∧
            s'.strm.opened (clsOf (BitVec.ofNat 2 (Desc.cls d))) = s.strm.opened (clsOf (BitVec.ofNat 2 (Desc.cls d))) + 1 ∧
            s'.notices = s.notices ++ [n] ∧ n.op = 1 ∧ n.id = s.strm.fresh ∧ keepsMemory s s')) ∧
      (s.notices.find? s.noticeOver = none → exec .submitNoticeDone s = .next s) ∧
      (∀ n, s.notices.find? s.noticeOver = some n → s.cached n.id = none ∨ ¬ EngineFree s n.id →
        exec .submitNoticeDone s = .next s) ∧
      (∀ n d, s.notices.find? s.noticeOver = some n → s.cached n.id = some d → EngineFree s n.id → n.gen = Desc.gen d →
        (s.link n.link).live = true → (s.link n.link).partnerNode = n.node →
        let c := s.noticeCode n
        ∃ s' g, exec .submitNoticeDone s = .next s' ∧ s'.notices = s.notices.erase n ∧ keepsMemory s s' ∧
          txOf s' n.link 7 = txOf s n.link 7 ++ [g] ∧ g.kind = 11 ∧ g.txn = n.ptxn ∧ g.dst = n.node ∧
          field (lineBytes g.payload) 22 1 = c % 256 ∧
          field (lineBytes g.payload) 1 1 = (if n.op = 1 ∧ 1 < c then 8 else 0) ∧
          (n.op = 1 → 1 < c → (Desc.st d = 1 ∨ Desc.st d = 2 ∨ Desc.st d = 3) → (s'.cached n.id).map Desc.st = some 5) ∧
          (¬ (n.op = 1 ∧ 1 < c) → s'.cached n.id = some d)))

/-- R411, R412: DIE_REPORT sends a report that the die owes in a type 3 frame; MGMT_FORWARD hands a group 0x3 message of a
partner with SERVICE privilege unchanged to the warden, with its link and node, in a type 1 frame.

R410 and Table 18-10: WARDEN_CHANNEL_FRAME, _RESEND and _RESYNC at the die's end and at a bay's.  A frame that is not
good is discarded and NAKed; an ack frees the frames it covers; a resend sends every unacknowledged frame again, and after
16 with no progress the channel is down; a channel that is down sends a resynchronisation frame.

R9, R412, R413 and Table 18-12: a warden operation whose trailer does not fit is answered TRAILER, one whose op is reserved
MALFORMED, and one from the service port below its level PRIV; none changes a bay, a card or an upload. -/
def Obligations.WardenChannel : Prop :=
  (
    ∀ s : State,
      (∀ r, s.boot.powered = true → s.boot.inReset = false → r ∈ s.reports →
        ∃ s', exec (.dieReport r) s = .next s' ∧ s'.reports = s.reports.erase r ∧
          s'.wdn = s.wdn.push 3 0 0 (s.reportBody r) ∧ s'.events = s.events ∧ keepsMemory s s') ∧
      (∀ r, r ∉ s.reports → exec (.dieReport r) s = .next s) ∧
      (∀ k, s.forwardHead k = none → exec (.mgmtForward k) s = .next s) ∧
      (∀ k f rest, s.forwardHead k = some (f :: rest) →
        ∃ s', exec (.mgmtForward k) s = .next s' ∧ rxOf s' k 7 = (rxOf s k 7).drop (rest.length + 1) ∧
          txOf s' k 7 = txOf s k 7 ∧
          s'.wdn = s.wdn.push 1 k f.src.toNat (lineBytes f.payload ++ mgmtBody (f :: rest)) ∧ keepsMemory s s')) ∧
  (
    ∀ (e : ChanEnd) (s : State),
      let get := fun (s : State) => match e with
        | .die => s.wdn
        | .bay b => (s.bay b).chanEnd
      let w := get s
      let up := match e with
        | .die => s.boot.powered = true ∧ s.boot.inReset = false
        | .bay b => b < 8 ∧ s.tray.active ≠ none
      let does := fun (i : Instr) (w' : WdnEnd) => ∃ s', exec i s = .next s' ∧ keepsMemory s s' ∧ get s' = w' ∧
        s'.links = s.links ∧ s'.reports = s.reports
      up →
        (∀ f, wdnGood f = false → does (.wardenChannelFrame e f) { w with wire := [w.ackFrame true] }) ∧
        (∀ f, wdnGood f = true → field f 0 1 = 4 → field f 3 1 = 0 → w.held.any (·.1 == BitVec.ofNat 8 (field f 2 1)) = false →
          does (.wardenChannelFrame e f) { w with wire := [] }) ∧
        (∀ f, wdnGood f = true → within 1 3 (field f 0 1) = true → field f 3 1 = 0 →
          w.held.any (·.1 == BitVec.ofNat 8 (field f 2 1)) = false → BitVec.ofNat 8 (field f 1 1) ≠ w.lastRx + 1 →
          ∃ nak, does (.wardenChannelFrame e f) { w with wire := [w.ackFrame nak] }) ∧
        (∀ f body w', body = (f.drop 12).take (f.length - 16) → wdnGood f = true →
          (e = .die → field f 0 1 = 2 ∧ bodyGroup body = 2) → (e ≠ .die → field f 0 1 = 1 ∧ bodyGroup body = 3) →
          field f 3 1 = 0 → w.held.any (·.1 == BitVec.ofNat 8 (field f 2 1)) = false →
          BitVec.ofNat 8 (field f 1 1) = w.lastRx + 1 →
          w' = { w with lastRx := w.lastRx + 1, inbox := w.inbox ++ [(field f 0 1, field f 6 1, field f 8 3, body)] } →
          does (.wardenChannelFrame e f) { w' with wire := [w'.ackFrame false] }) ∧
        (w.held = [] ∨ w.up = false → does (.wardenChannelResend e) w) ∧
        (w.held ≠ [] → w.up = true → 16 ≤ w.resends → does (.wardenChannelResend e) { w with up := false, wire := [] }) ∧
        (w.held ≠ [] → w.up = true → w.resends < 16 → does (.wardenChannelResend e)
          { w with resends := w.resends + 1, wire := w.held.map fun h => wdnReack h.2 w.lastRx }) ∧
        (w.up = true → does (.wardenChannelResync e) w) ∧
        (w.up = false → does (.wardenChannelResync e) { w with wire := [w.resyncFrame] })) ∧
  (
    ∀ (op : Nat) (c : Instr) (src : TraySrc) (s : State) (m : List Byte) (t : State),
      (op, c) ∈ ([(1, .trayQuery src), (2, .logRead src), (4, .trayCfg src), (5, .rsOpen src), (6, .rsChunk src),
        (7, .rsCommit src), (8, .fwOpen src), (9, .fwChunk src), (10, .fwCommit src), (11, .fwActivate src),
        (12, .handover src), (13, .leakClear src)] : List (Nat × Instr)) →
      s.trayHead src = some (m, t) → s.tray.active ≠ none → bodyGroup m = 3 → bodyOp m = op →
      let refused := fun (code : Nat) => ∃ s', exec c s = .next s' ∧ keepsDie s s' ∧
        trayReplied s s' src op code 0 0 none ∧ (∀ b, bayBut (s'.bay b) = bayBut (s.bay b)) ∧
        s'.tray.upload = s.tray.upload ∧ s'.tray.cardA = s.tray.cardA ∧ s'.tray.cardB = s.tray.cardB ∧ unlogged s s'
      (trailerOk (m.take 64) (m.drop 64) = false → refused 2) ∧
      (trailerOk (m.take 64) (m.drop 64) = true → m.length < 64 → refused 1) ∧
      (trailerOk (m.take 64) (m.drop 64) = true → m.length = 64 → m.getD 1 0 = 0xFF → zeroBytes m 2 58 = true → op = 12 →
        (∃ f, src = .service f) → s.tray.svc.level ≠ some 3 → refused 3)) ∧
  (
    ∀ (c : Instr) (src : TraySrc) (s : State) (m : List Byte) (t : State),
      c ∈ ([.trayQuery src, .logRead src, .bayCtrlStart src, .bayCtrlStop src, .bayCtrlRestart src, .bayCtrlResetLockout src,
        .trayCfg src, .rsOpen src, .rsChunk src, .rsCommit src, .fwOpen src, .fwChunk src, .fwCommit src, .fwActivate src,
        .handover src, .leakClear src] : List Instr) →
      s.trayHead src = some (m, t) → s.tray.active ≠ none → bodyGroup m = 3 → bodyOp m = 0 ∨ 14 ≤ bodyOp m →
      trailerOk (m.take 64) (m.drop 64) = true →
      ∃ s', exec c s = .next s' ∧ keepsDie s s' ∧ trayReplied s s' src (bodyOp m) 1 0 0 none ∧
        (∀ b, bayBut (s'.bay b) = bayBut (s.bay b)) ∧ s'.tray.upload = s.tray.upload ∧
        s'.tray.cardA = s.tray.cardA ∧ s'.tray.cardB = s.tray.cardB ∧ unlogged s s')

/-- R388, R389, R390, R416 and Table 1-8: the latch.  LATCH_PULSE renews it; LATCH_CLAIM gives it to a present and healthy
standby after a missed pulse, an absent card or a silent link, and, after HANDOVER, at its command, and logs HANDOVER; with
no standby the active warden stays, and so it does where the card taken out is the other.  WARDEN_CARD_POWER_UP: A claims at once and B after 1 s at tray power-up; else the card stands by.

R400, R403, R404, R422: feeds and leaks.  A feed below 46 V is logged, one above 62 V is blocked, and one whose path
conducts again supplies; LEAK latches, opens the channel of every bay and is logged with its zone; SENSOR_FAULT is logged
and does not latch. -/
def Obligations.LatchFeedsAndLeaks : Prop :=
  (
    ∀ s : State,
      (∀ w, s.tray.active = some w → ∃ s', exec .latchPulse s = .next s' ∧ keepsDie s s' ∧
        s'.tray = { s.tray with pulsed := s.tray.ms }) ∧
      (s.tray.active = none → exec .latchPulse s = .next s ∧ ∀ c, exec (.latchClaim c) s = .next s) ∧
      (∀ w o, s.tray.active = some w → o = otherWarden w →
        let ready := (s.tray.card o).present = true ∧ (s.tray.card o).healthy = true
        let taken := fun (c : ClaimCause) => ∃ s', exec (.latchClaim c) s = .next s' ∧ keepsDie s s' ∧
          s'.tray.active = some o ∧ s'.tray.pulsed = s'.tray.ms ∧ s'.tray.released = false ∧ s'.tray.bays = s.tray.bays ∧
          logged s s' 0xFF 0x1D []
        (ready → taken .missedPulse ∧ taken (.cardAbsent w)) ∧
        (∃ s', exec (.latchClaim (.cardAbsent o)) s = .next s' ∧ keepsDie s s' ∧ s'.tray.active = some w ∧ unlogged s s' ∧
          (s'.tray.card o).present = false ∧ s'.tray.card w = s.tray.card w ∧ s'.tray.bays = s.tray.bays) ∧
        (ready → s.tray.pulsed ≤ s.tray.ms + 100 → taken .linkSilent) ∧
        (ready → s.tray.released = true → taken .commanded) ∧
        (¬ ready → ∀ c, ∃ s', exec (.latchClaim c) s = .next s' ∧ s'.tray.active = some w ∧ unlogged s s') ∧
        (s.tray.released = false → exec (.latchClaim .commanded) s = .next s)) ∧
      (∀ w up, ∃ s', exec (.wardenCardPowerUp w up) s = .next s' ∧ keepsDie s s' ∧
        (s'.tray.card w).present = true ∧ (s'.tray.card w).healthy = true ∧
        s'.tray.card (otherWarden w) = s.tray.card (otherWarden w) ∧ s'.tray.bays = s.tray.bays ∧
        (up = true → s.tray.active = none → s'.tray.active = some w ∧ s'.tray.pulsed = s'.tray.ms ∧
          s'.tray.ms = s.tray.ms + (if w = .a then 0 else 1000)) ∧
        (up = false ∨ s.tray.active ≠ none → s'.tray.active = s.tray.active ∧ s'.tray.ms = s.tray.ms))) ∧
  (
    ∀ (n : Nat) (s : State),
      (n < 2 → ∃ s', exec (.feedLow n) s = .next s' ∧ keepsDie s s' ∧ n ∈ s'.tray.feedLow ∧ s'.tray.bays = s.tray.bays ∧
        logged s s' 0xFF 0x0F [BitVec.ofNat 8 n]) ∧
      (n < 2 → ∃ s', exec (.feedOvervoltageBlock n) s = .next s' ∧ keepsDie s s' ∧ n ∈ s'.tray.blocked ∧
        s'.tray.bays = s.tray.bays ∧ unlogged s s') ∧
      (∃ s', exec (.feedPathUnblock n) s = .next s' ∧ keepsDie s s' ∧ n ∉ s'.tray.blocked ∧ n ∉ s'.tray.feedLow ∧
        s'.tray.bays = s.tray.bays ∧ unlogged s s') ∧
      (n < 10 → ∃ s', exec (.leak n) s = .next s' ∧ keepsDie s s' ∧ s'.tray.leakLatch = true ∧ n ∈ s'.tray.wet ∧
        s'.tray.startQueue = [] ∧ (∀ b, b < 8 → (s'.bay b).chan = 7 ∧ (s'.bay b).isDark) ∧
        logged s s' 0xFF 0x10 [BitVec.ofNat 8 n]) ∧
      (n < 10 → ∃ s', exec (.sensorFault n) s = .next s' ∧ keepsDie s s' ∧ s'.tray.leakLatch = s.tray.leakLatch ∧
        n ∈ s'.tray.sensorFault ∧ s'.tray.bays = s.tray.bays ∧ logged s s' 0xFF 0x11 [BitVec.ofNat 8 n]))

/-- R401, R402 and Table 18-7: bay channels.  A ramp completes, pauses, resumes or aborts; a trip opens the channel, is
logged, and the third in 24 hours locks the bay out; OVERLOAD is logged; RECLOSE ramps again once, 10 s after a slow trip
or an abort, in a bay that is not locked out and may start.

R397, R399 and Table 18-4: BAY_SEQUENCE_TIMER ends what a bay's sequence waits for: 10 ms after the rails are good
reset is released; 10 ms after reset the power drops, and 50 ms later the channel opens, and the bay starts again where
its goal is that; at S + 2 of a prune the module is held in reset. -/
def Obligations.BayChannels : Prop :=
  (
    ∀ (b : Nat) (s : State) (y : Bay), y = s.bay b →
      let does := fun (i : Instr) (p : State → Bay → Prop) => ∃ s', exec i s = .next s' ∧ keepsDie s s' ∧
        (∀ c, c ≠ b → s'.bay c = s.bay c) ∧ p s' (s'.bay b)
      let same := fun (i : Instr) => exec i s = .next s
      let tripped := fun (i : Instr) (chan code : Nat) => does i fun s' y' => y'.chan = chan ∧ y'.isDark ∧
        y'.trips = (y.trips.filter fun t => decide (s.tray.ms < t + 86400000)) ++ [s.tray.ms] ∧
        (y'.lockout = true ↔ y.lockout = true ∨ 3 ≤ y'.trips.length) ∧ y'.restarts = y.restarts ∧ logged s s' b code []
      (y.chan = 1 → s.tray.startQueue = [] → does (.rampComplete b) fun s' y' =>
        y' = { y with chan := 3, reclosed := false } ∧ unlogged s s') ∧
      (y.chan ≠ 1 → same (.rampComplete b) ∧ same (.rampPause b)) ∧
      (y.chan = 1 → does (.rampPause b) fun s' y' => y' = { y with chan := 2 } ∧ logged s s' b 0x0D []) ∧
      (y.chan = 2 → does (.rampResume b) fun s' y' => y' = { y with chan := 1 } ∧ unlogged s s') ∧
      (y.chan ≠ 2 → same (.rampResume b)) ∧
      (y.chan = 1 ∨ y.chan = 2 → does (.rampAbort b) fun s' y' => y'.chan = 6 ∧ y'.isDark ∧ logged s s' b 0x0C []) ∧
      (y.chan = 1 ∨ y.chan = 3 → tripped (.tripFast b) 4 0x0A ∧ tripped (.tripSlow b) 5 0x0B) ∧
      (y.chan ≠ 1 → y.chan ≠ 3 → same (.tripFast b) ∧ same (.tripSlow b)) ∧
      (y.chan = 3 → does (.overload b) fun s' y' => y' = y ∧ logged s s' b 0x0E []) ∧
      (y.chan ≠ 3 → same (.overload b)) ∧
      (y.chan = 5 ∨ y.chan = 6 → y.reclosed = false → y.lockout = false → s.mayStart b = true →
        does (.reclose b) fun s' y' => y'.chan = 1 ∧ y'.reclosed = true ∧ y'.wait = .ramp ∧ y'.trips = y.trips ∧
          s'.tray.ms = s.tray.ms + 10000) ∧
      ((y.reclosed = true ∨ y.lockout = true ∨ s.mayStart b = false ∨ y.chan < 5 ∨ 6 < y.chan) → same (.reclose b))) ∧
  (
    ∀ (b : Nat) (s : State) (y : Bay), y = s.bay b →
      let does := fun (p : State → Bay → Prop) => ∃ s', exec (.baySequenceTimer b) s = .next s' ∧ keepsDie s s' ∧
        (∀ c, c ≠ b → s'.bay c = s.bay c) ∧ p s' (s'.bay b)
      let later := fun (s' : State) (n : Nat) => s'.tray.ms = s.tray.ms + n
      (y.wait = .none ∨ y.wait = .ramp → exec (.baySequenceTimer b) s = .next s) ∧
      (y.wait = .railsGood → does fun s' y' => later s' 10 ∧ y' = { y with resetN := true, wait := .none, bootStatus := 0 }) ∧
      (y.wait = .resetHeld → does fun s' y' => later s' 10 ∧
        y' = { y with pwrEn := false, wait := if y.goal = .hold then .none else .powerDropped }) ∧
      (y.wait = .powerDropped → y.goal = .stop → does fun s' y' => later s' 50 ∧ y'.chan = 0 ∧ y'.isDark) ∧
      (y.wait = .powerDropped → y.goal = .restart → y.present = true → s.tray.leakLatch = false → s.tray.feedOk = true →
        does fun s' y' => later s' 50 ∧ y'.chan = 1 ∧ y'.wait = .ramp ∧ y'.pwrEn = false) ∧
      (y.wait = .retry → does fun s' y' => later s' 10 ∧ y' = { y with wait := .ramp }) ∧
      (∀ e, y.wait = .pruned e → does fun s' y' => later s' 0 ∧ y'.resetN = false ∧ y'.running = false ∧
        y'.wait = .resetHeld ∧ y'.goal = y.goal ∧ y'.pwrEn = y.pwrEn ∧
        (y'.graftOwed = true ↔ y.graftOwed = true ∨ y.running = true)))

/-- R394, R395, R397, R404: a bay starts.  A module that is seated in a bay of mode auto begins the ramp where the leak
latch is clear and a feed conducts; one that is withdrawn loses its power, owes a graft where it ran (R30), and a channel
that was ON is logged.  BAY_START
with the channel ON reads both images, sets the straps by which of them may start, and powers the die held in reset; no
candidate holds it at straps 11.

R395, R397, R398, R399 and Table 18-5: a bay's failures.  A start that fails is logged, and its power is taken away, or
for reason 1 or 2 the other image is tried once; more than three automatic restarts in 24 hours hold the bay.
HB_LAPSE, ERR_CORR and ERR_FATAL of a running module are logged or prune it, as the bay's settings say. -/
def Obligations.BayStartsAndFailures : Prop :=
  (
    ∀ (b : Nat) (s : State) (y : Bay), y = s.bay b → b < 8 →
      let others := fun (s' : State) => ∀ c, c ≠ b → s'.bay c = s.bay c
      let may := y.auto = true ∧ y.limited = false ∧ s.tray.leakLatch = false ∧
        ∃ f, f < 2 ∧ f ∉ s.tray.feedLow ∧ f ∉ s.tray.blocked
      (exec (.modPresentNChange b y.present) s = .next s) ∧
      (y.present = false → ∃ s', exec (.modPresentNChange b true) s = .next s' ∧ keepsDie s s' ∧ others s' ∧
        (s'.bay b).present = true ∧
        (may → y.chan = 0 → (s'.bay b).chan = 1 ∧ (s'.bay b).wait = .ramp) ∧
        (¬ (may ∧ y.chan = 0) → s'.bay b = { y with present := true })) ∧
      (y.present = true → ∃ s', exec (.modPresentNChange b false) s = .next s' ∧ keepsDie s s' ∧ others s' ∧
        (s'.bay b).present = false ∧ (s'.bay b).isDark ∧
        ((s'.bay b).graftOwed = true ↔ y.graftOwed = true ∨ y.running = true) ∧
        (s'.bay b).chan = (if y.chan = 1 ∨ y.chan = 2 ∨ y.chan = 3 then 0 else y.chan) ∧
        (y.chan = 3 → logged s s' b 0x13 []) ∧ (y.chan ≠ 3 → unlogged s s')) ∧
      (∀ env, y.chan ≠ 3 ∨ y.wait ≠ .ramp → ∃ s', exec (.bayStart b env) s = .next s' ∧ keepsDie s s' ∧ others s' ∧
        (may → y.present = true → y.chan = 0 → (s'.bay b).chan = 1 ∧ (s'.bay b).wait = .ramp) ∧
        (¬ (may ∧ y.present = true ∧ y.chan = 0) → s' = s)) ∧
      (∀ env, y.chan = 3 → y.wait = .ramp →
        let good := fun (page auth : List Byte) => pageForm page = true ∧ y.expected = some (imageNode page) ∧
          imageSet page ≤ s.tray.runSet ∧ s.tray.compatOk b page = true ∧ ∀ a, s.tray.authority = some a → a = auth
        ∃ s', exec (.bayStart b env) s = .next s' ∧ keepsDie s s' ∧ others s' ∧
          ((s'.bay b).candA = true ↔ good env.pageA env.authA) ∧ ((s'.bay b).candB = true ↔ good env.pageB env.authB) ∧
          (s'.bay b).pwrEn = true ∧ (s'.bay b).resetN = false ∧ (s'.bay b).wait = .railsGood ∧ (s'.bay b).chan = 3 ∧
          (s'.bay b).straps.toNat = (if (s'.bay b).candA then (if (s'.bay b).candB then 2 else 0)
            else if (s'.bay b).candB then 1 else 3) ∧
          ((s'.bay b).held = true ↔ (s'.bay b).candA = false ∧ (s'.bay b).candB = false))) ∧
  (
    ∀ (b : Nat) (s : State) (y : Bay), y = s.bay b →
      let does := fun (i : Instr) (p : State → Bay → Prop) => ∃ s', exec i s = .next s' ∧ keepsDie s s' ∧ p s' (s'.bay b)
      let same := fun (i : Instr) => exec i s = .next s
      let recent := fun (now : Nat) => (y.restarts.filter fun t => decide (now < t + 86400000)).length
      let retry := y.retried = false ∧ (bits y.bootStatus.toNat 7 4 = 1 ∨ bits y.bootStatus.toNat 7 4 = 2) ∧
        (y.straps = 0 ∧ y.candB = true ∨ y.straps = 1 ∧ y.candA = true)
      let fails := fun (now : Nat) (s' : State) (y' : Bay) => s'.tray.ms = now ∧ (∀ c, c ≠ b → s'.bay c = s.bay c) ∧
        (¬ retry → y'.resetN = false ∧ y'.wait = .resetHeld ∧ y'.goal = .hold) ∧
        (retry → recent now < 3 → y'.straps = 1 - y.straps ∧ y'.retried = true ∧ y'.resetN = false ∧
          y'.wait = .railsGood ∧ y'.restarts.length = recent now + 1) ∧
        (retry → 3 ≤ recent now → y'.resetN = false ∧ y'.limited = true ∧ y'.wait = .none)
      let pruned := fun (y' : Bay) => (∃ e, y'.wait = .pruned e) ∧ y'.goal = (if y.fatalAction then .again else .stop) ∧
        y'.asked ≠ none ∧ y'.resetN = true
      (y.resetN = false ∨ y.running = true ∨ y.held = true → same (.startTimeout b)) ∧
      (y.resetN = true → y.running = false → y.held = false → does (.startTimeout b) (fails (s.tray.ms + 35000))) ∧
      (y.resetN = false → same (.hbLapse b) ∧ same (.errCorr b) ∧ same (.errFatal b)) ∧
      (y.resetN = true → y.held = false → y.running = false → does (.hbLapse b) fun s' y' =>
        y' = { y with hbOk := false } ∧ unlogged s s') ∧
      (y.resetN = true → y.held = false → y.running = true → (y.hbAction = false ∨ y.wait ≠ .none) →
        does (.hbLapse b) fun s' y' => y' = { y with hbOk := false } ∧ logged s s' b 0x08 []) ∧
      (y.resetN = true → y.held = false → y.running = true → y.hbAction = true → y.wait = .none →
        does (.hbLapse b) fun s' y' => y'.hbOk = false ∧ pruned y' ∧ logged s s' b 0x08 []) ∧
      (y.resetN = true → y.reports = [] → does (.errCorr b) fun s' y' => y' = { y with errCorr := true } ∧ logged s s' b 0x09 []) ∧
      (∀ r, y.resetN = true → y.reports = [r] → does (.errCorr b) fun s' y' =>
        y' = { y with errCorr := true } ∧ logged s s' b 0x09 r) ∧
      (y.resetN = true → y.running = false → does (.errFatal b) (fails s.tray.ms)) ∧
      (y.resetN = true → y.running = true → y.wait = .none → does (.errFatal b) fun s' y' =>
        y'.errFatal = true ∧ pruned y' ∧ unlogged s s'))

/-- R412, R418 and Table 18-15: TRAY_QUERY answers one word of each bay, with its channel, presence, straps and node, and
one of the tray; LOG_READ answers up to 64 entries from a sequence number on.  Neither changes the tray.

R394, R397, R399, R402 and Table 18-13: BAY_CTRL.  START of a bay that may start begins its ramp, or with the channel ON
takes a held module from row 4; STOP and RESTART of a running module prune it first, and of one that does not run take its
power down; RESTART of a held module goes on from row 4; RESET_LOCKOUT clears the lockout and the trips.  A bay in the
wrong state answers STATE, and a leak LEAK.

R389, R396, R404, R416 and Table 18-12: TRAY_CFG sets a bay's expected node, modes and prune variant, and may clear the
learned authority; LEAK_CLEAR is accepted 60 s after the last wet reading, opens the latch and starts the auto bays one at
a time; HANDOVER releases the latch where there is a standby. -/
def Obligations.WardenOperations : Prop :=
  (
    ∀ (src : TraySrc) (s : State) (h body : List Byte), s.tray.active ≠ none → body = [] →
      let quiet := fun (s' : State) => keepsDie s s' ∧ (∀ b, bayBut (s'.bay b) = bayBut (s.bay b)) ∧ unlogged s s'
      let bay := field h 1 1 < 8 ∨ field h 1 1 = 0xFF
      (TrayAsked s src 1 h body → bay → zeroBytes h 2 58 = true → ∃ s' d, exec (.trayQuery src) s = .next s' ∧ quiet s' ∧
        trayReplied s s' src 1 0 0 0 (some ([0x3E, BitVec.ofNat 8 (field h 1 1)] ++ leBytes 2 72, d)) ∧ d.length = 72 ∧
        (∀ b, b < 8 → let w := field d (8 * b) 8
          bits w 0 3 = (s.bay b).chan % 8 ∧ bitAt w 3 = (s.bay b).present ∧ bitAt w 4 = (s.bay b).hbOk ∧
          bitAt w 5 = (s.bay b).pwrEn ∧ bits w 8 2 = (s.bay b).straps.toNat ∧
          bits w 10 18 = ((s.bay b).expected.getD 0) % 2 ^ 18 ∧ bits w 28 16 = (s.bay b).set % 2 ^ 16) ∧
        (bitAt (field d 64 8) 0 = true ↔ s.tray.active = some .b) ∧ bitAt (field d 64 8) 1 = s.tray.leakLatch) ∧
      (TrayAsked s src 2 h body → bay → zeroBytes h 2 2 = true → zeroBytes h 9 51 = true → 1 ≤ field h 8 1 → field h 8 1 ≤ 64 →
        ∃ s' d, exec (.logRead src) s = .next s' ∧ quiet s' ∧
          d = ((s.tray.log.filter fun e => decide (field h 4 4 ≤ e.seq)).take (field h 8 1)).flatMap LogEntry.bytes ∧
          trayReplied s s' src 2 0 0 0 (some ([0x3E, BitVec.ofNat 8 (field h 1 1)] ++ leBytes 2 d.length, d)))) ∧
  (
    ∀ (src : TraySrc) (s : State) (h body : List Byte) (b : Nat) (y : Bay), TrayAsked s src 3 h body → b = field h 1 1 → b < 8 →
      body = [] → y = s.bay b → zeroBytes h 2 2 = true → zeroBytes h 5 3 = true → zeroBytes h 18 42 = true →
      let does := fun (i : Instr) (code : Nat) (p : State → Bay → Prop) => ∃ s', exec i s = .next s' ∧ keepsDie s s' ∧
        trayReplied s s' src 3 code 0 0 none ∧ (∀ c, c ≠ b → bayBut (s'.bay c) = bayBut (s.bay c)) ∧ p s' (bayBut (s'.bay b))
      let kept := fun (_ : State) (y' : Bay) => y' = bayBut y
      let row4 := fun (_ : State) (y' : Bay) => y' = bayBut { y with resetN := false, held := false, limited := false, wait := .retry }
      let plain := zeroBytes h 8 10 = true
      let inTime := field h 8 8 < 2 ^ 44
      let down := fun (i : Instr) (goal : BayGoal) =>
        (y.chan ≠ 3 ∨ y.wait ≠ .none → does i 4 kept) ∧
        (y.chan = 3 → y.wait = .none → y.running = false → does i 0 fun _ y' => y'.resetN = false ∧ y'.wait = .resetHeld ∧
          y'.goal = goal ∧ y'.chan = 3) ∧
        (y.chan = 3 → y.wait = .none → y.running = true → ∃ s', exec i s = .next s' ∧ keepsDie s s' ∧
          (s'.bay b).wait = .pruned (field h 8 8 + 2) ∧ (s'.bay b).goal = goal ∧
          ((s'.bay b).asked).map (fun a => (a.boundary, a.src)) = some (field h 8 8, some src))
      (field h 4 1 = 1 → plain →
        (s.tray.leakLatch = true → does (.bayCtrlStart src) 7 kept) ∧
        (s.tray.leakLatch = false → (s.mayStart b = false ∨ y.running = true ∨ y.wait ≠ .none ∨ y.lockout = true) →
          does (.bayCtrlStart src) 4 kept) ∧
        (s.mayStart b = true → y.running = false → y.wait = .none → y.lockout = false →
          (y.chan ≠ 3 → does (.bayCtrlStart src) 0 fun _ y' => y'.chan = 1 ∧ y'.wait = .ramp ∧ y'.limited = false) ∧
          (y.chan = 3 → (y.held = true ∨ y.resetN = false) → does (.bayCtrlStart src) 0 row4) ∧
          (y.chan = 3 → y.held = false → y.resetN = true → does (.bayCtrlStart src) 4 kept))) ∧
      (field h 4 1 = 2 → inTime → down (.bayCtrlStop src) .stop) ∧
      (field h 4 1 = 3 → inTime →
        (s.tray.leakLatch = true → does (.bayCtrlRestart src) 7 kept) ∧
        (s.tray.leakLatch = false → y.held = true → y.wait = .none → does (.bayCtrlRestart src) 0 row4) ∧
        (s.tray.leakLatch = false → (y.held = false ∨ y.wait ≠ .none) → down (.bayCtrlRestart src) .restart)) ∧
      (field h 4 1 = 4 → plain → does (.bayCtrlResetLockout src) 0 fun _ y' =>
        y' = bayBut { y with lockout := false, trips := [], chan := if y.chan = 4 ∨ y.chan = 5 ∨ y.chan = 6 then 0 else y.chan })) ∧
  (
    ∀ (src : TraySrc) (s : State) (h body : List Byte), body = [] →
      let replied := fun (s' : State) (op code : Nat) => keepsDie s s' ∧ trayReplied s s' src op code 0 0 none
      let plain := (field h 1 1 < 8 ∨ field h 1 1 = 0xFF) ∧ zeroBytes h 2 58 = true
      (∀ b, TrayAsked s src 4 h body → b = field h 1 1 → b < 8 → zeroBytes h 2 2 = true → zeroBytes h 10 50 = true →
        field h 4 3 < 2 ^ 18 → field h 7 1 < 32 →
        ∃ s', exec (.trayCfg src) s = .next s' ∧ replied s' 4 0 ∧ (∀ c, c ≠ b → bayBut (s'.bay c) = bayBut (s.bay c)) ∧
          bayBut (s'.bay b) = bayBut { s.bay b with
            expected := if bitAt (field h 7 1) 0 then some (field h 4 3) else none, auto := bitAt (field h 7 1) 1
            hbAction := bitAt (field h 7 1) 2, fatalAction := bitAt (field h 7 1) 3, pruneVariant := field h 8 2 } ∧
          s'.tray.authority = (if bitAt (field h 7 1) 4 then none else s.tray.authority)) ∧
      (TrayAsked s src 13 h body → plain →
        ((s.tray.leakLatch = false ∨ s.tray.ms < s.tray.wetAt + 60000) →
          ∃ s', exec (.leakClear src) s = .next s' ∧ replied s' 13 4 ∧ s'.tray.leakLatch = s.tray.leakLatch ∧ unlogged s s') ∧
        (s.tray.leakLatch = true → s.tray.wetAt + 60000 ≤ s.tray.ms →
          ∃ s', exec (.leakClear src) s = .next s' ∧ replied s' 13 0 ∧ s'.tray.leakLatch = false ∧ s'.tray.wet = [] ∧
            s'.tray.sensorFault = [] ∧ logged s s' 0xFF 0x12 [] ∧
            (∀ b, b ∈ s'.tray.startQueue ↔ b < 8 ∧ (s.bay b).auto = true ∧ (s.bay b).present = true ∧
              ((s.bay b).chan = 0 ∨ (s.bay b).chan = 7)))) ∧
      (TrayAsked s src 12 h body → plain →
        (s.tray.standby = none → ∃ s', exec (.handover src) s = .next s' ∧ replied s' 12 4 ∧
          s'.tray.released = s.tray.released) ∧
        (s.tray.standby ≠ none → ∃ s', exec (.handover src) s = .next s' ∧ replied s' 12 0 ∧ s'.tray.released = true ∧
          s'.tray.active = s.tray.active)))

/-- R414, R415: uploads.  RS_OPEN and FW_OPEN open the one session of 3 to 65,536 pages, or answer BUSY; RS_CHUNK and
FW_CHUNK store 2,048 B of it, or answer SESSION.

R337, R414, R415: RS_COMMIT and FW_COMMIT of a session that is not whole, or is none, answer SESSION, and of one whose
image fails its check CHECK, closing it; a rootstock of a module that starts, or that runs from the image, answers STATE,
and none is written while its module starts; ROOTSTOCK_WRITE_DONE and BUNDLE_WRITE_DONE end the write, answer the commit, and leave
the image in the bay's flash or the bundle staged on the cards that are seated.

R416: FW_ACTIVATE boots the standby card onto the staged bundle where both cards hold the same one, not failed, above
their own sets, and else answers STATE; FW_REJOIN_HEALTHY hands over and boots the second card, and after that one ends
activation; FW_REJOIN_TIMEOUT returns the card to PREV, marks the bundle failed on both, and ends activation.

R413: the service port.  SP_HELLO is answered with 32 fresh bytes and starts the session anew, with no level; SP_AUTH
uses the nonce up, and gives no level where no authority is known or no nonce stands; SP_SESSION_END clears the session. -/
def Obligations.UploadsAndFirmware : Prop :=
  (
    ∀ (fw : Bool) (src : TraySrc) (s : State) (h body : List Byte),
      let op := if fw then 8 else 5
      let c := if fw then Instr.fwOpen src else .rsOpen src
      let oc := if fw then 9 else 6
      let cc := if fw then Instr.fwChunk src else .rsChunk src
      let quiet := fun (s' : State) => keepsDie s s' ∧ (∀ b, bayBut (s'.bay b) = bayBut (s.bay b)) ∧ unlogged s s'
      let n := field h 8 4
      let bay := if fw then field h 1 1 < 8 ∨ field h 1 1 = 0xFF else field h 1 1 < 8
      (TrayAsked s src op h body → body = [] → bay → zeroBytes h 2 2 = true → zeroBytes h 5 3 = true →
        zeroBytes h 12 48 = true → field h 4 1 < (if fw then 1 else 2) →
        ((n < 3 ∨ 65536 < n) → ∃ s', exec c s = .next s' ∧ quiet s' ∧ trayReplied s s' src op 1 0 0 none ∧
          s'.tray.upload = s.tray.upload) ∧
        (3 ≤ n → n ≤ 65536 → s.tray.upload ≠ none → ∃ s', exec c s = .next s' ∧ quiet s' ∧
          trayReplied s s' src op 6 0 0 none ∧ s'.tray.upload = s.tray.upload) ∧
        (3 ≤ n → n ≤ 65536 → s.tray.upload = none → ∃ s' u, exec c s = .next s' ∧ quiet s' ∧
          trayReplied s s' src op 0 s.tray.nextUpload 0 none ∧ s'.tray.upload = some u ∧ u.id = s.tray.nextUpload ∧
          u.bundle = fw ∧ u.pages = n ∧ u.chunks = [] ∧ u.writing = false ∧
          (fw = false → u.bay = field h 1 1 ∧ u.second = (field h 4 1 == 1)))) ∧
      (TrayAsked s src oc h body → body.length = 2048 → (field h 1 1 < 8 ∨ field h 1 1 = 0xFF) → zeroBytes h 8 52 = true →
        field h 4 4 % 2048 = 0 →
        let mine := s.tray.upload.filter fun u => u.bundle == fw && u.id == field h 2 2 && !u.writing
        (mine = none → ∃ s', exec cc s = .next s' ∧ quiet s' ∧ s'.tray.upload = s.tray.upload ∧
          trayReplied s s' src oc 8 (field h 2 2) 0 none) ∧
        (∀ u, mine = some u → 4096 * u.pages ≤ field h 4 4 → ∃ s', exec cc s = .next s' ∧ quiet s' ∧
          s'.tray.upload = some u ∧ trayReplied s s' src oc 8 u.id u.whole none) ∧
        (∀ u, mine = some u → field h 4 4 < 4096 * u.pages → ∃ s' u', exec cc s = .next s' ∧ quiet s' ∧
          s'.tray.upload = some u' ∧ u'.chunks.find (field h 4 4 / 2048) = some body ∧
          (∀ j, j ≠ field h 4 4 / 2048 → u'.chunks.find j = u.chunks.find j) ∧ u'.pages = u.pages ∧ u'.id = u.id ∧
          trayReplied s s' src oc 0 u.id u'.whole none))) ∧
  (
    ∀ (src : TraySrc) (s : State) (h : List Byte),
      let plain := (field h 1 1 < 8 ∨ field h 1 1 = 0xFF) ∧ zeroBytes h 4 56 = true
      let mine := fun (fw : Bool) => s.tray.upload.filter fun u => u.bundle == fw && u.id == field h 2 2 && !u.writing
      let writes := fun (fw : Bool) => s.tray.upload.filter fun u => u.writing && u.bundle == fw
      let answers := fun (c : Instr) (op code session pages : Nat) (p : State → Prop) => ∃ s', exec c s = .next s' ∧ keepsDie s s' ∧
        trayReplied s s' src op code session pages none ∧ p s'
      let kept := fun (s' : State) => s'.tray.upload = s.tray.upload
      let shut := fun (s' : State) => s'.tray.upload = none
      (TrayAsked s src 7 h [] → plain →
        (mine false = none → answers (.rsCommit src) 7 8 (field h 2 2) 0 kept) ∧
        (∀ u, mine false = some u → u.whole ≠ u.pages → answers (.rsCommit src) 7 8 u.id u.whole kept) ∧
        let starts := fun (y : Bay) => y.resetN = true ∧ y.running = false ∧ y.straps ≠ 3
        (∀ u, mine false = some u → u.whole = u.pages →
          ((s.bay u.bay).chan ≠ 3 ∨ starts (s.bay u.bay) ∨ (s.bay u.bay).runsImage u.second = true) →
          answers (.rsCommit src) 7 4 u.id u.whole kept) ∧
        (∀ u, mine false = some u → u.whole = u.pages → (s.bay u.bay).chan = 3 → ¬ starts (s.bay u.bay) →
          (s.bay u.bay).runsImage u.second = false →
          rootstockValid u.image = false → answers (.rsCommit src) 7 5 u.id u.whole shut) ∧
        (∀ u, mine false = some u → u.whole = u.pages → (s.bay u.bay).chan = 3 → ¬ starts (s.bay u.bay) →
          (s.bay u.bay).runsImage u.second = false → rootstockValid u.image = true → s.rsFaults u.bay u.image = [] →
          (∀ a, s.tray.authority = some a → a = imageAuthority u.image) → ∃ s', exec (.rsCommit src) s = .next s' ∧
          keepsDie s s' ∧ s'.tray.upload = some { u with writing := true, src := src } ∧ unlogged s s')) ∧
      (TrayAsked s src 10 h [] → plain →
        (mine true = none → answers (.fwCommit src) 10 8 (field h 2 2) 0 kept) ∧
        (∀ u, mine true = some u → u.whole ≠ u.pages → answers (.fwCommit src) 10 8 u.id u.whole kept) ∧
        (∀ u, mine true = some u → u.whole = u.pages → bundleValid u.image = false →
          answers (.fwCommit src) 10 5 u.id u.whole shut) ∧
        (∀ u, mine true = some u → u.whole = u.pages → bundleValid u.image = true → ∃ s', exec (.fwCommit src) s = .next s' ∧
          s'.tray.upload = some { u with writing := true, src := src })) ∧
      (∀ ok, writes false = none → exec (.rootstockWriteDone ok) s = .next s) ∧
      (∀ ok u, writes false = some u → (s.bay u.bay).starting = true → exec (.rootstockWriteDone ok) s = .next s) ∧
      (∀ ok u, writes false = some u → (s.bay u.bay).starting = false → (ok = false ∨ (s.bay u.bay).held = false) → ∃ s',
        exec (.rootstockWriteDone ok) s = .next s' ∧ shut s' ∧ keepsMemory s s' ∧
        (u.bay = 0 → u.second = true → s'.boot.flashB = (if ok then u.image else []) ∧ s'.boot.flashA = s.boot.flashA) ∧
        (u.bay = 0 → u.second = false → s'.boot.flashA = (if ok then u.image else []) ∧ s'.boot.flashB = s.boot.flashB) ∧
        (u.bay ≠ 0 → s'.boot = s.boot) ∧ (∀ b, bayBut (s'.bay b) = bayBut (s.bay b)) ∧
        ((u.bay, u.second, u.image) ∈ s'.tray.written ↔ ok = true)) ∧
      (∀ ok, writes true = none → exec (.bundleWriteDone ok) s = .next s) ∧
      (∀ ok u, writes true = some u → ∃ s', exec (.bundleWriteDone ok) s = .next s' ∧ shut s' ∧ keepsDie s s' ∧
        (∀ w, s'.tray.card w = if ok = true ∧ (s.tray.card w).present = true
          then { s.tray.card w with staged := some { set := imageSet u.image } } else s.tray.card w))) ∧
  (
    ∀ s : State,
      (∀ (src : TraySrc) (h : List Byte), TrayAsked s src 11 h [] → (field h 1 1 < 8 ∨ field h 1 1 = 0xFF) →
        zeroBytes h 2 58 = true →
        (s.tray.mayActivate = false → ∃ s', exec (.fwActivate src) s = .next s' ∧ keepsDie s s' ∧
          trayReplied s s' src 11 4 0 0 none ∧ s'.tray.activation = s.tray.activation ∧ s'.tray.cardA = s.tray.cardA ∧
          s'.tray.cardB = s.tray.cardB) ∧
        (∀ w x, s.tray.activation = 0 → s.tray.standby = some w → (∀ v, (s.tray.card v).staged = some x) → x.failed = false →
          (∀ v, (s.tray.card v).run < x.set) → ∃ s', exec (.fwActivate src) s = .next s' ∧ keepsDie s s' ∧
            trayReplied s s' src 11 0 0 0 none ∧ s'.tray.activation = 1 ∧
            s'.tray.card w = { s.tray.card w with run := x.set, prev := (s.tray.card w).run, healthy := false } ∧
            s'.tray.card (otherWarden w) = s.tray.card (otherWarden w))) ∧
      (s.tray.activation = 0 ∨ s.tray.active = none →
        exec .fwRejoinHealthy s = .next s ∧ exec .fwRejoinTimeout s = .next s) ∧
      (∀ u w, s.tray.active = some u → w = otherWarden u → s.tray.activation ≠ 0 →
        (∀ x, s.tray.activation = 1 → (s.tray.card u).staged = some x → ∃ s', exec .fwRejoinHealthy s = .next s' ∧ keepsDie s s' ∧
          s'.tray.active = some w ∧ s'.tray.activation = 2 ∧ s'.tray.ms = s.tray.ms + 60000 ∧ (s'.tray.card w).healthy = true ∧
          (s'.tray.card u).run = x.set ∧ (s'.tray.card u).prev = (s.tray.card u).run ∧ logged s s' 0xFF 0x1D []) ∧
        (s.tray.activation ≠ 1 → ∃ s', exec .fwRejoinHealthy s = .next s' ∧ keepsDie s s' ∧ s'.tray.activation = 0 ∧
          s'.tray.active = some u ∧ (s'.tray.card w).healthy = true ∧ ∀ v, (s'.tray.card v).staged = none) ∧
        (∃ s', exec .fwRejoinTimeout s = .next s' ∧ keepsDie s s' ∧ s'.tray.activation = 0 ∧ s'.tray.active = some u ∧
          s'.tray.ms = s.tray.ms + 120000 ∧ (s'.tray.card w).run = (s.tray.card w).prev ∧ (s'.tray.card w).healthy = true ∧
          ∀ v x, (s'.tray.card v).staged = some x → x.failed = true))) ∧
  (
    ∀ s : State,
      (∀ f, spMessage f 1 = none → exec (.spHello f) s = .next s) ∧
      (∀ f m, spMessage f 1 = some m → m.length = 1 → s.tray.active ≠ none → ∃ s', exec (.spHello f) s = .next s' ∧
        keepsDie s s' ∧ s'.tray.svc.nonce.length = 32 ∧ s'.tray.svc.level = none ∧ s'.free = s.free + 1 ∧
        s'.tray.svc.out = s.tray.svc.out ++ [svcFrame (0x41 :: s'.tray.svc.nonce)] ∧ s'.tray.bays = s.tray.bays) ∧
      (∀ f, spMessage f 2 = none → exec (.spAuth f) s = .next s) ∧
      (∀ f m, spMessage f 2 = some m → ∃ s', exec (.spAuth f) s = .next s' ∧ keepsDie s s' ∧ s'.tray.svc.nonce = [] ∧
        s'.tray.svc.out = s.tray.svc.out ∧ s'.tray.bays = s.tray.bays ∧
        ((s.tray.authority = none ∨ s.tray.svc.nonce = [] ∨ m.length ≠ 369 ∧ m.length ≠ 641) → s'.tray.svc.level = none)) ∧
      (∃ s', exec .spSessionEnd s = .next s' ∧ keepsDie s s' ∧ s'.tray = { s.tray with svc := {} }))

/-- R405 to R408 and Table 18-8: STRING_MEASURE, each second, keeps the 18 readings, bleeds the known cells more than 20 mV
above their mean, and logs a known cell outside 1.50 to 2.75 V; TAP_TEST finds taps that moved more than 200 mV open, which
makes the cells beside them unknown and derates the string; HOLDUP_PACK_CHANGE empties or renews the string's record.

R409 and Table 18-9: CABLE_PRESENCE_CHANGE.  A cable that is plugged or pulled is logged with its connector; its identity
record is kept; one that does not read right is logged CABLE_ID_BAD. -/
def Obligations.HoldUpAndCables : Prop :=
  (
    ∀ (s : State) (h : HoldUp), h = s.tray.holdUp →
      (∀ cells total, h.fitted = true → cells.length = 18 → ∃ s' h', exec (.stringMeasure cells total) s = .next s' ∧
        keepsDie s s' ∧ s'.tray.holdUp = h' ∧ s'.tray.ms = (s.tray.ms / 1000 + 1) * 1000 ∧ h'.cells = cells ∧ h'.total = total ∧
        h'.unknown = h.unknown ∧ h'.openTaps = h.openTaps ∧
        let known := fun (c : Nat) => 1 ≤ c ∧ c ≤ 18 ∧ c ∉ h.unknown
        let mv := fun (c : Nat) => cells.getD (c - 1) 0
        let agree := cells.sum ≤ total + 60 ∧ total ≤ cells.sum + 60
        (∀ c, c ∈ h'.bleed → known c) ∧
        (∀ c, c ∈ h'.failed ↔ c ∈ h.failed ∨ agree ∧ known c ∧ (mv c < 1500 ∨ 2750 < mv c)) ∧
        (h.unknown = [] → ∀ c, c ∈ h'.bleed ↔ known c ∧ cells.sum + 20 * 18 < mv c * 18) ∧
        ((∀ c, known c → 1500 ≤ mv c ∧ mv c ≤ 2750) → h'.charging = h.charging ∧ unlogged s s')) ∧
      (∀ moves good, h.fitted = true → moves.length = 19 → h.openTaps = [] → h.marginal = [] → h.measureFault = false →
        (good = true ∨ ∃ j, j < 19 ∧ 5 ≤ moves.getD j 0) →
        ∃ s' h', exec (.tapTest moves good) s = .next s' ∧ keepsDie s s' ∧ s'.tray.holdUp = h' ∧ h'.suspicious = false ∧
          h'.measureFault = false ∧
          (∀ j, j ∈ h'.openTaps ↔ j < 19 ∧ 200 < moves.getD j 0 ∧ (j ≠ 0 ∧ j ≠ 18 ∨ good = false)) ∧
          (∀ c, c ∈ h'.unknown ↔ 1 ≤ c ∧ c ≤ 18 ∧ (c - 1 ∈ h'.openTaps ∧ c ≠ 1 ∨ c ∈ h'.openTaps ∧ c ≠ 18 ∨
            c = 1 ∧ 0 ∈ h'.openTaps ∨ c = 18 ∧ 18 ∈ h'.openTaps)) ∧
          h'.cells = h.cells ∧ h'.failed = h.failed) ∧
      (exec (.holdupPackChange h.fitted) s = .next s) ∧
      (h.fitted = true → ∃ s', exec (.holdupPackChange false) s = .next s' ∧ keepsDie s s' ∧ unlogged s s' ∧
        s'.tray.holdUp = { h with fitted := false, converter := false, charging := false, bleed := [] }) ∧
      (h.fitted = false → ∃ s', exec (.holdupPackChange true) s = .next s' ∧ keepsDie s s' ∧ s'.tray.holdUp = {} ∧
        s'.tray.bays = s.tray.bays)) ∧
  (
    ∀ (n : Nat) (r : List Byte) (s : State), n < 34 →
      (exec (.cablePresenceChange n (s.tray.cables.at n {}).present r) s = .next s) ∧
      ((s.tray.cables.at n {}).present = true → ∃ s', exec (.cablePresenceChange n false r) s = .next s' ∧ keepsDie s s' ∧
        s'.tray.cables.at n {} = { present := false, record := [] } ∧ logged s s' 0xFF 0x18 [0, BitVec.ofNat 8 n] ∧
        ∀ m, m ≠ n → s'.tray.cables.find m = s.tray.cables.find m) ∧
      ((s.tray.cables.at n {}).present = false → ∃ s', exec (.cablePresenceChange n true r) s = .next s' ∧ keepsDie s s' ∧
        s'.tray.cables.at n {} = { present := true, record := r } ∧ s'.tray.bays = s.tray.bays ∧
        s'.tray.nextLog = s.tray.nextLog + 1 + (if cableGood r = false then 1 else
          (if s.mediumOk n r then 0 else 1) + (if 2000 < (toSigned 16 (field r 8 2)).natAbs then 1 else 0)) ∧
        ∀ m, m ≠ n → s'.tray.cables.find m = s.tray.cables.find m))

/-- R81, R326 and Tables 3-15 to 3-19, 14-4: RDCR gives rd a register as its table lays it out: the core's place, the fields
of a thread's registers, chip time, an event's count, pending bit and misses; a number that no chapter assigns raises
ILLEGAL_INSTR.

R10, R81, R324: WRCR, and EV_CLEAR, which is the same word.  A write to another thread's register, or to one that is
read-only, has no effect; one to the thread's own sets its fields; a clear of an event register with the count that it
holds clears pending, any other counts a miss, and no write ever changes a count.

R179, R350, R367: DBG_READ of a core in the grid answers its UNIT_STATUS and the bytes of its window, and changes no
core; a message of bad form, or of a core outside the grid, is refused. -/
def Obligations.ControlRegisters : Prop :=
  (
    ∀ (a : ThreadAt) (o : CrRd) (s : State) (site : Nat) (th : Thread) (n : Nat), Issues (.rdcr a o) a s site →
      th = s.thr site a.t → n = o.crn.toNat →
      let gives := fun (v : Nat) => exec (.rdcr a o) s = .next (s.setThr site a.t (th.wx o.rd (BitVec.ofNat 64 v)).retire)
      let word := fun (u : Nat) => let e := s.events.at (n * 1024 + u) {}
        e.count.toNat + (if e.pending then 2 ^ 31 else 0) + e.miss.toNat * 2 ^ 32
      (n = 0x000 → gives (a.row.toNat + a.col.toNat * 2 ^ 5 + site / 32 % 32 * 2 ^ 10 +
        (if blkReduced (s.routes s.epoch) then 2 ^ 15 else 0))) ∧
      (∀ u : BitVec 2, let t := s.thr site u
        (n = 0x042 + 16 * u.toNat → gives (t.fpc.toNat * 4)) ∧
        (n = 0x043 + 16 * u.toNat → gives t.faddr.toNat) ∧
        (n = 0x044 + 16 * u.toNat → gives (t.fvecEntry.toNat * 4 + if t.fvecEnable then 2 ^ 15 else 0)) ∧
        (n = 0x045 + 16 * u.toNat → gives (t.flags.toNat + t.rm.toNat * 2 ^ 5)) ∧
        (n = 0x046 + 16 * u.toNat → gives (t.lbeg.toNat + t.lend.toNat * 2 ^ 16)) ∧
        (n = 0x047 + 16 * u.toNat → gives t.lcnt.toNat) ∧
        (n = 0x048 + 16 * u.toNat → gives t.tcmp.toNat) ∧
        (n = 0x049 + 16 * u.toNat → gives t.srState.toNat)) ∧
      (n = 0x0C0 → gives (s.now % 2 ^ 64)) ∧
      (0x080 ≤ n → n ≤ 0x097 → n ≠ 0x082 → gives (word site)) ∧
      (n = 0x082 ∨ 0x098 ≤ n ∧ n ≤ 0x0A0 → gives (word 0)) ∧
      (0x0A2 ≤ n → n ≤ 0x0AD → gives (word th.evSel.toNat)) ∧
      (0x0AE ≤ n → n ≤ 0x0BF → th.lnkSel.toNat % 32 < 24 → gives (word (th.lnkSel.toNat % 32))) ∧
      (0x0C7 ≤ n → n ≤ 0x17F → exec (.rdcr a o) s = .next (s.raise site a.t
        { cause := 0x01, addr := BitVec.ofNat 64 (encodeWord (.rdcr a o)).toNat }))) ∧
  (
    ∀ (c : Instr) (a : ThreadAt) (o : CrWr) (s : State) (site : Nat) (th : Thread) (n : Nat) (v : W64),
      (c = .wrcr a o ∨ c = .evClear a o) → Issues (.wrcr a o) a s site → th = s.thr site a.t → n = o.crn.toNat → v = th.rx o.ra →
      let puts := fun (t : Thread) => exec c s = .next (s.setThr site a.t t.retire)
      let own := 0x40 + 16 * a.t.toNat
      let clears := fun (u : Nat) => let e := s.events.at (n * 1024 + u) {}
        ∃ s', exec c s = .next s' ∧ s'.thr site a.t = th.retire ∧ keepsMemory s s' ∧
          s'.events.at (n * 1024 + u) {} = (if v.toNat % 2 ^ 31 = e.count.toNat then { e with pending := false }
            else { e with miss := e.miss + 1 }) ∧
          ∀ k, k ≠ n * 1024 + u → s'.events.find k = s.events.find k
      (0x040 ≤ n → n < 0x080 → n % 16 < 11 → (n < own ∨ own + 16 ≤ n) → puts th) ∧
      (n = own ∨ n = own + 1 ∨ n = own + 3 ∨ n = own + 6 ∨ n = own + 7 → puts th) ∧
      (n = own + 2 → puts { th with fpc := BitVec.ofNat 13 (v.toNat / 4) }) ∧
      (n = own + 4 → puts { th with fvecEntry := BitVec.ofNat 13 (v.toNat / 4), fvecEnable := v.getLsbD 15 }) ∧
      (n = own + 5 → puts { th with flags := BitVec.ofNat 5 v.toNat, rm := BitVec.ofNat 3 (v.toNat / 32) }) ∧
      (n = own + 8 → puts { th with tcmp := v }) ∧
      (n = 0x0A1 → puts { th with evSel := BitVec.ofNat 3 v.toNat }) ∧
      (n = 0x340 → puts { th with lnkSel := BitVec.ofNat 8 v.toNat }) ∧
      (n < 4 ∨ 0x0C0 ≤ n ∧ n ≤ 0x0C4 → puts th) ∧
      (0x080 ≤ n → n ≤ 0x097 → n ≠ 0x082 → clears site) ∧
      (n = 0x082 ∨ 0x098 ≤ n ∧ n ≤ 0x0A0 → clears 0) ∧
      (0x0A2 ≤ n → n ≤ 0x0AD → clears th.evSel.toNat) ∧
      (0x0AE ≤ n → n ≤ 0x0BF → th.lnkSel.toNat % 32 < 24 → clears (th.lnkSel.toNat % 32)) ∧
      (n = 0x322 → 1 ≤ v.toNat % 16 → v.toNat % 16 ≤ 6 → ∃ s' k, exec c s = .next s' ∧ keepsMemory s s' ∧
        (s'.thr site a.t).st = .block ∧ (s'.thr site a.t).block = .stream k ∧ k.id = th.strmArg0.toNat ∧
        k.code = v.toNat % 16 ∧ k.arg = th.strmArg1 ∧ k.deadline = s.now + s.classTimeout (s.streamCls k.id))) ∧
  (
    ∀ (k : Nat) (s : State) (f : LFlit) (r : List LFlit) (h : List Byte), MgmtAt s k 2 10 f r → h = lineBytes f.payload →
      let n := field h 2 2
      let form := zeroBytes h 1 1 = true ∧ zeroBytes h 8 56 = true ∧ mgmtBody (f :: r) = [] ∧ 8 ≤ n ∧ n ≤ 256 ∧ n % 8 = 0 ∧
        field h 6 2 % 8 = 0 ∧ field h 6 2 < 8192 ∧ field h 4 1 < 32 ∧ field h 5 1 < 32
      let inGrid := field h 4 1 < 28 ∧ field h 5 1 < blkCols (s.routes s.epoch)
      let answers := fun (code : Nat) => ∃ s', exec (.dbgRead k) s = .next s' ∧ mgmtReplied s s' k f r (statusIs 10 code) ∧
        s'.cores = s.cores ∧ s'.events = s.events ∧ s'.mem = s.mem ∧ s'.units = s.units
      (¬ form → answers 1) ∧ (form → ¬ inGrid → answers 3) ∧
      (form → inGrid → 8192 < field h 6 2 + n → answers 13) ∧ (form → inGrid → field h 6 2 + n ≤ 8192 → answers 0))

/-- R61 to R65, R77, R318: ISSUE_SLOT.  The slot goes to its owner, and in ready mode to the next thread in turn that could
issue; that thread's word then does what its own command does.  An uncorrectable word faults with FETCH and counts, a
malformed one raises ILLEGAL_INSTR; a slot that no thread takes is counted.  YIELD holds only to the end of its frame.
R58, R67: each slot is a step of the core; a corrected word counts in EV_SPD_CE, and what was issued is noted with its
latencies, which only issue slots look at (log entry 7, the model's choice). -/
def Obligations.SlotsIssueWords : Prop :=
  ∀ (k : CoreAt) (s : State),
    (s.siteOf k.row.toNat k.col.toNat = none ∨ s.running = false → exec (.issueSlot k) s = .next s) ∧
    (∀ site c own, s.siteOf k.row.toNat k.col.toNat = some site → s.running = true →
      c = (if (s.core site).slot = 0 then (s.core site).newFrame else s.core site) →
      own = BitVec.ofNat 2 (c.slotOwner.toNat / 4 ^ c.slot.toNat) →
      ((∀ t, c.candidate k t → c.readyMode = false ∧ t ≠ own) → exec (.issueSlot k) s = .next (s.setCore site
        { c with slot := c.slot + 1, steps := c.steps + 1, emptySlots := c.emptySlots + 1 })) ∧
      (∀ d t, c.candidate k (own + d) → t = own + d → (d ≠ 0 → c.readyMode = true) →
        (∀ e, e < d → ¬ c.candidate k (own + e)) →
        let s1 := s.setCore site { c with
          slot := c.slot + 1, steps := c.steps + 1, lentSlots := if d = 0 then c.lentSlots else c.lentSlots + 1 }
        let s2 := if (c.thr t).pc.toNat / 4 ∈ c.istoreFlip then s1.count 0x085 site else s1
        (c.badWord t = true → exec (.issueSlot k) s = .next ((s1.count 0x086 site).raise site t
          { cause := 0x03, addr := BitVec.ofNat 64 (c.thr t).pc.toNat })) ∧
        (c.badWord t = false → c.head k.row k.col t = none → exec (.issueSlot k) s = .next (s2.raise site t
          { cause := 0x01, addr := BitVec.ofNat 64 (c.istore.at ((c.thr t).pc.toNat / 4) 0).toNat })) ∧
        (∀ i u, c.badWord t = false → c.head k.row k.col t = some i → exec i s2 = .next u →
          exec (.issueSlot k) s = .next (u.noteIssue site t i (c.thr t))) ∧
        (∀ i ta o, i = .liu ta o → c.badWord t = false → c.head k.row k.col t = some i → ∃ u, exec i s2 = .next u ∧
          exec (.issueSlot k) s = .next (u.noteIssue site t i (c.thr t)))))

end
end

