-- ==== Sys2Proof/Laws/Tab.lean ====
section
/-! SUPPORT. Sparse tables: what a key reads after an entry is put or dropped. -/

namespace Sys2Proof

variable {α : Type}

@[simp] theorem Tab.find_put (t : Tab α) (k : Nat) (v : α) : Tab.find (Tab.put t k v) k = some v := by
  induction t with
  | nil => simp [Tab.put, Tab.find]
  | cons e r ih =>
    simp only [Tab.put]
    split
    · simp [Tab.find]
    · split
      · simp [Tab.find]
      · next h => simp [Tab.find, h, ih]

theorem Tab.find_put_ne (t : Tab α) {k j : Nat} (v : α) (h : j ≠ k) : Tab.find (Tab.put t k v) j = Tab.find t j := by
  induction t with
  | nil => simp [Tab.put, Tab.find, Ne.symm h]
  | cons e r ih =>
    simp only [Tab.put]
    split
    · simp [Tab.find, Ne.symm h]
    · split
      · next e => subst e; simp [Tab.find, Ne.symm h]
      · simp [Tab.find, ih]

@[simp] theorem Tab.at_put (t : Tab α) (k : Nat) (v d : α) : Tab.at (Tab.put t k v) k d = v := by
  simp [Tab.at]

theorem Tab.at_put_ne (t : Tab α) {k j : Nat} (v d : α) (h : j ≠ k) : Tab.at (Tab.put t k v) j d = Tab.at t j d := by
  simp [Tab.at, Tab.find_put_ne t v h]

@[simp] theorem Tab.find_del (t : Tab α) (k : Nat) : Tab.find (Tab.del t k) k = none := by
  induction t with
  | nil => rfl
  | cons e r ih =>
    by_cases h : e.1 = k
    · simpa [Tab.del, h] using ih
    · simpa [Tab.del, h, Tab.find] using ih

theorem Tab.find_del_ne (t : Tab α) {k j : Nat} (h : j ≠ k) : Tab.find (Tab.del t k) j = Tab.find t j := by
  induction t with
  | nil => rfl
  | cons e r ih =>
    by_cases e1 : e.1 = k
    · simpa [Tab.del, e1, Tab.find, Ne.symm h] using ih
    · by_cases e2 : e.1 = j
      · simp [Tab.del, Tab.find, e2, h]
      · simpa [Tab.del, e1, Tab.find, e2] using ih

end Sys2Proof
end

