-- ==== Sys2Proof/Laws/Mem.lean ====
section
/-! SUPPORT. Byte memories: a read after a write, and the canonical form that every memory operation keeps. -/

namespace Sys2Proof

/-! ## Reading back -/

theorem Mem.read_del (m : List (Nat × Byte)) (k : Nat) : Mem.read (Tab.del m k) k = 0 := by
  induction m with
  | nil => rfl
  | cons e r ih =>
    by_cases h : e.1 = k
    · simpa [Tab.del, h] using ih
    · simpa [Tab.del, h, Mem.read, Ne.symm h] using ih

theorem Mem.read_del_ne (m : List (Nat × Byte)) {k j : Nat} (h : j ≠ k) : Mem.read (Tab.del m k) j = Mem.read m j := by
  induction m with
  | nil => rfl
  | cons e r ih =>
    by_cases e1 : e.1 = k
    · simpa [Tab.del, e1, Mem.read, h] using ih
    · by_cases e2 : j = e.1
      · subst e2; simp [Tab.del, e1, Mem.read]
      · simpa [Tab.del, e1, Mem.read, e2] using ih

theorem Mem.read_put (m : List (Nat × Byte)) (k : Nat) (b : Byte) : Mem.read (Tab.put m k b) k = b := by
  induction m with
  | nil => simp [Tab.put, Mem.read]
  | cons e r ih =>
    simp only [Tab.put]
    split
    · simp [Mem.read]
    · split
      · simp [Mem.read]
      · next h => simp [Mem.read, Ne.symm h, ih]

theorem Mem.read_put_ne (m : List (Nat × Byte)) {k j : Nat} (b : Byte) (h : j ≠ k) :
    Mem.read (Tab.put m k b) j = Mem.read m j := by
  induction m with
  | nil => simp [Tab.put, Mem.read, h]
  | cons e r ih =>
    simp only [Tab.put]
    split
    · simp [Mem.read, h]
    · split
      · next e1 => subst e1; simp [Mem.read, h]
      · simp [Mem.read, ih]

/-- A byte that was written reads back. -/
@[simp] theorem Mem.read_write (m : List (Nat × Byte)) (k : Nat) (b : Byte) : Mem.read (Mem.write m k b) k = b := by
  unfold Mem.write
  split
  · next h => rw [Mem.read_del, h]
  · exact Mem.read_put m k b

/-- A write leaves every other byte. -/
theorem Mem.read_write_ne (m : List (Nat × Byte)) {k j : Nat} (b : Byte) (h : j ≠ k) :
    Mem.read (Mem.write m k b) j = Mem.read m j := by
  unfold Mem.write
  split
  · exact Mem.read_del_ne m h
  · exact Mem.read_put_ne m b h

/-- Bytes written from an address up: each reads back, and every other byte stays. -/
theorem Mem.read_writeN (m : List (Nat × Byte)) (k : Nat) (l : List Byte) (j : Nat) :
    Mem.read (Mem.writeN m k l) j = if k ≤ j ∧ j < k + l.length then l.getD (j - k) 0 else Mem.read m j := by
  induction l generalizing m k with
  | nil => rw [if_neg (by simp only [List.length_nil]; omega)]; rfl
  | cons b r ih =>
    rw [Mem.writeN, ih]
    by_cases h : j = k
    · subst h
      rw [if_neg (by omega), if_pos (by simp)]
      simp
    · by_cases h2 : k + 1 ≤ j ∧ j < k + 1 + r.length
      · rw [if_pos h2, if_pos (by simp; omega)]
        have e : j - k = j - (k + 1) + 1 := by omega
        rw [e, List.getD_cons_succ]
      · rw [if_neg h2, if_neg (by simp; omega), Mem.read_write_ne m b h]

theorem Mem.length_readN (m : List (Nat × Byte)) (k n : Nat) : (Mem.readN m k n).length = n := by
  induction n generalizing k with
  | zero => rfl
  | succ n ih => simp [Mem.readN, ih]

/-- A cleared range reads zero, and every other byte stays. -/
theorem Mem.read_clear (m : List (Nat × Byte)) (lo n j : Nat) :
    Mem.read (Mem.clear m lo n) j = if lo ≤ j ∧ j < lo + n then 0 else Mem.read m j := by
  induction m with
  | nil => simp [Mem.clear, Mem.read]
  | cons e r ih =>
    by_cases h : e.1 < lo ∨ lo + n ≤ e.1
    · have h' : Mem.clear (e :: r) lo n = e :: Mem.clear r lo n := by simp [Mem.clear, h]
      rw [h']
      by_cases e2 : j = e.1
      · subst e2
        rw [if_neg (by omega)]
        simp [Mem.read]
      · simp only [Mem.read, e2, if_false, ih]
    · have h' : Mem.clear (e :: r) lo n = Mem.clear r lo n := by
        have h2 : ¬ (decide (e.1 < lo) || decide (lo + n ≤ e.1)) = true := by simpa using h
        exact List.filter_cons_of_neg h2
      rw [h', ih]
      by_cases e2 : j = e.1
      · subst e2
        rw [if_pos (by omega), if_pos (by omega)]
      · simp only [Mem.read, e2, if_false]

/-! ## The canonical form -/

/-- The canonical form, said of the list: no zero byte, and strictly rising addresses. -/
theorem Mem.wf_iff (m : List (Nat × Byte)) :
    Mem.wf m = true ↔ (∀ e ∈ m, e.2 ≠ 0) ∧ m.Pairwise (fun a b => a.1 < b.1) := by
  induction m with
  | nil => simp [Mem.wf]
  | cons e r ih =>
    cases r with
    | nil => simp [Mem.wf]
    | cons f r =>
      simp only [Mem.wf, Bool.and_eq_true, bne_iff_ne, decide_eq_true_eq, ih, List.pairwise_cons, List.mem_cons]
      constructor
      · rintro ⟨⟨h1, h2⟩, h3, h4, h5⟩
        refine ⟨?_, ?_, h4, h5⟩
        · rintro a (rfl | h)
          · exact h1
          · exact h3 a h
        · rintro a (rfl | h)
          · exact h2
          · exact Nat.lt_trans h2 (h4 a h)
      · rintro ⟨h1, h2, h3, h4⟩
        exact ⟨⟨h1 e (.inl rfl), h2 f (.inl rfl)⟩, fun a ha => h1 a (.inr ha), h3, h4⟩

theorem Mem.wf_filter (m : List (Nat × Byte)) (p : Nat × Byte → Bool) (h : Mem.wf m = true) :
    Mem.wf (m.filter p) = true := by
  rw [Mem.wf_iff] at h ⊢
  exact ⟨fun e he => h.1 e (List.mem_filter.mp he).1, h.2.filter p⟩

theorem Mem.mem_put (m : List (Nat × Byte)) (k : Nat) (b : Byte) (e : Nat × Byte) (h : e ∈ Tab.put m k b) :
    e = (k, b) ∨ e ∈ m := by
  induction m with
  | nil => simpa [Tab.put] using h
  | cons f r ih =>
    simp only [Tab.put] at h
    split at h
    · simpa using h
    · split at h
      · rcases List.mem_cons.mp h with h | h
        · exact .inl h
        · exact .inr (List.mem_cons_of_mem _ h)
      · rcases List.mem_cons.mp h with h | h
        · exact .inr (by simp [h])
        · rcases ih h with h | h
          · exact .inl h
          · exact .inr (List.mem_cons_of_mem _ h)

theorem Mem.wf_put (m : List (Nat × Byte)) (k : Nat) (b : Byte) (hb : b ≠ 0) (h : Mem.wf m = true) :
    Mem.wf (Tab.put m k b) = true := by
  rw [Mem.wf_iff] at h ⊢
  refine ⟨fun e he => ?_, ?_⟩
  · rcases Mem.mem_put m k b e he with rfl | he
    · exact hb
    · exact h.1 e he
  · induction m with
    | nil => simp [Tab.put]
    | cons f r ih =>
      have hp := List.pairwise_cons.mp h.2
      simp only [Tab.put]
      split
      · next hk =>
        refine List.pairwise_cons.mpr ⟨fun e he => ?_, h.2⟩
        rcases List.mem_cons.mp he with rfl | he
        · exact hk
        · exact Nat.lt_trans hk (hp.1 e he)
      · split
        · next hk => subst hk; exact List.pairwise_cons.mpr ⟨hp.1, hp.2⟩
        · next h1 h2 =>
          refine List.pairwise_cons.mpr ⟨fun e he => ?_, ih ⟨fun e he => h.1 e (List.mem_cons_of_mem _ he), hp.2⟩⟩
          rcases Mem.mem_put r k b e he with rfl | he
          · simp only; omega
          · exact hp.1 e he

/-- A write keeps the canonical form. -/
theorem Mem.wf_write (m : List (Nat × Byte)) (k : Nat) (b : Byte) (h : Mem.wf m = true) : Mem.wf (Mem.write m k b) = true := by
  unfold Mem.write
  split
  · exact Mem.wf_filter m _ h
  · next hb => exact Mem.wf_put m k b hb h

theorem Mem.wf_writeN (m : List (Nat × Byte)) (k : Nat) (l : List Byte) (h : Mem.wf m = true) :
    Mem.wf (Mem.writeN m k l) = true := by
  induction l generalizing m k with
  | nil => exact h
  | cons b r ih => exact ih _ _ (Mem.wf_write m k b h)

theorem Mem.wf_clear (m : List (Nat × Byte)) (lo n : Nat) (h : Mem.wf m = true) : Mem.wf (Mem.clear m lo n) = true :=
  Mem.wf_filter m _ h

/-- Stores of a list of cells keep the canonical form. -/
theorem Mem.wf_cells (m : List (Nat × Byte)) (l : List (Nat × Byte)) (h : Mem.wf m = true) :
    Mem.wf (l.foldl (fun m e => Mem.write m e.1 e.2) m) = true := by
  induction l generalizing m with
  | nil => exact h
  | cons e r ih => exact ih _ (Mem.wf_write m e.1 e.2 h)

/-- Two canonical memories that read alike are one list. -/
theorem Mem.eq_of_read (m n : List (Nat × Byte)) (hm : Mem.wf m = true) (hn : Mem.wf n = true)
    (h : ∀ k, Mem.read m k = Mem.read n k) : m = n := by
  have low : ∀ (l : List (Nat × Byte)) (k : Nat), (∀ e ∈ l, k < e.1) → Mem.read l k = 0 := by
    intro l k hl
    induction l with
    | nil => rfl
    | cons e r ih =>
      have := hl e (by simp)
      simp only [Mem.read, show k ≠ e.1 by omega, if_false]
      exact ih fun e he => hl e (List.mem_cons_of_mem _ he)
  rw [Mem.wf_iff] at hm hn
  induction m generalizing n with
  | nil =>
    cases n with
    | nil => rfl
    | cons f r =>
      have := h f.1
      simp [Mem.read] at this
      exact absurd this.symm (hn.1 f (by simp))
  | cons e r ih =>
    have he := List.pairwise_cons.mp hm.2
    cases n with
    | nil =>
      have := h e.1
      simp [Mem.read] at this
      exact absurd this (hm.1 e (by simp))
    | cons f q =>
      have hf := List.pairwise_cons.mp hn.2
      have h1 : e.1 = f.1 := by
        rcases Nat.lt_trichotomy e.1 f.1 with c | c | c
        · have := h e.1
          rw [low (f :: q) e.1 (by
            intro x hx
            rcases List.mem_cons.mp hx with rfl | hx
            · exact c
            · exact Nat.lt_trans c (hf.1 x hx))] at this
          simp [Mem.read] at this
          exact absurd this (hm.1 e (by simp))
        · exact c
        · have := h f.1
          rw [low (e :: r) f.1 (by
            intro x hx
            rcases List.mem_cons.mp hx with rfl | hx
            · exact c
            · exact Nat.lt_trans c (he.1 x hx))] at this
          simp [Mem.read] at this
          exact absurd this.symm (hn.1 f (by simp))
      have h2 : e.2 = f.2 := by
        have := h e.1
        simpa [Mem.read, h1] using this
      have h3 : r = q := by
        have k1 : ∀ x ∈ r, x.2 ≠ 0 := fun x hx => hm.1 x (List.mem_cons_of_mem _ hx)
        have k2 : ∀ x ∈ q, x.2 ≠ 0 := fun x hx => hn.1 x (List.mem_cons_of_mem _ hx)
        have k3 : ∀ k, Mem.read r k = Mem.read q k := by
          intro k
          by_cases hk : k = e.1
          · subst hk
            rw [low r e.1 he.1, h1, low q f.1 hf.1]
          · have := h k
            simpa [Mem.read, hk, h1 ▸ hk] using this
        exact ih q ⟨k1, he.2⟩ ⟨k2, hf.2⟩ k3
      exact List.cons_eq_cons.mpr ⟨Prod.ext h1 h2, h3⟩

end Sys2Proof
end

