-- ==== Sys2Proof/Laws/State.lean ====
section
/-! SUPPORT. What each update of State leaves of every other field, and what it makes its own field read. -/

namespace Sys2Proof.Machine

/-! ## setCore -/

@[simp] theorem State.setCore_time (s : State) (n : Nat) (c : Core) : (s.setCore n c).time = s.time := rfl
@[simp] theorem State.setCore_pace (s : State) (n : Nat) (c : Core) : (s.setCore n c).pace = s.pace := rfl
@[simp] theorem State.setCore_hb (s : State) (n : Nat) (c : Core) : (s.setCore n c).hb = s.hb := rfl
@[simp] theorem State.setCore_events (s : State) (n : Nat) (c : Core) : (s.setCore n c).events = s.events := rfl
@[simp] theorem State.setCore_ueEpoch (s : State) (n : Nat) (c : Core) : (s.setCore n c).ueEpoch = s.ueEpoch := rfl
@[simp] theorem State.setCore_errCorr (s : State) (n : Nat) (c : Core) : (s.setCore n c).errCorr = s.errCorr := rfl
@[simp] theorem State.setCore_errFatal (s : State) (n : Nat) (c : Core) : (s.setCore n c).errFatal = s.errFatal := rfl
@[simp] theorem State.setCore_boot (s : State) (n : Nat) (c : Core) : (s.setCore n c).boot = s.boot := rfl
@[simp] theorem State.setCore_rings (s : State) (n : Nat) (c : Core) : (s.setCore n c).rings = s.rings := rfl
@[simp] theorem State.setCore_banks (s : State) (n : Nat) (c : Core) : (s.setCore n c).banks = s.banks := rfl
@[simp] theorem State.setCore_mem (s : State) (n : Nat) (c : Core) : (s.setCore n c).mem = s.mem := rfl
@[simp] theorem State.setCore_memBad (s : State) (n : Nat) (c : Core) : (s.setCore n c).memBad = s.memBad := rfl
@[simp] theorem State.setCore_memStacks (s : State) (n : Nat) (c : Core) : (s.setCore n c).memStacks = s.memStacks := rfl
@[simp] theorem State.setCore_strm (s : State) (n : Nat) (c : Core) : (s.setCore n c).strm = s.strm := rfl
@[simp] theorem State.setCore_drops (s : State) (n : Nat) (c : Core) : (s.setCore n c).drops = s.drops := rfl
@[simp] theorem State.setCore_reports (s : State) (n : Nat) (c : Core) : (s.setCore n c).reports = s.reports := rfl
@[simp] theorem State.setCore_links (s : State) (n : Nat) (c : Core) : (s.setCore n c).links = s.links := rfl
@[simp] theorem State.setCore_admitQueue (s : State) (n : Nat) (c : Core) : (s.setCore n c).admitQueue = s.admitQueue := rfl
@[simp] theorem State.setCore_bankNow (s : State) (n : Nat) (c : Core) : (s.setCore n c).bankNow = s.bankNow := rfl
@[simp] theorem State.setCore_units (s : State) (n : Nat) (c : Core) : (s.setCore n c).units = s.units := rfl
@[simp] theorem State.setCore_awaiting (s : State) (n : Nat) (c : Core) : (s.setCore n c).awaiting = s.awaiting := rfl
@[simp] theorem State.setCore_switchDue (s : State) (n : Nat) (c : Core) : (s.setCore n c).switchDue = s.switchDue := rfl
@[simp] theorem State.setCore_refusing (s : State) (n : Nat) (c : Core) : (s.setCore n c).refusing = s.refusing := rfl
@[simp] theorem State.setCore_stopped (s : State) (n : Nat) (c : Core) : (s.setCore n c).stopped = s.stopped := rfl
@[simp] theorem State.setCore_notices (s : State) (n : Nat) (c : Core) : (s.setCore n c).notices = s.notices := rfl
@[simp] theorem State.setCore_nextNotice (s : State) (n : Nat) (c : Core) : (s.setCore n c).nextNotice = s.nextNotice := rfl
@[simp] theorem State.setCore_wdn (s : State) (n : Nat) (c : Core) : (s.setCore n c).wdn = s.wdn := rfl
@[simp] theorem State.setCore_forwarded (s : State) (n : Nat) (c : Core) : (s.setCore n c).forwarded = s.forwarded := rfl
@[simp] theorem State.setCore_tray (s : State) (n : Nat) (c : Core) : (s.setCore n c).tray = s.tray := rfl
@[simp] theorem State.setCore_free (s : State) (n : Nat) (c : Core) : (s.setCore n c).free = s.free := rfl
@[simp] theorem State.setCore_pending (s : State) (n : Nat) (c : Core) : (s.setCore n c).pending = s.pending := rfl

/-! ## modCore -/

@[simp] theorem State.modCore_time (s : State) (n : Nat) (f : Core → Core) : (s.modCore n f).time = s.time := rfl
@[simp] theorem State.modCore_pace (s : State) (n : Nat) (f : Core → Core) : (s.modCore n f).pace = s.pace := rfl
@[simp] theorem State.modCore_hb (s : State) (n : Nat) (f : Core → Core) : (s.modCore n f).hb = s.hb := rfl
@[simp] theorem State.modCore_events (s : State) (n : Nat) (f : Core → Core) : (s.modCore n f).events = s.events := rfl
@[simp] theorem State.modCore_ueEpoch (s : State) (n : Nat) (f : Core → Core) : (s.modCore n f).ueEpoch = s.ueEpoch := rfl
@[simp] theorem State.modCore_errCorr (s : State) (n : Nat) (f : Core → Core) : (s.modCore n f).errCorr = s.errCorr := rfl
@[simp] theorem State.modCore_errFatal (s : State) (n : Nat) (f : Core → Core) : (s.modCore n f).errFatal = s.errFatal := rfl
@[simp] theorem State.modCore_boot (s : State) (n : Nat) (f : Core → Core) : (s.modCore n f).boot = s.boot := rfl
@[simp] theorem State.modCore_rings (s : State) (n : Nat) (f : Core → Core) : (s.modCore n f).rings = s.rings := rfl
@[simp] theorem State.modCore_banks (s : State) (n : Nat) (f : Core → Core) : (s.modCore n f).banks = s.banks := rfl
@[simp] theorem State.modCore_mem (s : State) (n : Nat) (f : Core → Core) : (s.modCore n f).mem = s.mem := rfl
@[simp] theorem State.modCore_memBad (s : State) (n : Nat) (f : Core → Core) : (s.modCore n f).memBad = s.memBad := rfl
@[simp] theorem State.modCore_memStacks (s : State) (n : Nat) (f : Core → Core) : (s.modCore n f).memStacks = s.memStacks := rfl
@[simp] theorem State.modCore_strm (s : State) (n : Nat) (f : Core → Core) : (s.modCore n f).strm = s.strm := rfl
@[simp] theorem State.modCore_drops (s : State) (n : Nat) (f : Core → Core) : (s.modCore n f).drops = s.drops := rfl
@[simp] theorem State.modCore_reports (s : State) (n : Nat) (f : Core → Core) : (s.modCore n f).reports = s.reports := rfl
@[simp] theorem State.modCore_links (s : State) (n : Nat) (f : Core → Core) : (s.modCore n f).links = s.links := rfl
@[simp] theorem State.modCore_admitQueue (s : State) (n : Nat) (f : Core → Core) : (s.modCore n f).admitQueue = s.admitQueue := rfl
@[simp] theorem State.modCore_bankNow (s : State) (n : Nat) (f : Core → Core) : (s.modCore n f).bankNow = s.bankNow := rfl
@[simp] theorem State.modCore_units (s : State) (n : Nat) (f : Core → Core) : (s.modCore n f).units = s.units := rfl
@[simp] theorem State.modCore_awaiting (s : State) (n : Nat) (f : Core → Core) : (s.modCore n f).awaiting = s.awaiting := rfl
@[simp] theorem State.modCore_switchDue (s : State) (n : Nat) (f : Core → Core) : (s.modCore n f).switchDue = s.switchDue := rfl
@[simp] theorem State.modCore_refusing (s : State) (n : Nat) (f : Core → Core) : (s.modCore n f).refusing = s.refusing := rfl
@[simp] theorem State.modCore_stopped (s : State) (n : Nat) (f : Core → Core) : (s.modCore n f).stopped = s.stopped := rfl
@[simp] theorem State.modCore_notices (s : State) (n : Nat) (f : Core → Core) : (s.modCore n f).notices = s.notices := rfl
@[simp] theorem State.modCore_nextNotice (s : State) (n : Nat) (f : Core → Core) : (s.modCore n f).nextNotice = s.nextNotice := rfl
@[simp] theorem State.modCore_wdn (s : State) (n : Nat) (f : Core → Core) : (s.modCore n f).wdn = s.wdn := rfl
@[simp] theorem State.modCore_forwarded (s : State) (n : Nat) (f : Core → Core) : (s.modCore n f).forwarded = s.forwarded := rfl
@[simp] theorem State.modCore_tray (s : State) (n : Nat) (f : Core → Core) : (s.modCore n f).tray = s.tray := rfl
@[simp] theorem State.modCore_free (s : State) (n : Nat) (f : Core → Core) : (s.modCore n f).free = s.free := rfl
@[simp] theorem State.modCore_pending (s : State) (n : Nat) (f : Core → Core) : (s.modCore n f).pending = s.pending := rfl

/-! ## setThr -/

@[simp] theorem State.setThr_time (s : State) (n : Nat) (t : BitVec 2) (th : Thread) : (s.setThr n t th).time = s.time := rfl
@[simp] theorem State.setThr_pace (s : State) (n : Nat) (t : BitVec 2) (th : Thread) : (s.setThr n t th).pace = s.pace := rfl
@[simp] theorem State.setThr_hb (s : State) (n : Nat) (t : BitVec 2) (th : Thread) : (s.setThr n t th).hb = s.hb := rfl
@[simp] theorem State.setThr_events (s : State) (n : Nat) (t : BitVec 2) (th : Thread) : (s.setThr n t th).events = s.events := rfl
@[simp] theorem State.setThr_ueEpoch (s : State) (n : Nat) (t : BitVec 2) (th : Thread) : (s.setThr n t th).ueEpoch = s.ueEpoch := rfl
@[simp] theorem State.setThr_errCorr (s : State) (n : Nat) (t : BitVec 2) (th : Thread) : (s.setThr n t th).errCorr = s.errCorr := rfl
@[simp] theorem State.setThr_errFatal (s : State) (n : Nat) (t : BitVec 2) (th : Thread) : (s.setThr n t th).errFatal = s.errFatal := rfl
@[simp] theorem State.setThr_boot (s : State) (n : Nat) (t : BitVec 2) (th : Thread) : (s.setThr n t th).boot = s.boot := rfl
@[simp] theorem State.setThr_rings (s : State) (n : Nat) (t : BitVec 2) (th : Thread) : (s.setThr n t th).rings = s.rings := rfl
@[simp] theorem State.setThr_banks (s : State) (n : Nat) (t : BitVec 2) (th : Thread) : (s.setThr n t th).banks = s.banks := rfl
@[simp] theorem State.setThr_mem (s : State) (n : Nat) (t : BitVec 2) (th : Thread) : (s.setThr n t th).mem = s.mem := rfl
@[simp] theorem State.setThr_memBad (s : State) (n : Nat) (t : BitVec 2) (th : Thread) : (s.setThr n t th).memBad = s.memBad := rfl
@[simp] theorem State.setThr_memStacks (s : State) (n : Nat) (t : BitVec 2) (th : Thread) : (s.setThr n t th).memStacks = s.memStacks := rfl
@[simp] theorem State.setThr_strm (s : State) (n : Nat) (t : BitVec 2) (th : Thread) : (s.setThr n t th).strm = s.strm := rfl
@[simp] theorem State.setThr_drops (s : State) (n : Nat) (t : BitVec 2) (th : Thread) : (s.setThr n t th).drops = s.drops := rfl
@[simp] theorem State.setThr_reports (s : State) (n : Nat) (t : BitVec 2) (th : Thread) : (s.setThr n t th).reports = s.reports := rfl
@[simp] theorem State.setThr_links (s : State) (n : Nat) (t : BitVec 2) (th : Thread) : (s.setThr n t th).links = s.links := rfl
@[simp] theorem State.setThr_admitQueue (s : State) (n : Nat) (t : BitVec 2) (th : Thread) : (s.setThr n t th).admitQueue = s.admitQueue := rfl
@[simp] theorem State.setThr_bankNow (s : State) (n : Nat) (t : BitVec 2) (th : Thread) : (s.setThr n t th).bankNow = s.bankNow := rfl
@[simp] theorem State.setThr_units (s : State) (n : Nat) (t : BitVec 2) (th : Thread) : (s.setThr n t th).units = s.units := rfl
@[simp] theorem State.setThr_awaiting (s : State) (n : Nat) (t : BitVec 2) (th : Thread) : (s.setThr n t th).awaiting = s.awaiting := rfl
@[simp] theorem State.setThr_switchDue (s : State) (n : Nat) (t : BitVec 2) (th : Thread) : (s.setThr n t th).switchDue = s.switchDue := rfl
@[simp] theorem State.setThr_refusing (s : State) (n : Nat) (t : BitVec 2) (th : Thread) : (s.setThr n t th).refusing = s.refusing := rfl
@[simp] theorem State.setThr_stopped (s : State) (n : Nat) (t : BitVec 2) (th : Thread) : (s.setThr n t th).stopped = s.stopped := rfl
@[simp] theorem State.setThr_notices (s : State) (n : Nat) (t : BitVec 2) (th : Thread) : (s.setThr n t th).notices = s.notices := rfl
@[simp] theorem State.setThr_nextNotice (s : State) (n : Nat) (t : BitVec 2) (th : Thread) : (s.setThr n t th).nextNotice = s.nextNotice := rfl
@[simp] theorem State.setThr_wdn (s : State) (n : Nat) (t : BitVec 2) (th : Thread) : (s.setThr n t th).wdn = s.wdn := rfl
@[simp] theorem State.setThr_forwarded (s : State) (n : Nat) (t : BitVec 2) (th : Thread) : (s.setThr n t th).forwarded = s.forwarded := rfl
@[simp] theorem State.setThr_tray (s : State) (n : Nat) (t : BitVec 2) (th : Thread) : (s.setThr n t th).tray = s.tray := rfl
@[simp] theorem State.setThr_free (s : State) (n : Nat) (t : BitVec 2) (th : Thread) : (s.setThr n t th).free = s.free := rfl
@[simp] theorem State.setThr_pending (s : State) (n : Nat) (t : BitVec 2) (th : Thread) : (s.setThr n t th).pending = s.pending := rfl

/-! ## modThr -/

@[simp] theorem State.modThr_time (s : State) (n : Nat) (t : BitVec 2) (f : Thread → Thread) : (s.modThr n t f).time = s.time := rfl
@[simp] theorem State.modThr_pace (s : State) (n : Nat) (t : BitVec 2) (f : Thread → Thread) : (s.modThr n t f).pace = s.pace := rfl
@[simp] theorem State.modThr_hb (s : State) (n : Nat) (t : BitVec 2) (f : Thread → Thread) : (s.modThr n t f).hb = s.hb := rfl
@[simp] theorem State.modThr_events (s : State) (n : Nat) (t : BitVec 2) (f : Thread → Thread) : (s.modThr n t f).events = s.events := rfl
@[simp] theorem State.modThr_ueEpoch (s : State) (n : Nat) (t : BitVec 2) (f : Thread → Thread) : (s.modThr n t f).ueEpoch = s.ueEpoch := rfl
@[simp] theorem State.modThr_errCorr (s : State) (n : Nat) (t : BitVec 2) (f : Thread → Thread) : (s.modThr n t f).errCorr = s.errCorr := rfl
@[simp] theorem State.modThr_errFatal (s : State) (n : Nat) (t : BitVec 2) (f : Thread → Thread) : (s.modThr n t f).errFatal = s.errFatal := rfl
@[simp] theorem State.modThr_boot (s : State) (n : Nat) (t : BitVec 2) (f : Thread → Thread) : (s.modThr n t f).boot = s.boot := rfl
@[simp] theorem State.modThr_rings (s : State) (n : Nat) (t : BitVec 2) (f : Thread → Thread) : (s.modThr n t f).rings = s.rings := rfl
@[simp] theorem State.modThr_banks (s : State) (n : Nat) (t : BitVec 2) (f : Thread → Thread) : (s.modThr n t f).banks = s.banks := rfl
@[simp] theorem State.modThr_mem (s : State) (n : Nat) (t : BitVec 2) (f : Thread → Thread) : (s.modThr n t f).mem = s.mem := rfl
@[simp] theorem State.modThr_memBad (s : State) (n : Nat) (t : BitVec 2) (f : Thread → Thread) : (s.modThr n t f).memBad = s.memBad := rfl
@[simp] theorem State.modThr_memStacks (s : State) (n : Nat) (t : BitVec 2) (f : Thread → Thread) : (s.modThr n t f).memStacks = s.memStacks := rfl
@[simp] theorem State.modThr_strm (s : State) (n : Nat) (t : BitVec 2) (f : Thread → Thread) : (s.modThr n t f).strm = s.strm := rfl
@[simp] theorem State.modThr_drops (s : State) (n : Nat) (t : BitVec 2) (f : Thread → Thread) : (s.modThr n t f).drops = s.drops := rfl
@[simp] theorem State.modThr_reports (s : State) (n : Nat) (t : BitVec 2) (f : Thread → Thread) : (s.modThr n t f).reports = s.reports := rfl
@[simp] theorem State.modThr_links (s : State) (n : Nat) (t : BitVec 2) (f : Thread → Thread) : (s.modThr n t f).links = s.links := rfl
@[simp] theorem State.modThr_admitQueue (s : State) (n : Nat) (t : BitVec 2) (f : Thread → Thread) : (s.modThr n t f).admitQueue = s.admitQueue := rfl
@[simp] theorem State.modThr_bankNow (s : State) (n : Nat) (t : BitVec 2) (f : Thread → Thread) : (s.modThr n t f).bankNow = s.bankNow := rfl
@[simp] theorem State.modThr_units (s : State) (n : Nat) (t : BitVec 2) (f : Thread → Thread) : (s.modThr n t f).units = s.units := rfl
@[simp] theorem State.modThr_awaiting (s : State) (n : Nat) (t : BitVec 2) (f : Thread → Thread) : (s.modThr n t f).awaiting = s.awaiting := rfl
@[simp] theorem State.modThr_switchDue (s : State) (n : Nat) (t : BitVec 2) (f : Thread → Thread) : (s.modThr n t f).switchDue = s.switchDue := rfl
@[simp] theorem State.modThr_refusing (s : State) (n : Nat) (t : BitVec 2) (f : Thread → Thread) : (s.modThr n t f).refusing = s.refusing := rfl
@[simp] theorem State.modThr_stopped (s : State) (n : Nat) (t : BitVec 2) (f : Thread → Thread) : (s.modThr n t f).stopped = s.stopped := rfl
@[simp] theorem State.modThr_notices (s : State) (n : Nat) (t : BitVec 2) (f : Thread → Thread) : (s.modThr n t f).notices = s.notices := rfl
@[simp] theorem State.modThr_nextNotice (s : State) (n : Nat) (t : BitVec 2) (f : Thread → Thread) : (s.modThr n t f).nextNotice = s.nextNotice := rfl
@[simp] theorem State.modThr_wdn (s : State) (n : Nat) (t : BitVec 2) (f : Thread → Thread) : (s.modThr n t f).wdn = s.wdn := rfl
@[simp] theorem State.modThr_forwarded (s : State) (n : Nat) (t : BitVec 2) (f : Thread → Thread) : (s.modThr n t f).forwarded = s.forwarded := rfl
@[simp] theorem State.modThr_tray (s : State) (n : Nat) (t : BitVec 2) (f : Thread → Thread) : (s.modThr n t f).tray = s.tray := rfl
@[simp] theorem State.modThr_free (s : State) (n : Nat) (t : BitVec 2) (f : Thread → Thread) : (s.modThr n t f).free = s.free := rfl
@[simp] theorem State.modThr_pending (s : State) (n : Nat) (t : BitVec 2) (f : Thread → Thread) : (s.modThr n t f).pending = s.pending := rfl

/-! ## modMreg -/

@[simp] theorem State.modMreg_time (s : State) (n : Nat) (r : BitVec 4) (f : MReg → MReg) : (s.modMreg n r f).time = s.time := rfl
@[simp] theorem State.modMreg_pace (s : State) (n : Nat) (r : BitVec 4) (f : MReg → MReg) : (s.modMreg n r f).pace = s.pace := rfl
@[simp] theorem State.modMreg_hb (s : State) (n : Nat) (r : BitVec 4) (f : MReg → MReg) : (s.modMreg n r f).hb = s.hb := rfl
@[simp] theorem State.modMreg_events (s : State) (n : Nat) (r : BitVec 4) (f : MReg → MReg) : (s.modMreg n r f).events = s.events := rfl
@[simp] theorem State.modMreg_ueEpoch (s : State) (n : Nat) (r : BitVec 4) (f : MReg → MReg) : (s.modMreg n r f).ueEpoch = s.ueEpoch := rfl
@[simp] theorem State.modMreg_errCorr (s : State) (n : Nat) (r : BitVec 4) (f : MReg → MReg) : (s.modMreg n r f).errCorr = s.errCorr := rfl
@[simp] theorem State.modMreg_errFatal (s : State) (n : Nat) (r : BitVec 4) (f : MReg → MReg) : (s.modMreg n r f).errFatal = s.errFatal := rfl
@[simp] theorem State.modMreg_boot (s : State) (n : Nat) (r : BitVec 4) (f : MReg → MReg) : (s.modMreg n r f).boot = s.boot := rfl
@[simp] theorem State.modMreg_rings (s : State) (n : Nat) (r : BitVec 4) (f : MReg → MReg) : (s.modMreg n r f).rings = s.rings := rfl
@[simp] theorem State.modMreg_banks (s : State) (n : Nat) (r : BitVec 4) (f : MReg → MReg) : (s.modMreg n r f).banks = s.banks := rfl
@[simp] theorem State.modMreg_mem (s : State) (n : Nat) (r : BitVec 4) (f : MReg → MReg) : (s.modMreg n r f).mem = s.mem := rfl
@[simp] theorem State.modMreg_memBad (s : State) (n : Nat) (r : BitVec 4) (f : MReg → MReg) : (s.modMreg n r f).memBad = s.memBad := rfl
@[simp] theorem State.modMreg_memStacks (s : State) (n : Nat) (r : BitVec 4) (f : MReg → MReg) : (s.modMreg n r f).memStacks = s.memStacks := rfl
@[simp] theorem State.modMreg_strm (s : State) (n : Nat) (r : BitVec 4) (f : MReg → MReg) : (s.modMreg n r f).strm = s.strm := rfl
@[simp] theorem State.modMreg_drops (s : State) (n : Nat) (r : BitVec 4) (f : MReg → MReg) : (s.modMreg n r f).drops = s.drops := rfl
@[simp] theorem State.modMreg_reports (s : State) (n : Nat) (r : BitVec 4) (f : MReg → MReg) : (s.modMreg n r f).reports = s.reports := rfl
@[simp] theorem State.modMreg_links (s : State) (n : Nat) (r : BitVec 4) (f : MReg → MReg) : (s.modMreg n r f).links = s.links := rfl
@[simp] theorem State.modMreg_admitQueue (s : State) (n : Nat) (r : BitVec 4) (f : MReg → MReg) : (s.modMreg n r f).admitQueue = s.admitQueue := rfl
@[simp] theorem State.modMreg_bankNow (s : State) (n : Nat) (r : BitVec 4) (f : MReg → MReg) : (s.modMreg n r f).bankNow = s.bankNow := rfl
@[simp] theorem State.modMreg_units (s : State) (n : Nat) (r : BitVec 4) (f : MReg → MReg) : (s.modMreg n r f).units = s.units := rfl
@[simp] theorem State.modMreg_awaiting (s : State) (n : Nat) (r : BitVec 4) (f : MReg → MReg) : (s.modMreg n r f).awaiting = s.awaiting := rfl
@[simp] theorem State.modMreg_switchDue (s : State) (n : Nat) (r : BitVec 4) (f : MReg → MReg) : (s.modMreg n r f).switchDue = s.switchDue := rfl
@[simp] theorem State.modMreg_refusing (s : State) (n : Nat) (r : BitVec 4) (f : MReg → MReg) : (s.modMreg n r f).refusing = s.refusing := rfl
@[simp] theorem State.modMreg_stopped (s : State) (n : Nat) (r : BitVec 4) (f : MReg → MReg) : (s.modMreg n r f).stopped = s.stopped := rfl
@[simp] theorem State.modMreg_notices (s : State) (n : Nat) (r : BitVec 4) (f : MReg → MReg) : (s.modMreg n r f).notices = s.notices := rfl
@[simp] theorem State.modMreg_nextNotice (s : State) (n : Nat) (r : BitVec 4) (f : MReg → MReg) : (s.modMreg n r f).nextNotice = s.nextNotice := rfl
@[simp] theorem State.modMreg_wdn (s : State) (n : Nat) (r : BitVec 4) (f : MReg → MReg) : (s.modMreg n r f).wdn = s.wdn := rfl
@[simp] theorem State.modMreg_forwarded (s : State) (n : Nat) (r : BitVec 4) (f : MReg → MReg) : (s.modMreg n r f).forwarded = s.forwarded := rfl
@[simp] theorem State.modMreg_tray (s : State) (n : Nat) (r : BitVec 4) (f : MReg → MReg) : (s.modMreg n r f).tray = s.tray := rfl
@[simp] theorem State.modMreg_free (s : State) (n : Nat) (r : BitVec 4) (f : MReg → MReg) : (s.modMreg n r f).free = s.free := rfl
@[simp] theorem State.modMreg_pending (s : State) (n : Nat) (r : BitVec 4) (f : MReg → MReg) : (s.modMreg n r f).pending = s.pending := rfl

/-! ## setLink -/

@[simp] theorem State.setLink_time (s : State) (k : Nat) (l : Link) : (s.setLink k l).time = s.time := rfl
@[simp] theorem State.setLink_pace (s : State) (k : Nat) (l : Link) : (s.setLink k l).pace = s.pace := rfl
@[simp] theorem State.setLink_hb (s : State) (k : Nat) (l : Link) : (s.setLink k l).hb = s.hb := rfl
@[simp] theorem State.setLink_events (s : State) (k : Nat) (l : Link) : (s.setLink k l).events = s.events := rfl
@[simp] theorem State.setLink_ueEpoch (s : State) (k : Nat) (l : Link) : (s.setLink k l).ueEpoch = s.ueEpoch := rfl
@[simp] theorem State.setLink_errCorr (s : State) (k : Nat) (l : Link) : (s.setLink k l).errCorr = s.errCorr := rfl
@[simp] theorem State.setLink_errFatal (s : State) (k : Nat) (l : Link) : (s.setLink k l).errFatal = s.errFatal := rfl
@[simp] theorem State.setLink_cores (s : State) (k : Nat) (l : Link) : (s.setLink k l).cores = s.cores := rfl
@[simp] theorem State.setLink_boot (s : State) (k : Nat) (l : Link) : (s.setLink k l).boot = s.boot := rfl
@[simp] theorem State.setLink_rings (s : State) (k : Nat) (l : Link) : (s.setLink k l).rings = s.rings := rfl
@[simp] theorem State.setLink_banks (s : State) (k : Nat) (l : Link) : (s.setLink k l).banks = s.banks := rfl
@[simp] theorem State.setLink_mem (s : State) (k : Nat) (l : Link) : (s.setLink k l).mem = s.mem := rfl
@[simp] theorem State.setLink_memBad (s : State) (k : Nat) (l : Link) : (s.setLink k l).memBad = s.memBad := rfl
@[simp] theorem State.setLink_memStacks (s : State) (k : Nat) (l : Link) : (s.setLink k l).memStacks = s.memStacks := rfl
@[simp] theorem State.setLink_strm (s : State) (k : Nat) (l : Link) : (s.setLink k l).strm = s.strm := rfl
@[simp] theorem State.setLink_drops (s : State) (k : Nat) (l : Link) : (s.setLink k l).drops = s.drops := rfl
@[simp] theorem State.setLink_reports (s : State) (k : Nat) (l : Link) : (s.setLink k l).reports = s.reports := rfl
@[simp] theorem State.setLink_admitQueue (s : State) (k : Nat) (l : Link) : (s.setLink k l).admitQueue = s.admitQueue := rfl
@[simp] theorem State.setLink_bankNow (s : State) (k : Nat) (l : Link) : (s.setLink k l).bankNow = s.bankNow := rfl
@[simp] theorem State.setLink_units (s : State) (k : Nat) (l : Link) : (s.setLink k l).units = s.units := rfl
@[simp] theorem State.setLink_awaiting (s : State) (k : Nat) (l : Link) : (s.setLink k l).awaiting = s.awaiting := rfl
@[simp] theorem State.setLink_switchDue (s : State) (k : Nat) (l : Link) : (s.setLink k l).switchDue = s.switchDue := rfl
@[simp] theorem State.setLink_refusing (s : State) (k : Nat) (l : Link) : (s.setLink k l).refusing = s.refusing := rfl
@[simp] theorem State.setLink_stopped (s : State) (k : Nat) (l : Link) : (s.setLink k l).stopped = s.stopped := rfl
@[simp] theorem State.setLink_notices (s : State) (k : Nat) (l : Link) : (s.setLink k l).notices = s.notices := rfl
@[simp] theorem State.setLink_nextNotice (s : State) (k : Nat) (l : Link) : (s.setLink k l).nextNotice = s.nextNotice := rfl
@[simp] theorem State.setLink_wdn (s : State) (k : Nat) (l : Link) : (s.setLink k l).wdn = s.wdn := rfl
@[simp] theorem State.setLink_forwarded (s : State) (k : Nat) (l : Link) : (s.setLink k l).forwarded = s.forwarded := rfl
@[simp] theorem State.setLink_tray (s : State) (k : Nat) (l : Link) : (s.setLink k l).tray = s.tray := rfl
@[simp] theorem State.setLink_free (s : State) (k : Nat) (l : Link) : (s.setLink k l).free = s.free := rfl
@[simp] theorem State.setLink_pending (s : State) (k : Nat) (l : Link) : (s.setLink k l).pending = s.pending := rfl

/-! ## modLink -/

@[simp] theorem State.modLink_time (s : State) (k : Nat) (f : Link → Link) : (s.modLink k f).time = s.time := rfl
@[simp] theorem State.modLink_pace (s : State) (k : Nat) (f : Link → Link) : (s.modLink k f).pace = s.pace := rfl
@[simp] theorem State.modLink_hb (s : State) (k : Nat) (f : Link → Link) : (s.modLink k f).hb = s.hb := rfl
@[simp] theorem State.modLink_events (s : State) (k : Nat) (f : Link → Link) : (s.modLink k f).events = s.events := rfl
@[simp] theorem State.modLink_ueEpoch (s : State) (k : Nat) (f : Link → Link) : (s.modLink k f).ueEpoch = s.ueEpoch := rfl
@[simp] theorem State.modLink_errCorr (s : State) (k : Nat) (f : Link → Link) : (s.modLink k f).errCorr = s.errCorr := rfl
@[simp] theorem State.modLink_errFatal (s : State) (k : Nat) (f : Link → Link) : (s.modLink k f).errFatal = s.errFatal := rfl
@[simp] theorem State.modLink_cores (s : State) (k : Nat) (f : Link → Link) : (s.modLink k f).cores = s.cores := rfl
@[simp] theorem State.modLink_boot (s : State) (k : Nat) (f : Link → Link) : (s.modLink k f).boot = s.boot := rfl
@[simp] theorem State.modLink_rings (s : State) (k : Nat) (f : Link → Link) : (s.modLink k f).rings = s.rings := rfl
@[simp] theorem State.modLink_banks (s : State) (k : Nat) (f : Link → Link) : (s.modLink k f).banks = s.banks := rfl
@[simp] theorem State.modLink_mem (s : State) (k : Nat) (f : Link → Link) : (s.modLink k f).mem = s.mem := rfl
@[simp] theorem State.modLink_memBad (s : State) (k : Nat) (f : Link → Link) : (s.modLink k f).memBad = s.memBad := rfl
@[simp] theorem State.modLink_memStacks (s : State) (k : Nat) (f : Link → Link) : (s.modLink k f).memStacks = s.memStacks := rfl
@[simp] theorem State.modLink_strm (s : State) (k : Nat) (f : Link → Link) : (s.modLink k f).strm = s.strm := rfl
@[simp] theorem State.modLink_drops (s : State) (k : Nat) (f : Link → Link) : (s.modLink k f).drops = s.drops := rfl
@[simp] theorem State.modLink_reports (s : State) (k : Nat) (f : Link → Link) : (s.modLink k f).reports = s.reports := rfl
@[simp] theorem State.modLink_admitQueue (s : State) (k : Nat) (f : Link → Link) : (s.modLink k f).admitQueue = s.admitQueue := rfl
@[simp] theorem State.modLink_bankNow (s : State) (k : Nat) (f : Link → Link) : (s.modLink k f).bankNow = s.bankNow := rfl
@[simp] theorem State.modLink_units (s : State) (k : Nat) (f : Link → Link) : (s.modLink k f).units = s.units := rfl
@[simp] theorem State.modLink_awaiting (s : State) (k : Nat) (f : Link → Link) : (s.modLink k f).awaiting = s.awaiting := rfl
@[simp] theorem State.modLink_switchDue (s : State) (k : Nat) (f : Link → Link) : (s.modLink k f).switchDue = s.switchDue := rfl
@[simp] theorem State.modLink_refusing (s : State) (k : Nat) (f : Link → Link) : (s.modLink k f).refusing = s.refusing := rfl
@[simp] theorem State.modLink_stopped (s : State) (k : Nat) (f : Link → Link) : (s.modLink k f).stopped = s.stopped := rfl
@[simp] theorem State.modLink_notices (s : State) (k : Nat) (f : Link → Link) : (s.modLink k f).notices = s.notices := rfl
@[simp] theorem State.modLink_nextNotice (s : State) (k : Nat) (f : Link → Link) : (s.modLink k f).nextNotice = s.nextNotice := rfl
@[simp] theorem State.modLink_wdn (s : State) (k : Nat) (f : Link → Link) : (s.modLink k f).wdn = s.wdn := rfl
@[simp] theorem State.modLink_forwarded (s : State) (k : Nat) (f : Link → Link) : (s.modLink k f).forwarded = s.forwarded := rfl
@[simp] theorem State.modLink_tray (s : State) (k : Nat) (f : Link → Link) : (s.modLink k f).tray = s.tray := rfl
@[simp] theorem State.modLink_free (s : State) (k : Nat) (f : Link → Link) : (s.modLink k f).free = s.free := rfl
@[simp] theorem State.modLink_pending (s : State) (k : Nat) (f : Link → Link) : (s.modLink k f).pending = s.pending := rfl

/-! ## modSess -/

@[simp] theorem State.modSess_time (s : State) (k : Nat) (f : Sess → Sess) : (s.modSess k f).time = s.time := rfl
@[simp] theorem State.modSess_pace (s : State) (k : Nat) (f : Sess → Sess) : (s.modSess k f).pace = s.pace := rfl
@[simp] theorem State.modSess_hb (s : State) (k : Nat) (f : Sess → Sess) : (s.modSess k f).hb = s.hb := rfl
@[simp] theorem State.modSess_events (s : State) (k : Nat) (f : Sess → Sess) : (s.modSess k f).events = s.events := rfl
@[simp] theorem State.modSess_ueEpoch (s : State) (k : Nat) (f : Sess → Sess) : (s.modSess k f).ueEpoch = s.ueEpoch := rfl
@[simp] theorem State.modSess_errCorr (s : State) (k : Nat) (f : Sess → Sess) : (s.modSess k f).errCorr = s.errCorr := rfl
@[simp] theorem State.modSess_errFatal (s : State) (k : Nat) (f : Sess → Sess) : (s.modSess k f).errFatal = s.errFatal := rfl
@[simp] theorem State.modSess_cores (s : State) (k : Nat) (f : Sess → Sess) : (s.modSess k f).cores = s.cores := rfl
@[simp] theorem State.modSess_boot (s : State) (k : Nat) (f : Sess → Sess) : (s.modSess k f).boot = s.boot := rfl
@[simp] theorem State.modSess_rings (s : State) (k : Nat) (f : Sess → Sess) : (s.modSess k f).rings = s.rings := rfl
@[simp] theorem State.modSess_banks (s : State) (k : Nat) (f : Sess → Sess) : (s.modSess k f).banks = s.banks := rfl
@[simp] theorem State.modSess_mem (s : State) (k : Nat) (f : Sess → Sess) : (s.modSess k f).mem = s.mem := rfl
@[simp] theorem State.modSess_memBad (s : State) (k : Nat) (f : Sess → Sess) : (s.modSess k f).memBad = s.memBad := rfl
@[simp] theorem State.modSess_memStacks (s : State) (k : Nat) (f : Sess → Sess) : (s.modSess k f).memStacks = s.memStacks := rfl
@[simp] theorem State.modSess_strm (s : State) (k : Nat) (f : Sess → Sess) : (s.modSess k f).strm = s.strm := rfl
@[simp] theorem State.modSess_drops (s : State) (k : Nat) (f : Sess → Sess) : (s.modSess k f).drops = s.drops := rfl
@[simp] theorem State.modSess_reports (s : State) (k : Nat) (f : Sess → Sess) : (s.modSess k f).reports = s.reports := rfl
@[simp] theorem State.modSess_admitQueue (s : State) (k : Nat) (f : Sess → Sess) : (s.modSess k f).admitQueue = s.admitQueue := rfl
@[simp] theorem State.modSess_bankNow (s : State) (k : Nat) (f : Sess → Sess) : (s.modSess k f).bankNow = s.bankNow := rfl
@[simp] theorem State.modSess_units (s : State) (k : Nat) (f : Sess → Sess) : (s.modSess k f).units = s.units := rfl
@[simp] theorem State.modSess_awaiting (s : State) (k : Nat) (f : Sess → Sess) : (s.modSess k f).awaiting = s.awaiting := rfl
@[simp] theorem State.modSess_switchDue (s : State) (k : Nat) (f : Sess → Sess) : (s.modSess k f).switchDue = s.switchDue := rfl
@[simp] theorem State.modSess_refusing (s : State) (k : Nat) (f : Sess → Sess) : (s.modSess k f).refusing = s.refusing := rfl
@[simp] theorem State.modSess_stopped (s : State) (k : Nat) (f : Sess → Sess) : (s.modSess k f).stopped = s.stopped := rfl
@[simp] theorem State.modSess_notices (s : State) (k : Nat) (f : Sess → Sess) : (s.modSess k f).notices = s.notices := rfl
@[simp] theorem State.modSess_nextNotice (s : State) (k : Nat) (f : Sess → Sess) : (s.modSess k f).nextNotice = s.nextNotice := rfl
@[simp] theorem State.modSess_wdn (s : State) (k : Nat) (f : Sess → Sess) : (s.modSess k f).wdn = s.wdn := rfl
@[simp] theorem State.modSess_forwarded (s : State) (k : Nat) (f : Sess → Sess) : (s.modSess k f).forwarded = s.forwarded := rfl
@[simp] theorem State.modSess_tray (s : State) (k : Nat) (f : Sess → Sess) : (s.modSess k f).tray = s.tray := rfl
@[simp] theorem State.modSess_free (s : State) (k : Nat) (f : Sess → Sess) : (s.modSess k f).free = s.free := rfl
@[simp] theorem State.modSess_pending (s : State) (k : Nat) (f : Sess → Sess) : (s.modSess k f).pending = s.pending := rfl

/-! ## modStack -/

@[simp] theorem State.modStack_time (s : State) (k : Nat) (f : Stack → Stack) : (s.modStack k f).time = s.time := rfl
@[simp] theorem State.modStack_pace (s : State) (k : Nat) (f : Stack → Stack) : (s.modStack k f).pace = s.pace := rfl
@[simp] theorem State.modStack_hb (s : State) (k : Nat) (f : Stack → Stack) : (s.modStack k f).hb = s.hb := rfl
@[simp] theorem State.modStack_events (s : State) (k : Nat) (f : Stack → Stack) : (s.modStack k f).events = s.events := rfl
@[simp] theorem State.modStack_ueEpoch (s : State) (k : Nat) (f : Stack → Stack) : (s.modStack k f).ueEpoch = s.ueEpoch := rfl
@[simp] theorem State.modStack_errCorr (s : State) (k : Nat) (f : Stack → Stack) : (s.modStack k f).errCorr = s.errCorr := rfl
@[simp] theorem State.modStack_errFatal (s : State) (k : Nat) (f : Stack → Stack) : (s.modStack k f).errFatal = s.errFatal := rfl
@[simp] theorem State.modStack_cores (s : State) (k : Nat) (f : Stack → Stack) : (s.modStack k f).cores = s.cores := rfl
@[simp] theorem State.modStack_boot (s : State) (k : Nat) (f : Stack → Stack) : (s.modStack k f).boot = s.boot := rfl
@[simp] theorem State.modStack_rings (s : State) (k : Nat) (f : Stack → Stack) : (s.modStack k f).rings = s.rings := rfl
@[simp] theorem State.modStack_banks (s : State) (k : Nat) (f : Stack → Stack) : (s.modStack k f).banks = s.banks := rfl
@[simp] theorem State.modStack_mem (s : State) (k : Nat) (f : Stack → Stack) : (s.modStack k f).mem = s.mem := rfl
@[simp] theorem State.modStack_memBad (s : State) (k : Nat) (f : Stack → Stack) : (s.modStack k f).memBad = s.memBad := rfl
@[simp] theorem State.modStack_strm (s : State) (k : Nat) (f : Stack → Stack) : (s.modStack k f).strm = s.strm := rfl
@[simp] theorem State.modStack_drops (s : State) (k : Nat) (f : Stack → Stack) : (s.modStack k f).drops = s.drops := rfl
@[simp] theorem State.modStack_reports (s : State) (k : Nat) (f : Stack → Stack) : (s.modStack k f).reports = s.reports := rfl
@[simp] theorem State.modStack_links (s : State) (k : Nat) (f : Stack → Stack) : (s.modStack k f).links = s.links := rfl
@[simp] theorem State.modStack_admitQueue (s : State) (k : Nat) (f : Stack → Stack) : (s.modStack k f).admitQueue = s.admitQueue := rfl
@[simp] theorem State.modStack_bankNow (s : State) (k : Nat) (f : Stack → Stack) : (s.modStack k f).bankNow = s.bankNow := rfl
@[simp] theorem State.modStack_units (s : State) (k : Nat) (f : Stack → Stack) : (s.modStack k f).units = s.units := rfl
@[simp] theorem State.modStack_awaiting (s : State) (k : Nat) (f : Stack → Stack) : (s.modStack k f).awaiting = s.awaiting := rfl
@[simp] theorem State.modStack_switchDue (s : State) (k : Nat) (f : Stack → Stack) : (s.modStack k f).switchDue = s.switchDue := rfl
@[simp] theorem State.modStack_refusing (s : State) (k : Nat) (f : Stack → Stack) : (s.modStack k f).refusing = s.refusing := rfl
@[simp] theorem State.modStack_stopped (s : State) (k : Nat) (f : Stack → Stack) : (s.modStack k f).stopped = s.stopped := rfl
@[simp] theorem State.modStack_notices (s : State) (k : Nat) (f : Stack → Stack) : (s.modStack k f).notices = s.notices := rfl
@[simp] theorem State.modStack_nextNotice (s : State) (k : Nat) (f : Stack → Stack) : (s.modStack k f).nextNotice = s.nextNotice := rfl
@[simp] theorem State.modStack_wdn (s : State) (k : Nat) (f : Stack → Stack) : (s.modStack k f).wdn = s.wdn := rfl
@[simp] theorem State.modStack_forwarded (s : State) (k : Nat) (f : Stack → Stack) : (s.modStack k f).forwarded = s.forwarded := rfl
@[simp] theorem State.modStack_tray (s : State) (k : Nat) (f : Stack → Stack) : (s.modStack k f).tray = s.tray := rfl
@[simp] theorem State.modStack_free (s : State) (k : Nat) (f : Stack → Stack) : (s.modStack k f).free = s.free := rfl
@[simp] theorem State.modStack_pending (s : State) (k : Nat) (f : Stack → Stack) : (s.modStack k f).pending = s.pending := rfl

/-! ## modChan -/

@[simp] theorem State.modChan_time (s : State) (k c : Nat) (f : Chan → Chan) : (s.modChan k c f).time = s.time := rfl
@[simp] theorem State.modChan_pace (s : State) (k c : Nat) (f : Chan → Chan) : (s.modChan k c f).pace = s.pace := rfl
@[simp] theorem State.modChan_hb (s : State) (k c : Nat) (f : Chan → Chan) : (s.modChan k c f).hb = s.hb := rfl
@[simp] theorem State.modChan_events (s : State) (k c : Nat) (f : Chan → Chan) : (s.modChan k c f).events = s.events := rfl
@[simp] theorem State.modChan_ueEpoch (s : State) (k c : Nat) (f : Chan → Chan) : (s.modChan k c f).ueEpoch = s.ueEpoch := rfl
@[simp] theorem State.modChan_errCorr (s : State) (k c : Nat) (f : Chan → Chan) : (s.modChan k c f).errCorr = s.errCorr := rfl
@[simp] theorem State.modChan_errFatal (s : State) (k c : Nat) (f : Chan → Chan) : (s.modChan k c f).errFatal = s.errFatal := rfl
@[simp] theorem State.modChan_cores (s : State) (k c : Nat) (f : Chan → Chan) : (s.modChan k c f).cores = s.cores := rfl
@[simp] theorem State.modChan_boot (s : State) (k c : Nat) (f : Chan → Chan) : (s.modChan k c f).boot = s.boot := rfl
@[simp] theorem State.modChan_rings (s : State) (k c : Nat) (f : Chan → Chan) : (s.modChan k c f).rings = s.rings := rfl
@[simp] theorem State.modChan_banks (s : State) (k c : Nat) (f : Chan → Chan) : (s.modChan k c f).banks = s.banks := rfl
@[simp] theorem State.modChan_mem (s : State) (k c : Nat) (f : Chan → Chan) : (s.modChan k c f).mem = s.mem := rfl
@[simp] theorem State.modChan_memBad (s : State) (k c : Nat) (f : Chan → Chan) : (s.modChan k c f).memBad = s.memBad := rfl
@[simp] theorem State.modChan_strm (s : State) (k c : Nat) (f : Chan → Chan) : (s.modChan k c f).strm = s.strm := rfl
@[simp] theorem State.modChan_drops (s : State) (k c : Nat) (f : Chan → Chan) : (s.modChan k c f).drops = s.drops := rfl
@[simp] theorem State.modChan_reports (s : State) (k c : Nat) (f : Chan → Chan) : (s.modChan k c f).reports = s.reports := rfl
@[simp] theorem State.modChan_links (s : State) (k c : Nat) (f : Chan → Chan) : (s.modChan k c f).links = s.links := rfl
@[simp] theorem State.modChan_admitQueue (s : State) (k c : Nat) (f : Chan → Chan) : (s.modChan k c f).admitQueue = s.admitQueue := rfl
@[simp] theorem State.modChan_bankNow (s : State) (k c : Nat) (f : Chan → Chan) : (s.modChan k c f).bankNow = s.bankNow := rfl
@[simp] theorem State.modChan_units (s : State) (k c : Nat) (f : Chan → Chan) : (s.modChan k c f).units = s.units := rfl
@[simp] theorem State.modChan_awaiting (s : State) (k c : Nat) (f : Chan → Chan) : (s.modChan k c f).awaiting = s.awaiting := rfl
@[simp] theorem State.modChan_switchDue (s : State) (k c : Nat) (f : Chan → Chan) : (s.modChan k c f).switchDue = s.switchDue := rfl
@[simp] theorem State.modChan_refusing (s : State) (k c : Nat) (f : Chan → Chan) : (s.modChan k c f).refusing = s.refusing := rfl
@[simp] theorem State.modChan_stopped (s : State) (k c : Nat) (f : Chan → Chan) : (s.modChan k c f).stopped = s.stopped := rfl
@[simp] theorem State.modChan_notices (s : State) (k c : Nat) (f : Chan → Chan) : (s.modChan k c f).notices = s.notices := rfl
@[simp] theorem State.modChan_nextNotice (s : State) (k c : Nat) (f : Chan → Chan) : (s.modChan k c f).nextNotice = s.nextNotice := rfl
@[simp] theorem State.modChan_wdn (s : State) (k c : Nat) (f : Chan → Chan) : (s.modChan k c f).wdn = s.wdn := rfl
@[simp] theorem State.modChan_forwarded (s : State) (k c : Nat) (f : Chan → Chan) : (s.modChan k c f).forwarded = s.forwarded := rfl
@[simp] theorem State.modChan_tray (s : State) (k c : Nat) (f : Chan → Chan) : (s.modChan k c f).tray = s.tray := rfl
@[simp] theorem State.modChan_free (s : State) (k c : Nat) (f : Chan → Chan) : (s.modChan k c f).free = s.free := rfl
@[simp] theorem State.modChan_pending (s : State) (k c : Nat) (f : Chan → Chan) : (s.modChan k c f).pending = s.pending := rfl

/-! ## putDesc -/

@[simp] theorem State.putDesc_time (s : State) (id : Nat) (d : List Byte) : (s.putDesc id d).time = s.time := rfl
@[simp] theorem State.putDesc_pace (s : State) (id : Nat) (d : List Byte) : (s.putDesc id d).pace = s.pace := rfl
@[simp] theorem State.putDesc_hb (s : State) (id : Nat) (d : List Byte) : (s.putDesc id d).hb = s.hb := rfl
@[simp] theorem State.putDesc_events (s : State) (id : Nat) (d : List Byte) : (s.putDesc id d).events = s.events := rfl
@[simp] theorem State.putDesc_ueEpoch (s : State) (id : Nat) (d : List Byte) : (s.putDesc id d).ueEpoch = s.ueEpoch := rfl
@[simp] theorem State.putDesc_errCorr (s : State) (id : Nat) (d : List Byte) : (s.putDesc id d).errCorr = s.errCorr := rfl
@[simp] theorem State.putDesc_errFatal (s : State) (id : Nat) (d : List Byte) : (s.putDesc id d).errFatal = s.errFatal := rfl
@[simp] theorem State.putDesc_cores (s : State) (id : Nat) (d : List Byte) : (s.putDesc id d).cores = s.cores := rfl
@[simp] theorem State.putDesc_boot (s : State) (id : Nat) (d : List Byte) : (s.putDesc id d).boot = s.boot := rfl
@[simp] theorem State.putDesc_rings (s : State) (id : Nat) (d : List Byte) : (s.putDesc id d).rings = s.rings := rfl
@[simp] theorem State.putDesc_banks (s : State) (id : Nat) (d : List Byte) : (s.putDesc id d).banks = s.banks := rfl
@[simp] theorem State.putDesc_mem (s : State) (id : Nat) (d : List Byte) : (s.putDesc id d).mem = s.mem := rfl
@[simp] theorem State.putDesc_memBad (s : State) (id : Nat) (d : List Byte) : (s.putDesc id d).memBad = s.memBad := rfl
@[simp] theorem State.putDesc_strm (s : State) (id : Nat) (d : List Byte) : (s.putDesc id d).strm = s.strm := rfl
@[simp] theorem State.putDesc_drops (s : State) (id : Nat) (d : List Byte) : (s.putDesc id d).drops = s.drops := rfl
@[simp] theorem State.putDesc_reports (s : State) (id : Nat) (d : List Byte) : (s.putDesc id d).reports = s.reports := rfl
@[simp] theorem State.putDesc_links (s : State) (id : Nat) (d : List Byte) : (s.putDesc id d).links = s.links := rfl
@[simp] theorem State.putDesc_admitQueue (s : State) (id : Nat) (d : List Byte) : (s.putDesc id d).admitQueue = s.admitQueue := rfl
@[simp] theorem State.putDesc_bankNow (s : State) (id : Nat) (d : List Byte) : (s.putDesc id d).bankNow = s.bankNow := rfl
@[simp] theorem State.putDesc_units (s : State) (id : Nat) (d : List Byte) : (s.putDesc id d).units = s.units := rfl
@[simp] theorem State.putDesc_awaiting (s : State) (id : Nat) (d : List Byte) : (s.putDesc id d).awaiting = s.awaiting := rfl
@[simp] theorem State.putDesc_switchDue (s : State) (id : Nat) (d : List Byte) : (s.putDesc id d).switchDue = s.switchDue := rfl
@[simp] theorem State.putDesc_refusing (s : State) (id : Nat) (d : List Byte) : (s.putDesc id d).refusing = s.refusing := rfl
@[simp] theorem State.putDesc_stopped (s : State) (id : Nat) (d : List Byte) : (s.putDesc id d).stopped = s.stopped := rfl
@[simp] theorem State.putDesc_notices (s : State) (id : Nat) (d : List Byte) : (s.putDesc id d).notices = s.notices := rfl
@[simp] theorem State.putDesc_nextNotice (s : State) (id : Nat) (d : List Byte) : (s.putDesc id d).nextNotice = s.nextNotice := rfl
@[simp] theorem State.putDesc_wdn (s : State) (id : Nat) (d : List Byte) : (s.putDesc id d).wdn = s.wdn := rfl
@[simp] theorem State.putDesc_forwarded (s : State) (id : Nat) (d : List Byte) : (s.putDesc id d).forwarded = s.forwarded := rfl
@[simp] theorem State.putDesc_tray (s : State) (id : Nat) (d : List Byte) : (s.putDesc id d).tray = s.tray := rfl
@[simp] theorem State.putDesc_free (s : State) (id : Nat) (d : List Byte) : (s.putDesc id d).free = s.free := rfl
@[simp] theorem State.putDesc_pending (s : State) (id : Nat) (d : List Byte) : (s.putDesc id d).pending = s.pending := rfl

/-! ## modTime -/

@[simp] theorem State.modTime_pace (s : State) (f : TimeState → TimeState) : (s.modTime f).pace = s.pace := rfl
@[simp] theorem State.modTime_hb (s : State) (f : TimeState → TimeState) : (s.modTime f).hb = s.hb := rfl
@[simp] theorem State.modTime_events (s : State) (f : TimeState → TimeState) : (s.modTime f).events = s.events := rfl
@[simp] theorem State.modTime_ueEpoch (s : State) (f : TimeState → TimeState) : (s.modTime f).ueEpoch = s.ueEpoch := rfl
@[simp] theorem State.modTime_errCorr (s : State) (f : TimeState → TimeState) : (s.modTime f).errCorr = s.errCorr := rfl
@[simp] theorem State.modTime_errFatal (s : State) (f : TimeState → TimeState) : (s.modTime f).errFatal = s.errFatal := rfl
@[simp] theorem State.modTime_cores (s : State) (f : TimeState → TimeState) : (s.modTime f).cores = s.cores := rfl
@[simp] theorem State.modTime_boot (s : State) (f : TimeState → TimeState) : (s.modTime f).boot = s.boot := rfl
@[simp] theorem State.modTime_rings (s : State) (f : TimeState → TimeState) : (s.modTime f).rings = s.rings := rfl
@[simp] theorem State.modTime_banks (s : State) (f : TimeState → TimeState) : (s.modTime f).banks = s.banks := rfl
@[simp] theorem State.modTime_mem (s : State) (f : TimeState → TimeState) : (s.modTime f).mem = s.mem := rfl
@[simp] theorem State.modTime_memBad (s : State) (f : TimeState → TimeState) : (s.modTime f).memBad = s.memBad := rfl
@[simp] theorem State.modTime_memStacks (s : State) (f : TimeState → TimeState) : (s.modTime f).memStacks = s.memStacks := rfl
@[simp] theorem State.modTime_strm (s : State) (f : TimeState → TimeState) : (s.modTime f).strm = s.strm := rfl
@[simp] theorem State.modTime_drops (s : State) (f : TimeState → TimeState) : (s.modTime f).drops = s.drops := rfl
@[simp] theorem State.modTime_reports (s : State) (f : TimeState → TimeState) : (s.modTime f).reports = s.reports := rfl
@[simp] theorem State.modTime_links (s : State) (f : TimeState → TimeState) : (s.modTime f).links = s.links := rfl
@[simp] theorem State.modTime_admitQueue (s : State) (f : TimeState → TimeState) : (s.modTime f).admitQueue = s.admitQueue := rfl
@[simp] theorem State.modTime_bankNow (s : State) (f : TimeState → TimeState) : (s.modTime f).bankNow = s.bankNow := rfl
@[simp] theorem State.modTime_units (s : State) (f : TimeState → TimeState) : (s.modTime f).units = s.units := rfl
@[simp] theorem State.modTime_awaiting (s : State) (f : TimeState → TimeState) : (s.modTime f).awaiting = s.awaiting := rfl
@[simp] theorem State.modTime_switchDue (s : State) (f : TimeState → TimeState) : (s.modTime f).switchDue = s.switchDue := rfl
@[simp] theorem State.modTime_refusing (s : State) (f : TimeState → TimeState) : (s.modTime f).refusing = s.refusing := rfl
@[simp] theorem State.modTime_stopped (s : State) (f : TimeState → TimeState) : (s.modTime f).stopped = s.stopped := rfl
@[simp] theorem State.modTime_notices (s : State) (f : TimeState → TimeState) : (s.modTime f).notices = s.notices := rfl
@[simp] theorem State.modTime_nextNotice (s : State) (f : TimeState → TimeState) : (s.modTime f).nextNotice = s.nextNotice := rfl
@[simp] theorem State.modTime_wdn (s : State) (f : TimeState → TimeState) : (s.modTime f).wdn = s.wdn := rfl
@[simp] theorem State.modTime_forwarded (s : State) (f : TimeState → TimeState) : (s.modTime f).forwarded = s.forwarded := rfl
@[simp] theorem State.modTime_tray (s : State) (f : TimeState → TimeState) : (s.modTime f).tray = s.tray := rfl
@[simp] theorem State.modTime_free (s : State) (f : TimeState → TimeState) : (s.modTime f).free = s.free := rfl
@[simp] theorem State.modTime_pending (s : State) (f : TimeState → TimeState) : (s.modTime f).pending = s.pending := rfl

/-! ## modTray -/

@[simp] theorem State.modTray_time (s : State) (f : Tray → Tray) : (s.modTray f).time = s.time := rfl
@[simp] theorem State.modTray_pace (s : State) (f : Tray → Tray) : (s.modTray f).pace = s.pace := rfl
@[simp] theorem State.modTray_hb (s : State) (f : Tray → Tray) : (s.modTray f).hb = s.hb := rfl
@[simp] theorem State.modTray_events (s : State) (f : Tray → Tray) : (s.modTray f).events = s.events := rfl
@[simp] theorem State.modTray_ueEpoch (s : State) (f : Tray → Tray) : (s.modTray f).ueEpoch = s.ueEpoch := rfl
@[simp] theorem State.modTray_errCorr (s : State) (f : Tray → Tray) : (s.modTray f).errCorr = s.errCorr := rfl
@[simp] theorem State.modTray_errFatal (s : State) (f : Tray → Tray) : (s.modTray f).errFatal = s.errFatal := rfl
@[simp] theorem State.modTray_cores (s : State) (f : Tray → Tray) : (s.modTray f).cores = s.cores := rfl
@[simp] theorem State.modTray_boot (s : State) (f : Tray → Tray) : (s.modTray f).boot = s.boot := rfl
@[simp] theorem State.modTray_rings (s : State) (f : Tray → Tray) : (s.modTray f).rings = s.rings := rfl
@[simp] theorem State.modTray_banks (s : State) (f : Tray → Tray) : (s.modTray f).banks = s.banks := rfl
@[simp] theorem State.modTray_mem (s : State) (f : Tray → Tray) : (s.modTray f).mem = s.mem := rfl
@[simp] theorem State.modTray_memBad (s : State) (f : Tray → Tray) : (s.modTray f).memBad = s.memBad := rfl
@[simp] theorem State.modTray_memStacks (s : State) (f : Tray → Tray) : (s.modTray f).memStacks = s.memStacks := rfl
@[simp] theorem State.modTray_strm (s : State) (f : Tray → Tray) : (s.modTray f).strm = s.strm := rfl
@[simp] theorem State.modTray_drops (s : State) (f : Tray → Tray) : (s.modTray f).drops = s.drops := rfl
@[simp] theorem State.modTray_reports (s : State) (f : Tray → Tray) : (s.modTray f).reports = s.reports := rfl
@[simp] theorem State.modTray_links (s : State) (f : Tray → Tray) : (s.modTray f).links = s.links := rfl
@[simp] theorem State.modTray_admitQueue (s : State) (f : Tray → Tray) : (s.modTray f).admitQueue = s.admitQueue := rfl
@[simp] theorem State.modTray_bankNow (s : State) (f : Tray → Tray) : (s.modTray f).bankNow = s.bankNow := rfl
@[simp] theorem State.modTray_units (s : State) (f : Tray → Tray) : (s.modTray f).units = s.units := rfl
@[simp] theorem State.modTray_awaiting (s : State) (f : Tray → Tray) : (s.modTray f).awaiting = s.awaiting := rfl
@[simp] theorem State.modTray_switchDue (s : State) (f : Tray → Tray) : (s.modTray f).switchDue = s.switchDue := rfl
@[simp] theorem State.modTray_refusing (s : State) (f : Tray → Tray) : (s.modTray f).refusing = s.refusing := rfl
@[simp] theorem State.modTray_stopped (s : State) (f : Tray → Tray) : (s.modTray f).stopped = s.stopped := rfl
@[simp] theorem State.modTray_notices (s : State) (f : Tray → Tray) : (s.modTray f).notices = s.notices := rfl
@[simp] theorem State.modTray_nextNotice (s : State) (f : Tray → Tray) : (s.modTray f).nextNotice = s.nextNotice := rfl
@[simp] theorem State.modTray_wdn (s : State) (f : Tray → Tray) : (s.modTray f).wdn = s.wdn := rfl
@[simp] theorem State.modTray_forwarded (s : State) (f : Tray → Tray) : (s.modTray f).forwarded = s.forwarded := rfl
@[simp] theorem State.modTray_free (s : State) (f : Tray → Tray) : (s.modTray f).free = s.free := rfl
@[simp] theorem State.modTray_pending (s : State) (f : Tray → Tray) : (s.modTray f).pending = s.pending := rfl

/-! ## modBay -/

@[simp] theorem State.modBay_time (s : State) (b : Nat) (f : Bay → Bay) : (s.modBay b f).time = s.time := rfl
@[simp] theorem State.modBay_pace (s : State) (b : Nat) (f : Bay → Bay) : (s.modBay b f).pace = s.pace := rfl
@[simp] theorem State.modBay_hb (s : State) (b : Nat) (f : Bay → Bay) : (s.modBay b f).hb = s.hb := rfl
@[simp] theorem State.modBay_events (s : State) (b : Nat) (f : Bay → Bay) : (s.modBay b f).events = s.events := rfl
@[simp] theorem State.modBay_ueEpoch (s : State) (b : Nat) (f : Bay → Bay) : (s.modBay b f).ueEpoch = s.ueEpoch := rfl
@[simp] theorem State.modBay_errCorr (s : State) (b : Nat) (f : Bay → Bay) : (s.modBay b f).errCorr = s.errCorr := rfl
@[simp] theorem State.modBay_errFatal (s : State) (b : Nat) (f : Bay → Bay) : (s.modBay b f).errFatal = s.errFatal := rfl
@[simp] theorem State.modBay_cores (s : State) (b : Nat) (f : Bay → Bay) : (s.modBay b f).cores = s.cores := rfl
@[simp] theorem State.modBay_boot (s : State) (b : Nat) (f : Bay → Bay) : (s.modBay b f).boot = s.boot := rfl
@[simp] theorem State.modBay_rings (s : State) (b : Nat) (f : Bay → Bay) : (s.modBay b f).rings = s.rings := rfl
@[simp] theorem State.modBay_banks (s : State) (b : Nat) (f : Bay → Bay) : (s.modBay b f).banks = s.banks := rfl
@[simp] theorem State.modBay_mem (s : State) (b : Nat) (f : Bay → Bay) : (s.modBay b f).mem = s.mem := rfl
@[simp] theorem State.modBay_memBad (s : State) (b : Nat) (f : Bay → Bay) : (s.modBay b f).memBad = s.memBad := rfl
@[simp] theorem State.modBay_memStacks (s : State) (b : Nat) (f : Bay → Bay) : (s.modBay b f).memStacks = s.memStacks := rfl
@[simp] theorem State.modBay_strm (s : State) (b : Nat) (f : Bay → Bay) : (s.modBay b f).strm = s.strm := rfl
@[simp] theorem State.modBay_drops (s : State) (b : Nat) (f : Bay → Bay) : (s.modBay b f).drops = s.drops := rfl
@[simp] theorem State.modBay_reports (s : State) (b : Nat) (f : Bay → Bay) : (s.modBay b f).reports = s.reports := rfl
@[simp] theorem State.modBay_links (s : State) (b : Nat) (f : Bay → Bay) : (s.modBay b f).links = s.links := rfl
@[simp] theorem State.modBay_admitQueue (s : State) (b : Nat) (f : Bay → Bay) : (s.modBay b f).admitQueue = s.admitQueue := rfl
@[simp] theorem State.modBay_bankNow (s : State) (b : Nat) (f : Bay → Bay) : (s.modBay b f).bankNow = s.bankNow := rfl
@[simp] theorem State.modBay_units (s : State) (b : Nat) (f : Bay → Bay) : (s.modBay b f).units = s.units := rfl
@[simp] theorem State.modBay_awaiting (s : State) (b : Nat) (f : Bay → Bay) : (s.modBay b f).awaiting = s.awaiting := rfl
@[simp] theorem State.modBay_switchDue (s : State) (b : Nat) (f : Bay → Bay) : (s.modBay b f).switchDue = s.switchDue := rfl
@[simp] theorem State.modBay_refusing (s : State) (b : Nat) (f : Bay → Bay) : (s.modBay b f).refusing = s.refusing := rfl
@[simp] theorem State.modBay_stopped (s : State) (b : Nat) (f : Bay → Bay) : (s.modBay b f).stopped = s.stopped := rfl
@[simp] theorem State.modBay_notices (s : State) (b : Nat) (f : Bay → Bay) : (s.modBay b f).notices = s.notices := rfl
@[simp] theorem State.modBay_nextNotice (s : State) (b : Nat) (f : Bay → Bay) : (s.modBay b f).nextNotice = s.nextNotice := rfl
@[simp] theorem State.modBay_wdn (s : State) (b : Nat) (f : Bay → Bay) : (s.modBay b f).wdn = s.wdn := rfl
@[simp] theorem State.modBay_forwarded (s : State) (b : Nat) (f : Bay → Bay) : (s.modBay b f).forwarded = s.forwarded := rfl
@[simp] theorem State.modBay_free (s : State) (b : Nat) (f : Bay → Bay) : (s.modBay b f).free = s.free := rfl
@[simp] theorem State.modBay_pending (s : State) (b : Nat) (f : Bay → Bay) : (s.modBay b f).pending = s.pending := rfl

/-! ## modCard -/

@[simp] theorem State.modCard_time (s : State) (w : Warden) (f : Card → Card) : (s.modCard w f).time = s.time := rfl
@[simp] theorem State.modCard_pace (s : State) (w : Warden) (f : Card → Card) : (s.modCard w f).pace = s.pace := rfl
@[simp] theorem State.modCard_hb (s : State) (w : Warden) (f : Card → Card) : (s.modCard w f).hb = s.hb := rfl
@[simp] theorem State.modCard_events (s : State) (w : Warden) (f : Card → Card) : (s.modCard w f).events = s.events := rfl
@[simp] theorem State.modCard_ueEpoch (s : State) (w : Warden) (f : Card → Card) : (s.modCard w f).ueEpoch = s.ueEpoch := rfl
@[simp] theorem State.modCard_errCorr (s : State) (w : Warden) (f : Card → Card) : (s.modCard w f).errCorr = s.errCorr := rfl
@[simp] theorem State.modCard_errFatal (s : State) (w : Warden) (f : Card → Card) : (s.modCard w f).errFatal = s.errFatal := rfl
@[simp] theorem State.modCard_cores (s : State) (w : Warden) (f : Card → Card) : (s.modCard w f).cores = s.cores := rfl
@[simp] theorem State.modCard_boot (s : State) (w : Warden) (f : Card → Card) : (s.modCard w f).boot = s.boot := rfl
@[simp] theorem State.modCard_rings (s : State) (w : Warden) (f : Card → Card) : (s.modCard w f).rings = s.rings := rfl
@[simp] theorem State.modCard_banks (s : State) (w : Warden) (f : Card → Card) : (s.modCard w f).banks = s.banks := rfl
@[simp] theorem State.modCard_mem (s : State) (w : Warden) (f : Card → Card) : (s.modCard w f).mem = s.mem := rfl
@[simp] theorem State.modCard_memBad (s : State) (w : Warden) (f : Card → Card) : (s.modCard w f).memBad = s.memBad := rfl
@[simp] theorem State.modCard_memStacks (s : State) (w : Warden) (f : Card → Card) : (s.modCard w f).memStacks = s.memStacks := rfl
@[simp] theorem State.modCard_strm (s : State) (w : Warden) (f : Card → Card) : (s.modCard w f).strm = s.strm := rfl
@[simp] theorem State.modCard_drops (s : State) (w : Warden) (f : Card → Card) : (s.modCard w f).drops = s.drops := rfl
@[simp] theorem State.modCard_reports (s : State) (w : Warden) (f : Card → Card) : (s.modCard w f).reports = s.reports := rfl
@[simp] theorem State.modCard_links (s : State) (w : Warden) (f : Card → Card) : (s.modCard w f).links = s.links := rfl
@[simp] theorem State.modCard_admitQueue (s : State) (w : Warden) (f : Card → Card) : (s.modCard w f).admitQueue = s.admitQueue := rfl
@[simp] theorem State.modCard_bankNow (s : State) (w : Warden) (f : Card → Card) : (s.modCard w f).bankNow = s.bankNow := rfl
@[simp] theorem State.modCard_units (s : State) (w : Warden) (f : Card → Card) : (s.modCard w f).units = s.units := rfl
@[simp] theorem State.modCard_awaiting (s : State) (w : Warden) (f : Card → Card) : (s.modCard w f).awaiting = s.awaiting := rfl
@[simp] theorem State.modCard_switchDue (s : State) (w : Warden) (f : Card → Card) : (s.modCard w f).switchDue = s.switchDue := rfl
@[simp] theorem State.modCard_refusing (s : State) (w : Warden) (f : Card → Card) : (s.modCard w f).refusing = s.refusing := rfl
@[simp] theorem State.modCard_stopped (s : State) (w : Warden) (f : Card → Card) : (s.modCard w f).stopped = s.stopped := rfl
@[simp] theorem State.modCard_notices (s : State) (w : Warden) (f : Card → Card) : (s.modCard w f).notices = s.notices := rfl
@[simp] theorem State.modCard_nextNotice (s : State) (w : Warden) (f : Card → Card) : (s.modCard w f).nextNotice = s.nextNotice := rfl
@[simp] theorem State.modCard_wdn (s : State) (w : Warden) (f : Card → Card) : (s.modCard w f).wdn = s.wdn := rfl
@[simp] theorem State.modCard_forwarded (s : State) (w : Warden) (f : Card → Card) : (s.modCard w f).forwarded = s.forwarded := rfl
@[simp] theorem State.modCard_free (s : State) (w : Warden) (f : Card → Card) : (s.modCard w f).free = s.free := rfl
@[simp] theorem State.modCard_pending (s : State) (w : Warden) (f : Card → Card) : (s.modCard w f).pending = s.pending := rfl

/-! ## trayAfter -/

@[simp] theorem State.trayAfter_time (s : State) (n : Nat) : (s.trayAfter n).time = s.time := rfl
@[simp] theorem State.trayAfter_pace (s : State) (n : Nat) : (s.trayAfter n).pace = s.pace := rfl
@[simp] theorem State.trayAfter_hb (s : State) (n : Nat) : (s.trayAfter n).hb = s.hb := rfl
@[simp] theorem State.trayAfter_events (s : State) (n : Nat) : (s.trayAfter n).events = s.events := rfl
@[simp] theorem State.trayAfter_ueEpoch (s : State) (n : Nat) : (s.trayAfter n).ueEpoch = s.ueEpoch := rfl
@[simp] theorem State.trayAfter_errCorr (s : State) (n : Nat) : (s.trayAfter n).errCorr = s.errCorr := rfl
@[simp] theorem State.trayAfter_errFatal (s : State) (n : Nat) : (s.trayAfter n).errFatal = s.errFatal := rfl
@[simp] theorem State.trayAfter_cores (s : State) (n : Nat) : (s.trayAfter n).cores = s.cores := rfl
@[simp] theorem State.trayAfter_boot (s : State) (n : Nat) : (s.trayAfter n).boot = s.boot := rfl
@[simp] theorem State.trayAfter_rings (s : State) (n : Nat) : (s.trayAfter n).rings = s.rings := rfl
@[simp] theorem State.trayAfter_banks (s : State) (n : Nat) : (s.trayAfter n).banks = s.banks := rfl
@[simp] theorem State.trayAfter_mem (s : State) (n : Nat) : (s.trayAfter n).mem = s.mem := rfl
@[simp] theorem State.trayAfter_memBad (s : State) (n : Nat) : (s.trayAfter n).memBad = s.memBad := rfl
@[simp] theorem State.trayAfter_memStacks (s : State) (n : Nat) : (s.trayAfter n).memStacks = s.memStacks := rfl
@[simp] theorem State.trayAfter_strm (s : State) (n : Nat) : (s.trayAfter n).strm = s.strm := rfl
@[simp] theorem State.trayAfter_drops (s : State) (n : Nat) : (s.trayAfter n).drops = s.drops := rfl
@[simp] theorem State.trayAfter_reports (s : State) (n : Nat) : (s.trayAfter n).reports = s.reports := rfl
@[simp] theorem State.trayAfter_links (s : State) (n : Nat) : (s.trayAfter n).links = s.links := rfl
@[simp] theorem State.trayAfter_admitQueue (s : State) (n : Nat) : (s.trayAfter n).admitQueue = s.admitQueue := rfl
@[simp] theorem State.trayAfter_bankNow (s : State) (n : Nat) : (s.trayAfter n).bankNow = s.bankNow := rfl
@[simp] theorem State.trayAfter_units (s : State) (n : Nat) : (s.trayAfter n).units = s.units := rfl
@[simp] theorem State.trayAfter_awaiting (s : State) (n : Nat) : (s.trayAfter n).awaiting = s.awaiting := rfl
@[simp] theorem State.trayAfter_switchDue (s : State) (n : Nat) : (s.trayAfter n).switchDue = s.switchDue := rfl
@[simp] theorem State.trayAfter_refusing (s : State) (n : Nat) : (s.trayAfter n).refusing = s.refusing := rfl
@[simp] theorem State.trayAfter_stopped (s : State) (n : Nat) : (s.trayAfter n).stopped = s.stopped := rfl
@[simp] theorem State.trayAfter_notices (s : State) (n : Nat) : (s.trayAfter n).notices = s.notices := rfl
@[simp] theorem State.trayAfter_nextNotice (s : State) (n : Nat) : (s.trayAfter n).nextNotice = s.nextNotice := rfl
@[simp] theorem State.trayAfter_wdn (s : State) (n : Nat) : (s.trayAfter n).wdn = s.wdn := rfl
@[simp] theorem State.trayAfter_forwarded (s : State) (n : Nat) : (s.trayAfter n).forwarded = s.forwarded := rfl
@[simp] theorem State.trayAfter_free (s : State) (n : Nat) : (s.trayAfter n).free = s.free := rfl
@[simp] theorem State.trayAfter_pending (s : State) (n : Nat) : (s.trayAfter n).pending = s.pending := rfl

/-! ## putUnit -/

@[simp] theorem State.putUnit_time (s : State) (r : UnitRec) : (s.putUnit r).time = s.time := rfl
@[simp] theorem State.putUnit_pace (s : State) (r : UnitRec) : (s.putUnit r).pace = s.pace := rfl
@[simp] theorem State.putUnit_hb (s : State) (r : UnitRec) : (s.putUnit r).hb = s.hb := rfl
@[simp] theorem State.putUnit_events (s : State) (r : UnitRec) : (s.putUnit r).events = s.events := rfl
@[simp] theorem State.putUnit_ueEpoch (s : State) (r : UnitRec) : (s.putUnit r).ueEpoch = s.ueEpoch := rfl
@[simp] theorem State.putUnit_errCorr (s : State) (r : UnitRec) : (s.putUnit r).errCorr = s.errCorr := rfl
@[simp] theorem State.putUnit_errFatal (s : State) (r : UnitRec) : (s.putUnit r).errFatal = s.errFatal := rfl
@[simp] theorem State.putUnit_cores (s : State) (r : UnitRec) : (s.putUnit r).cores = s.cores := rfl
@[simp] theorem State.putUnit_boot (s : State) (r : UnitRec) : (s.putUnit r).boot = s.boot := rfl
@[simp] theorem State.putUnit_rings (s : State) (r : UnitRec) : (s.putUnit r).rings = s.rings := rfl
@[simp] theorem State.putUnit_banks (s : State) (r : UnitRec) : (s.putUnit r).banks = s.banks := rfl
@[simp] theorem State.putUnit_mem (s : State) (r : UnitRec) : (s.putUnit r).mem = s.mem := rfl
@[simp] theorem State.putUnit_memBad (s : State) (r : UnitRec) : (s.putUnit r).memBad = s.memBad := rfl
@[simp] theorem State.putUnit_memStacks (s : State) (r : UnitRec) : (s.putUnit r).memStacks = s.memStacks := rfl
@[simp] theorem State.putUnit_strm (s : State) (r : UnitRec) : (s.putUnit r).strm = s.strm := rfl
@[simp] theorem State.putUnit_drops (s : State) (r : UnitRec) : (s.putUnit r).drops = s.drops := rfl
@[simp] theorem State.putUnit_reports (s : State) (r : UnitRec) : (s.putUnit r).reports = s.reports := rfl
@[simp] theorem State.putUnit_links (s : State) (r : UnitRec) : (s.putUnit r).links = s.links := rfl
@[simp] theorem State.putUnit_admitQueue (s : State) (r : UnitRec) : (s.putUnit r).admitQueue = s.admitQueue := rfl
@[simp] theorem State.putUnit_bankNow (s : State) (r : UnitRec) : (s.putUnit r).bankNow = s.bankNow := rfl
@[simp] theorem State.putUnit_awaiting (s : State) (r : UnitRec) : (s.putUnit r).awaiting = s.awaiting := rfl
@[simp] theorem State.putUnit_switchDue (s : State) (r : UnitRec) : (s.putUnit r).switchDue = s.switchDue := rfl
@[simp] theorem State.putUnit_refusing (s : State) (r : UnitRec) : (s.putUnit r).refusing = s.refusing := rfl
@[simp] theorem State.putUnit_stopped (s : State) (r : UnitRec) : (s.putUnit r).stopped = s.stopped := rfl
@[simp] theorem State.putUnit_notices (s : State) (r : UnitRec) : (s.putUnit r).notices = s.notices := rfl
@[simp] theorem State.putUnit_nextNotice (s : State) (r : UnitRec) : (s.putUnit r).nextNotice = s.nextNotice := rfl
@[simp] theorem State.putUnit_wdn (s : State) (r : UnitRec) : (s.putUnit r).wdn = s.wdn := rfl
@[simp] theorem State.putUnit_forwarded (s : State) (r : UnitRec) : (s.putUnit r).forwarded = s.forwarded := rfl
@[simp] theorem State.putUnit_tray (s : State) (r : UnitRec) : (s.putUnit r).tray = s.tray := rfl
@[simp] theorem State.putUnit_free (s : State) (r : UnitRec) : (s.putUnit r).free = s.free := rfl
@[simp] theorem State.putUnit_pending (s : State) (r : UnitRec) : (s.putUnit r).pending = s.pending := rfl

/-! ## delUnit -/

@[simp] theorem State.delUnit_time (s : State) (u : UnitId) : (s.delUnit u).time = s.time := rfl
@[simp] theorem State.delUnit_pace (s : State) (u : UnitId) : (s.delUnit u).pace = s.pace := rfl
@[simp] theorem State.delUnit_hb (s : State) (u : UnitId) : (s.delUnit u).hb = s.hb := rfl
@[simp] theorem State.delUnit_events (s : State) (u : UnitId) : (s.delUnit u).events = s.events := rfl
@[simp] theorem State.delUnit_ueEpoch (s : State) (u : UnitId) : (s.delUnit u).ueEpoch = s.ueEpoch := rfl
@[simp] theorem State.delUnit_errCorr (s : State) (u : UnitId) : (s.delUnit u).errCorr = s.errCorr := rfl
@[simp] theorem State.delUnit_errFatal (s : State) (u : UnitId) : (s.delUnit u).errFatal = s.errFatal := rfl
@[simp] theorem State.delUnit_cores (s : State) (u : UnitId) : (s.delUnit u).cores = s.cores := rfl
@[simp] theorem State.delUnit_boot (s : State) (u : UnitId) : (s.delUnit u).boot = s.boot := rfl
@[simp] theorem State.delUnit_rings (s : State) (u : UnitId) : (s.delUnit u).rings = s.rings := rfl
@[simp] theorem State.delUnit_banks (s : State) (u : UnitId) : (s.delUnit u).banks = s.banks := rfl
@[simp] theorem State.delUnit_mem (s : State) (u : UnitId) : (s.delUnit u).mem = s.mem := rfl
@[simp] theorem State.delUnit_memBad (s : State) (u : UnitId) : (s.delUnit u).memBad = s.memBad := rfl
@[simp] theorem State.delUnit_memStacks (s : State) (u : UnitId) : (s.delUnit u).memStacks = s.memStacks := rfl
@[simp] theorem State.delUnit_strm (s : State) (u : UnitId) : (s.delUnit u).strm = s.strm := rfl
@[simp] theorem State.delUnit_drops (s : State) (u : UnitId) : (s.delUnit u).drops = s.drops := rfl
@[simp] theorem State.delUnit_reports (s : State) (u : UnitId) : (s.delUnit u).reports = s.reports := rfl
@[simp] theorem State.delUnit_links (s : State) (u : UnitId) : (s.delUnit u).links = s.links := rfl
@[simp] theorem State.delUnit_admitQueue (s : State) (u : UnitId) : (s.delUnit u).admitQueue = s.admitQueue := rfl
@[simp] theorem State.delUnit_bankNow (s : State) (u : UnitId) : (s.delUnit u).bankNow = s.bankNow := rfl
@[simp] theorem State.delUnit_awaiting (s : State) (u : UnitId) : (s.delUnit u).awaiting = s.awaiting := rfl
@[simp] theorem State.delUnit_switchDue (s : State) (u : UnitId) : (s.delUnit u).switchDue = s.switchDue := rfl
@[simp] theorem State.delUnit_refusing (s : State) (u : UnitId) : (s.delUnit u).refusing = s.refusing := rfl
@[simp] theorem State.delUnit_stopped (s : State) (u : UnitId) : (s.delUnit u).stopped = s.stopped := rfl
@[simp] theorem State.delUnit_notices (s : State) (u : UnitId) : (s.delUnit u).notices = s.notices := rfl
@[simp] theorem State.delUnit_nextNotice (s : State) (u : UnitId) : (s.delUnit u).nextNotice = s.nextNotice := rfl
@[simp] theorem State.delUnit_wdn (s : State) (u : UnitId) : (s.delUnit u).wdn = s.wdn := rfl
@[simp] theorem State.delUnit_forwarded (s : State) (u : UnitId) : (s.delUnit u).forwarded = s.forwarded := rfl
@[simp] theorem State.delUnit_tray (s : State) (u : UnitId) : (s.delUnit u).tray = s.tray := rfl
@[simp] theorem State.delUnit_free (s : State) (u : UnitId) : (s.delUnit u).free = s.free := rfl
@[simp] theorem State.delUnit_pending (s : State) (u : UnitId) : (s.delUnit u).pending = s.pending := rfl

/-! ## queueFlit -/

@[simp] theorem State.queueFlit_time (s : State) (k v : Nat) (f : LFlit) : (s.queueFlit k v f).time = s.time := rfl
@[simp] theorem State.queueFlit_pace (s : State) (k v : Nat) (f : LFlit) : (s.queueFlit k v f).pace = s.pace := rfl
@[simp] theorem State.queueFlit_hb (s : State) (k v : Nat) (f : LFlit) : (s.queueFlit k v f).hb = s.hb := rfl
@[simp] theorem State.queueFlit_events (s : State) (k v : Nat) (f : LFlit) : (s.queueFlit k v f).events = s.events := rfl
@[simp] theorem State.queueFlit_ueEpoch (s : State) (k v : Nat) (f : LFlit) : (s.queueFlit k v f).ueEpoch = s.ueEpoch := rfl
@[simp] theorem State.queueFlit_errCorr (s : State) (k v : Nat) (f : LFlit) : (s.queueFlit k v f).errCorr = s.errCorr := rfl
@[simp] theorem State.queueFlit_errFatal (s : State) (k v : Nat) (f : LFlit) : (s.queueFlit k v f).errFatal = s.errFatal := rfl
@[simp] theorem State.queueFlit_cores (s : State) (k v : Nat) (f : LFlit) : (s.queueFlit k v f).cores = s.cores := rfl
@[simp] theorem State.queueFlit_boot (s : State) (k v : Nat) (f : LFlit) : (s.queueFlit k v f).boot = s.boot := rfl
@[simp] theorem State.queueFlit_rings (s : State) (k v : Nat) (f : LFlit) : (s.queueFlit k v f).rings = s.rings := rfl
@[simp] theorem State.queueFlit_banks (s : State) (k v : Nat) (f : LFlit) : (s.queueFlit k v f).banks = s.banks := rfl
@[simp] theorem State.queueFlit_mem (s : State) (k v : Nat) (f : LFlit) : (s.queueFlit k v f).mem = s.mem := rfl
@[simp] theorem State.queueFlit_memBad (s : State) (k v : Nat) (f : LFlit) : (s.queueFlit k v f).memBad = s.memBad := rfl
@[simp] theorem State.queueFlit_memStacks (s : State) (k v : Nat) (f : LFlit) : (s.queueFlit k v f).memStacks = s.memStacks := rfl
@[simp] theorem State.queueFlit_strm (s : State) (k v : Nat) (f : LFlit) : (s.queueFlit k v f).strm = s.strm := rfl
@[simp] theorem State.queueFlit_drops (s : State) (k v : Nat) (f : LFlit) : (s.queueFlit k v f).drops = s.drops := rfl
@[simp] theorem State.queueFlit_reports (s : State) (k v : Nat) (f : LFlit) : (s.queueFlit k v f).reports = s.reports := rfl
@[simp] theorem State.queueFlit_admitQueue (s : State) (k v : Nat) (f : LFlit) : (s.queueFlit k v f).admitQueue = s.admitQueue := rfl
@[simp] theorem State.queueFlit_bankNow (s : State) (k v : Nat) (f : LFlit) : (s.queueFlit k v f).bankNow = s.bankNow := rfl
@[simp] theorem State.queueFlit_units (s : State) (k v : Nat) (f : LFlit) : (s.queueFlit k v f).units = s.units := rfl
@[simp] theorem State.queueFlit_awaiting (s : State) (k v : Nat) (f : LFlit) : (s.queueFlit k v f).awaiting = s.awaiting := rfl
@[simp] theorem State.queueFlit_switchDue (s : State) (k v : Nat) (f : LFlit) : (s.queueFlit k v f).switchDue = s.switchDue := rfl
@[simp] theorem State.queueFlit_refusing (s : State) (k v : Nat) (f : LFlit) : (s.queueFlit k v f).refusing = s.refusing := rfl
@[simp] theorem State.queueFlit_stopped (s : State) (k v : Nat) (f : LFlit) : (s.queueFlit k v f).stopped = s.stopped := rfl
@[simp] theorem State.queueFlit_notices (s : State) (k v : Nat) (f : LFlit) : (s.queueFlit k v f).notices = s.notices := rfl
@[simp] theorem State.queueFlit_nextNotice (s : State) (k v : Nat) (f : LFlit) : (s.queueFlit k v f).nextNotice = s.nextNotice := rfl
@[simp] theorem State.queueFlit_wdn (s : State) (k v : Nat) (f : LFlit) : (s.queueFlit k v f).wdn = s.wdn := rfl
@[simp] theorem State.queueFlit_forwarded (s : State) (k v : Nat) (f : LFlit) : (s.queueFlit k v f).forwarded = s.forwarded := rfl
@[simp] theorem State.queueFlit_tray (s : State) (k v : Nat) (f : LFlit) : (s.queueFlit k v f).tray = s.tray := rfl
@[simp] theorem State.queueFlit_free (s : State) (k v : Nat) (f : LFlit) : (s.queueFlit k v f).free = s.free := rfl
@[simp] theorem State.queueFlit_pending (s : State) (k v : Nat) (f : LFlit) : (s.queueFlit k v f).pending = s.pending := rfl

/-! ## freeFlits -/

@[simp] theorem State.freeFlits_time (s : State) (k v n : Nat) : (s.freeFlits k v n).time = s.time := rfl
@[simp] theorem State.freeFlits_pace (s : State) (k v n : Nat) : (s.freeFlits k v n).pace = s.pace := rfl
@[simp] theorem State.freeFlits_hb (s : State) (k v n : Nat) : (s.freeFlits k v n).hb = s.hb := rfl
@[simp] theorem State.freeFlits_events (s : State) (k v n : Nat) : (s.freeFlits k v n).events = s.events := rfl
@[simp] theorem State.freeFlits_ueEpoch (s : State) (k v n : Nat) : (s.freeFlits k v n).ueEpoch = s.ueEpoch := rfl
@[simp] theorem State.freeFlits_errCorr (s : State) (k v n : Nat) : (s.freeFlits k v n).errCorr = s.errCorr := rfl
@[simp] theorem State.freeFlits_errFatal (s : State) (k v n : Nat) : (s.freeFlits k v n).errFatal = s.errFatal := rfl
@[simp] theorem State.freeFlits_cores (s : State) (k v n : Nat) : (s.freeFlits k v n).cores = s.cores := rfl
@[simp] theorem State.freeFlits_boot (s : State) (k v n : Nat) : (s.freeFlits k v n).boot = s.boot := rfl
@[simp] theorem State.freeFlits_rings (s : State) (k v n : Nat) : (s.freeFlits k v n).rings = s.rings := rfl
@[simp] theorem State.freeFlits_banks (s : State) (k v n : Nat) : (s.freeFlits k v n).banks = s.banks := rfl
@[simp] theorem State.freeFlits_mem (s : State) (k v n : Nat) : (s.freeFlits k v n).mem = s.mem := rfl
@[simp] theorem State.freeFlits_memBad (s : State) (k v n : Nat) : (s.freeFlits k v n).memBad = s.memBad := rfl
@[simp] theorem State.freeFlits_memStacks (s : State) (k v n : Nat) : (s.freeFlits k v n).memStacks = s.memStacks := rfl
@[simp] theorem State.freeFlits_strm (s : State) (k v n : Nat) : (s.freeFlits k v n).strm = s.strm := rfl
@[simp] theorem State.freeFlits_drops (s : State) (k v n : Nat) : (s.freeFlits k v n).drops = s.drops := rfl
@[simp] theorem State.freeFlits_reports (s : State) (k v n : Nat) : (s.freeFlits k v n).reports = s.reports := rfl
@[simp] theorem State.freeFlits_admitQueue (s : State) (k v n : Nat) : (s.freeFlits k v n).admitQueue = s.admitQueue := rfl
@[simp] theorem State.freeFlits_bankNow (s : State) (k v n : Nat) : (s.freeFlits k v n).bankNow = s.bankNow := rfl
@[simp] theorem State.freeFlits_units (s : State) (k v n : Nat) : (s.freeFlits k v n).units = s.units := rfl
@[simp] theorem State.freeFlits_awaiting (s : State) (k v n : Nat) : (s.freeFlits k v n).awaiting = s.awaiting := rfl
@[simp] theorem State.freeFlits_switchDue (s : State) (k v n : Nat) : (s.freeFlits k v n).switchDue = s.switchDue := rfl
@[simp] theorem State.freeFlits_refusing (s : State) (k v n : Nat) : (s.freeFlits k v n).refusing = s.refusing := rfl
@[simp] theorem State.freeFlits_stopped (s : State) (k v n : Nat) : (s.freeFlits k v n).stopped = s.stopped := rfl
@[simp] theorem State.freeFlits_notices (s : State) (k v n : Nat) : (s.freeFlits k v n).notices = s.notices := rfl
@[simp] theorem State.freeFlits_nextNotice (s : State) (k v n : Nat) : (s.freeFlits k v n).nextNotice = s.nextNotice := rfl
@[simp] theorem State.freeFlits_wdn (s : State) (k v n : Nat) : (s.freeFlits k v n).wdn = s.wdn := rfl
@[simp] theorem State.freeFlits_forwarded (s : State) (k v n : Nat) : (s.freeFlits k v n).forwarded = s.forwarded := rfl
@[simp] theorem State.freeFlits_tray (s : State) (k v n : Nat) : (s.freeFlits k v n).tray = s.tray := rfl
@[simp] theorem State.freeFlits_free (s : State) (k v n : Nat) : (s.freeFlits k v n).free = s.free := rfl
@[simp] theorem State.freeFlits_pending (s : State) (k v n : Nat) : (s.freeFlits k v n).pending = s.pending := rfl

/-! ## setBank -/

@[simp] theorem State.setBank_time (s : State) (i : Nat) (b : Bank) : (s.setBank i b).time = s.time := rfl
@[simp] theorem State.setBank_pace (s : State) (i : Nat) (b : Bank) : (s.setBank i b).pace = s.pace := rfl
@[simp] theorem State.setBank_hb (s : State) (i : Nat) (b : Bank) : (s.setBank i b).hb = s.hb := rfl
@[simp] theorem State.setBank_events (s : State) (i : Nat) (b : Bank) : (s.setBank i b).events = s.events := rfl
@[simp] theorem State.setBank_ueEpoch (s : State) (i : Nat) (b : Bank) : (s.setBank i b).ueEpoch = s.ueEpoch := rfl
@[simp] theorem State.setBank_errCorr (s : State) (i : Nat) (b : Bank) : (s.setBank i b).errCorr = s.errCorr := rfl
@[simp] theorem State.setBank_errFatal (s : State) (i : Nat) (b : Bank) : (s.setBank i b).errFatal = s.errFatal := rfl
@[simp] theorem State.setBank_cores (s : State) (i : Nat) (b : Bank) : (s.setBank i b).cores = s.cores := rfl
@[simp] theorem State.setBank_boot (s : State) (i : Nat) (b : Bank) : (s.setBank i b).boot = s.boot := rfl
@[simp] theorem State.setBank_rings (s : State) (i : Nat) (b : Bank) : (s.setBank i b).rings = s.rings := rfl
@[simp] theorem State.setBank_mem (s : State) (i : Nat) (b : Bank) : (s.setBank i b).mem = s.mem := rfl
@[simp] theorem State.setBank_memBad (s : State) (i : Nat) (b : Bank) : (s.setBank i b).memBad = s.memBad := rfl
@[simp] theorem State.setBank_memStacks (s : State) (i : Nat) (b : Bank) : (s.setBank i b).memStacks = s.memStacks := rfl
@[simp] theorem State.setBank_strm (s : State) (i : Nat) (b : Bank) : (s.setBank i b).strm = s.strm := rfl
@[simp] theorem State.setBank_drops (s : State) (i : Nat) (b : Bank) : (s.setBank i b).drops = s.drops := rfl
@[simp] theorem State.setBank_reports (s : State) (i : Nat) (b : Bank) : (s.setBank i b).reports = s.reports := rfl
@[simp] theorem State.setBank_links (s : State) (i : Nat) (b : Bank) : (s.setBank i b).links = s.links := rfl
@[simp] theorem State.setBank_admitQueue (s : State) (i : Nat) (b : Bank) : (s.setBank i b).admitQueue = s.admitQueue := rfl
@[simp] theorem State.setBank_bankNow (s : State) (i : Nat) (b : Bank) : (s.setBank i b).bankNow = s.bankNow := rfl
@[simp] theorem State.setBank_units (s : State) (i : Nat) (b : Bank) : (s.setBank i b).units = s.units := rfl
@[simp] theorem State.setBank_awaiting (s : State) (i : Nat) (b : Bank) : (s.setBank i b).awaiting = s.awaiting := rfl
@[simp] theorem State.setBank_switchDue (s : State) (i : Nat) (b : Bank) : (s.setBank i b).switchDue = s.switchDue := rfl
@[simp] theorem State.setBank_refusing (s : State) (i : Nat) (b : Bank) : (s.setBank i b).refusing = s.refusing := rfl
@[simp] theorem State.setBank_stopped (s : State) (i : Nat) (b : Bank) : (s.setBank i b).stopped = s.stopped := rfl
@[simp] theorem State.setBank_notices (s : State) (i : Nat) (b : Bank) : (s.setBank i b).notices = s.notices := rfl
@[simp] theorem State.setBank_nextNotice (s : State) (i : Nat) (b : Bank) : (s.setBank i b).nextNotice = s.nextNotice := rfl
@[simp] theorem State.setBank_wdn (s : State) (i : Nat) (b : Bank) : (s.setBank i b).wdn = s.wdn := rfl
@[simp] theorem State.setBank_forwarded (s : State) (i : Nat) (b : Bank) : (s.setBank i b).forwarded = s.forwarded := rfl
@[simp] theorem State.setBank_tray (s : State) (i : Nat) (b : Bank) : (s.setBank i b).tray = s.tray := rfl
@[simp] theorem State.setBank_free (s : State) (i : Nat) (b : Bank) : (s.setBank i b).free = s.free := rfl
@[simp] theorem State.setBank_pending (s : State) (i : Nat) (b : Bank) : (s.setBank i b).pending = s.pending := rfl

/-! ## Reading back -/

@[simp] theorem State.core_setCore (s : State) (n : Nat) (c : Core) : (s.setCore n c).core n = c := by
  simp [State.core, State.setCore]
theorem State.core_setCore_ne (s : State) {n m : Nat} (c : Core) (h : m ≠ n) : (s.setCore n c).core m = s.core m := by
  simp [State.core, State.setCore, Tab.at_put_ne _ _ _ h]
@[simp] theorem State.core_modCore (s : State) (n : Nat) (f : Core → Core) : (s.modCore n f).core n = f (s.core n) := by
  simp [State.modCore]
theorem State.core_modCore_ne (s : State) {n m : Nat} (f : Core → Core) (h : m ≠ n) :
    (s.modCore n f).core m = s.core m := State.core_setCore_ne s _ h

@[simp] theorem Core.thr_setThr (c : Core) (t : BitVec 2) (th : Thread) : (c.setThr t th).thr t = th := by
  simp [Core.thr, Core.setThr]
theorem Core.thr_setThr_ne (c : Core) {t u : BitVec 2} (th : Thread) (h : u ≠ t) : (c.setThr t th).thr u = c.thr u := by
  have h' : t.toNat ≠ u.toNat := fun e => h (BitVec.eq_of_toNat_eq e.symm)
  simp [Core.thr, Core.setThr, h']
@[simp] theorem Core.setThr_pad (c : Core) (t : BitVec 2) (th : Thread) : (c.setThr t th).pad = c.pad := rfl
@[simp] theorem Core.setThr_mregs (c : Core) (t : BitVec 2) (th : Thread) : (c.setThr t th).mregs = c.mregs := rfl
@[simp] theorem State.thr_setThr (s : State) (n : Nat) (t : BitVec 2) (th : Thread) : (s.setThr n t th).thr n t = th := by
  simp [State.thr, State.setThr]
theorem State.thr_setThr_ne (s : State) (n : Nat) {t u : BitVec 2} (th : Thread) (h : u ≠ t) :
    (s.setThr n t th).thr n u = s.thr n u := by
  simp [State.thr, State.setThr, Core.thr_setThr_ne _ th h]
theorem State.core_setThr_ne (s : State) {n m : Nat} (t : BitVec 2) (th : Thread) (h : m ≠ n) :
    (s.setThr n t th).core m = s.core m := State.core_modCore_ne s _ h
/-- A thread's update keeps every scratchpad. -/
@[simp] theorem State.setThr_pad (s : State) (n m : Nat) (t : BitVec 2) (th : Thread) :
    ((s.setThr n t th).core m).pad = (s.core m).pad := by
  by_cases h : m = n
  · subst h; simp [State.setThr]
  · rw [State.core_setThr_ne s t th h]

@[simp] theorem State.link_setLink (s : State) (k : Nat) (l : Link) : (s.setLink k l).link k = l := by
  simp [State.link, State.setLink]
theorem State.link_setLink_ne (s : State) {k j : Nat} (l : Link) (h : j ≠ k) : (s.setLink k l).link j = s.link j := by
  simp [State.link, State.setLink, Tab.at_put_ne _ _ _ h]
@[simp] theorem State.link_modLink (s : State) (k : Nat) (f : Link → Link) : (s.modLink k f).link k = f (s.link k) := by
  simp [State.modLink]
theorem State.link_modLink_ne (s : State) {k j : Nat} (f : Link → Link) (h : j ≠ k) :
    (s.modLink k f).link j = s.link j := State.link_setLink_ne s _ h

@[simp] theorem State.stack_modStack (s : State) (k : Nat) (f : Stack → Stack) : (s.modStack k f).stack k = f (s.stack k) := by
  simp [State.stack, State.modStack]
theorem State.stack_modStack_ne (s : State) {k j : Nat} (f : Stack → Stack) (h : j ≠ k) :
    (s.modStack k f).stack j = s.stack j := by
  simp [State.stack, State.modStack, Tab.at_put_ne _ _ _ h]
@[simp] theorem Stack.chan_setChan (k : Stack) (c : Nat) (h : Chan) : (k.setChan c h).chan c = h := by
  simp [Stack.chan, Stack.setChan]
theorem Stack.chan_setChan_ne (k : Stack) {c d : Nat} (h : Chan) (e : d ≠ c) : (k.setChan c h).chan d = k.chan d := by
  simp [Stack.chan, Stack.setChan, Tab.at_put_ne _ _ _ e]

@[simp] theorem State.modTray_tray (s : State) (f : Tray → Tray) : (s.modTray f).tray = f s.tray := rfl
@[simp] theorem State.bay_modBay (s : State) (b : Nat) (f : Bay → Bay) : (s.modBay b f).bay b = f (s.bay b) := by
  simp [State.bay, State.modBay, State.modTray, Tray.bay]
theorem State.bay_modBay_ne (s : State) {b c : Nat} (f : Bay → Bay) (h : c ≠ b) : (s.modBay b f).bay c = s.bay c := by
  simp [State.bay, State.modBay, State.modTray, Tray.bay, Tab.at_put_ne _ _ _ h]
@[simp] theorem State.modTime_time (s : State) (f : TimeState → TimeState) : (s.modTime f).time = f s.time := rfl

end Sys2Proof.Machine
end

