-- ==== Sys2Proof/Laws/Ops.lean ====
section
/-! SUPPORT. What the shared operations can do: counting an event, asserting the error line, taking a fault, retiring,
issuing a word, moving chip time, and a step. -/

namespace Sys2Proof.Machine

/-! ## The error line and events (R323, R327) -/

@[simp] theorem State.assertCorr_time (s : State) : s.assertCorr.time = s.time := by unfold State.assertCorr; split <;> rfl
@[simp] theorem State.assertCorr_pace (s : State) : s.assertCorr.pace = s.pace := by unfold State.assertCorr; split <;> rfl
@[simp] theorem State.assertCorr_hb (s : State) : s.assertCorr.hb = s.hb := by unfold State.assertCorr; split <;> rfl
@[simp] theorem State.assertCorr_events (s : State) : s.assertCorr.events = s.events := by unfold State.assertCorr; split <;> rfl
@[simp] theorem State.assertCorr_ueEpoch (s : State) : s.assertCorr.ueEpoch = s.ueEpoch := by unfold State.assertCorr; split <;> rfl
@[simp] theorem State.assertCorr_errFatal (s : State) : s.assertCorr.errFatal = s.errFatal := by unfold State.assertCorr; split <;> rfl
@[simp] theorem State.assertCorr_cores (s : State) : s.assertCorr.cores = s.cores := by unfold State.assertCorr; split <;> rfl
@[simp] theorem State.assertCorr_boot (s : State) : s.assertCorr.boot = s.boot := by unfold State.assertCorr; split <;> rfl
@[simp] theorem State.assertCorr_rings (s : State) : s.assertCorr.rings = s.rings := by unfold State.assertCorr; split <;> rfl
@[simp] theorem State.assertCorr_banks (s : State) : s.assertCorr.banks = s.banks := by unfold State.assertCorr; split <;> rfl
@[simp] theorem State.assertCorr_mem (s : State) : s.assertCorr.mem = s.mem := by unfold State.assertCorr; split <;> rfl
@[simp] theorem State.assertCorr_memBad (s : State) : s.assertCorr.memBad = s.memBad := by unfold State.assertCorr; split <;> rfl
@[simp] theorem State.assertCorr_memStacks (s : State) : s.assertCorr.memStacks = s.memStacks := by unfold State.assertCorr; split <;> rfl
@[simp] theorem State.assertCorr_strm (s : State) : s.assertCorr.strm = s.strm := by unfold State.assertCorr; split <;> rfl
@[simp] theorem State.assertCorr_drops (s : State) : s.assertCorr.drops = s.drops := by unfold State.assertCorr; split <;> rfl
@[simp] theorem State.assertCorr_reports (s : State) : s.assertCorr.reports = s.reports := by unfold State.assertCorr; split <;> rfl
@[simp] theorem State.assertCorr_links (s : State) : s.assertCorr.links = s.links := by unfold State.assertCorr; split <;> rfl
@[simp] theorem State.assertCorr_admitQueue (s : State) : s.assertCorr.admitQueue = s.admitQueue := by unfold State.assertCorr; split <;> rfl
@[simp] theorem State.assertCorr_bankNow (s : State) : s.assertCorr.bankNow = s.bankNow := by unfold State.assertCorr; split <;> rfl
@[simp] theorem State.assertCorr_units (s : State) : s.assertCorr.units = s.units := by unfold State.assertCorr; split <;> rfl
@[simp] theorem State.assertCorr_awaiting (s : State) : s.assertCorr.awaiting = s.awaiting := by unfold State.assertCorr; split <;> rfl
@[simp] theorem State.assertCorr_switchDue (s : State) : s.assertCorr.switchDue = s.switchDue := by unfold State.assertCorr; split <;> rfl
@[simp] theorem State.assertCorr_refusing (s : State) : s.assertCorr.refusing = s.refusing := by unfold State.assertCorr; split <;> rfl
@[simp] theorem State.assertCorr_stopped (s : State) : s.assertCorr.stopped = s.stopped := by unfold State.assertCorr; split <;> rfl
@[simp] theorem State.assertCorr_notices (s : State) : s.assertCorr.notices = s.notices := by unfold State.assertCorr; split <;> rfl
@[simp] theorem State.assertCorr_nextNotice (s : State) : s.assertCorr.nextNotice = s.nextNotice := by unfold State.assertCorr; split <;> rfl
@[simp] theorem State.assertCorr_wdn (s : State) : s.assertCorr.wdn = s.wdn := by unfold State.assertCorr; split <;> rfl
@[simp] theorem State.assertCorr_forwarded (s : State) : s.assertCorr.forwarded = s.forwarded := by unfold State.assertCorr; split <;> rfl
@[simp] theorem State.assertCorr_tray (s : State) : s.assertCorr.tray = s.tray := by unfold State.assertCorr; split <;> rfl
@[simp] theorem State.assertCorr_free (s : State) : s.assertCorr.free = s.free := by unfold State.assertCorr; split <;> rfl
@[simp] theorem State.assertCorr_pending (s : State) : s.assertCorr.pending = s.pending := by unfold State.assertCorr; split <;> rfl
theorem State.assertCorr_errCorr (s : State) : s.assertCorr.errCorr = if s.errFatal then s.errCorr else true := by
  unfold State.assertCorr; split <;> simp_all

@[simp] theorem State.count_time (s : State) (crn unit : Nat) : (s.count crn unit).time = s.time := by unfold State.count; dsimp only; split <;> simp
@[simp] theorem State.count_pace (s : State) (crn unit : Nat) : (s.count crn unit).pace = s.pace := by unfold State.count; dsimp only; split <;> simp
@[simp] theorem State.count_hb (s : State) (crn unit : Nat) : (s.count crn unit).hb = s.hb := by unfold State.count; dsimp only; split <;> simp
@[simp] theorem State.count_errFatal (s : State) (crn unit : Nat) : (s.count crn unit).errFatal = s.errFatal := by unfold State.count; dsimp only; split <;> simp
@[simp] theorem State.count_cores (s : State) (crn unit : Nat) : (s.count crn unit).cores = s.cores := by unfold State.count; dsimp only; split <;> simp
@[simp] theorem State.count_boot (s : State) (crn unit : Nat) : (s.count crn unit).boot = s.boot := by unfold State.count; dsimp only; split <;> simp
@[simp] theorem State.count_rings (s : State) (crn unit : Nat) : (s.count crn unit).rings = s.rings := by unfold State.count; dsimp only; split <;> simp
@[simp] theorem State.count_banks (s : State) (crn unit : Nat) : (s.count crn unit).banks = s.banks := by unfold State.count; dsimp only; split <;> simp
@[simp] theorem State.count_mem (s : State) (crn unit : Nat) : (s.count crn unit).mem = s.mem := by unfold State.count; dsimp only; split <;> simp
@[simp] theorem State.count_memBad (s : State) (crn unit : Nat) : (s.count crn unit).memBad = s.memBad := by unfold State.count; dsimp only; split <;> simp
@[simp] theorem State.count_memStacks (s : State) (crn unit : Nat) : (s.count crn unit).memStacks = s.memStacks := by unfold State.count; dsimp only; split <;> simp
@[simp] theorem State.count_strm (s : State) (crn unit : Nat) : (s.count crn unit).strm = s.strm := by unfold State.count; dsimp only; split <;> simp
@[simp] theorem State.count_drops (s : State) (crn unit : Nat) : (s.count crn unit).drops = s.drops := by unfold State.count; dsimp only; split <;> simp
@[simp] theorem State.count_reports (s : State) (crn unit : Nat) : (s.count crn unit).reports = s.reports := by unfold State.count; dsimp only; split <;> simp
@[simp] theorem State.count_links (s : State) (crn unit : Nat) : (s.count crn unit).links = s.links := by unfold State.count; dsimp only; split <;> simp
@[simp] theorem State.count_admitQueue (s : State) (crn unit : Nat) : (s.count crn unit).admitQueue = s.admitQueue := by unfold State.count; dsimp only; split <;> simp
@[simp] theorem State.count_bankNow (s : State) (crn unit : Nat) : (s.count crn unit).bankNow = s.bankNow := by unfold State.count; dsimp only; split <;> simp
@[simp] theorem State.count_units (s : State) (crn unit : Nat) : (s.count crn unit).units = s.units := by unfold State.count; dsimp only; split <;> simp
@[simp] theorem State.count_awaiting (s : State) (crn unit : Nat) : (s.count crn unit).awaiting = s.awaiting := by unfold State.count; dsimp only; split <;> simp
@[simp] theorem State.count_switchDue (s : State) (crn unit : Nat) : (s.count crn unit).switchDue = s.switchDue := by unfold State.count; dsimp only; split <;> simp
@[simp] theorem State.count_refusing (s : State) (crn unit : Nat) : (s.count crn unit).refusing = s.refusing := by unfold State.count; dsimp only; split <;> simp
@[simp] theorem State.count_stopped (s : State) (crn unit : Nat) : (s.count crn unit).stopped = s.stopped := by unfold State.count; dsimp only; split <;> simp
@[simp] theorem State.count_notices (s : State) (crn unit : Nat) : (s.count crn unit).notices = s.notices := by unfold State.count; dsimp only; split <;> simp
@[simp] theorem State.count_nextNotice (s : State) (crn unit : Nat) : (s.count crn unit).nextNotice = s.nextNotice := by unfold State.count; dsimp only; split <;> simp
@[simp] theorem State.count_wdn (s : State) (crn unit : Nat) : (s.count crn unit).wdn = s.wdn := by unfold State.count; dsimp only; split <;> simp
@[simp] theorem State.count_forwarded (s : State) (crn unit : Nat) : (s.count crn unit).forwarded = s.forwarded := by unfold State.count; dsimp only; split <;> simp
@[simp] theorem State.count_tray (s : State) (crn unit : Nat) : (s.count crn unit).tray = s.tray := by unfold State.count; dsimp only; split <;> simp
@[simp] theorem State.count_free (s : State) (crn unit : Nat) : (s.count crn unit).free = s.free := by unfold State.count; dsimp only; split <;> simp
@[simp] theorem State.count_pending (s : State) (crn unit : Nat) : (s.count crn unit).pending = s.pending := by unfold State.count; dsimp only; split <;> simp
/-- An event counts in its register and no other. -/
theorem State.count_events (s : State) (crn unit : Nat) :
    (s.count crn unit).events = s.events.put (evKey crn unit) (s.events.at (evKey crn unit) {}).hit := by
  unfold State.count; dsimp only; split <;> simp
@[simp] theorem State.count_at (s : State) (crn unit : Nat) :
    (s.count crn unit).events.at (evKey crn unit) {} = (s.events.at (evKey crn unit) {}).hit := by
  simp [State.count_events]
theorem State.count_at_ne (s : State) (crn unit : Nat) {k : Nat} (h : k ≠ evKey crn unit) :
    (s.count crn unit).events.at k {} = s.events.at k {} := by
  simp [State.count_events, Tab.at_put_ne _ _ _ h]
@[simp] theorem State.count_core (s : State) (crn unit n : Nat) : (s.count crn unit).core n = s.core n := by
  simp [State.core]
@[simp] theorem State.count_thr (s : State) (crn unit n : Nat) (t : BitVec 2) : (s.count crn unit).thr n t = s.thr n t := by
  simp [State.thr]
@[simp] theorem State.assertCorr_core (s : State) (n : Nat) : s.assertCorr.core n = s.core n := by simp [State.core]
@[simp] theorem State.assertCorr_thr (s : State) (n : Nat) (t : BitVec 2) : s.assertCorr.thr n t = s.thr n t := by
  simp [State.thr]

/-! ## Faults (R76, R78) -/

@[simp] theorem State.raise_time (s : State) (n : Nat) (t : BitVec 2) (r : FaultRec) : (s.raise n t r).time = s.time := by unfold State.raise; dsimp only; split <;> simp
@[simp] theorem State.raise_pace (s : State) (n : Nat) (t : BitVec 2) (r : FaultRec) : (s.raise n t r).pace = s.pace := by unfold State.raise; dsimp only; split <;> simp
@[simp] theorem State.raise_hb (s : State) (n : Nat) (t : BitVec 2) (r : FaultRec) : (s.raise n t r).hb = s.hb := by unfold State.raise; dsimp only; split <;> simp
@[simp] theorem State.raise_errFatal (s : State) (n : Nat) (t : BitVec 2) (r : FaultRec) : (s.raise n t r).errFatal = s.errFatal := by unfold State.raise; dsimp only; split <;> simp
@[simp] theorem State.raise_boot (s : State) (n : Nat) (t : BitVec 2) (r : FaultRec) : (s.raise n t r).boot = s.boot := by unfold State.raise; dsimp only; split <;> simp
@[simp] theorem State.raise_rings (s : State) (n : Nat) (t : BitVec 2) (r : FaultRec) : (s.raise n t r).rings = s.rings := by unfold State.raise; dsimp only; split <;> simp
@[simp] theorem State.raise_banks (s : State) (n : Nat) (t : BitVec 2) (r : FaultRec) : (s.raise n t r).banks = s.banks := by unfold State.raise; dsimp only; split <;> simp
@[simp] theorem State.raise_mem (s : State) (n : Nat) (t : BitVec 2) (r : FaultRec) : (s.raise n t r).mem = s.mem := by unfold State.raise; dsimp only; split <;> simp
@[simp] theorem State.raise_memBad (s : State) (n : Nat) (t : BitVec 2) (r : FaultRec) : (s.raise n t r).memBad = s.memBad := by unfold State.raise; dsimp only; split <;> simp
@[simp] theorem State.raise_memStacks (s : State) (n : Nat) (t : BitVec 2) (r : FaultRec) : (s.raise n t r).memStacks = s.memStacks := by unfold State.raise; dsimp only; split <;> simp
@[simp] theorem State.raise_strm (s : State) (n : Nat) (t : BitVec 2) (r : FaultRec) : (s.raise n t r).strm = s.strm := by unfold State.raise; dsimp only; split <;> simp
@[simp] theorem State.raise_drops (s : State) (n : Nat) (t : BitVec 2) (r : FaultRec) : (s.raise n t r).drops = s.drops := by unfold State.raise; dsimp only; split <;> simp
@[simp] theorem State.raise_reports (s : State) (n : Nat) (t : BitVec 2) (r : FaultRec) : (s.raise n t r).reports = s.reports := by unfold State.raise; dsimp only; split <;> simp
@[simp] theorem State.raise_links (s : State) (n : Nat) (t : BitVec 2) (r : FaultRec) : (s.raise n t r).links = s.links := by unfold State.raise; dsimp only; split <;> simp
@[simp] theorem State.raise_admitQueue (s : State) (n : Nat) (t : BitVec 2) (r : FaultRec) : (s.raise n t r).admitQueue = s.admitQueue := by unfold State.raise; dsimp only; split <;> simp
@[simp] theorem State.raise_bankNow (s : State) (n : Nat) (t : BitVec 2) (r : FaultRec) : (s.raise n t r).bankNow = s.bankNow := by unfold State.raise; dsimp only; split <;> simp
@[simp] theorem State.raise_units (s : State) (n : Nat) (t : BitVec 2) (r : FaultRec) : (s.raise n t r).units = s.units := by unfold State.raise; dsimp only; split <;> simp
@[simp] theorem State.raise_awaiting (s : State) (n : Nat) (t : BitVec 2) (r : FaultRec) : (s.raise n t r).awaiting = s.awaiting := by unfold State.raise; dsimp only; split <;> simp
@[simp] theorem State.raise_switchDue (s : State) (n : Nat) (t : BitVec 2) (r : FaultRec) : (s.raise n t r).switchDue = s.switchDue := by unfold State.raise; dsimp only; split <;> simp
@[simp] theorem State.raise_refusing (s : State) (n : Nat) (t : BitVec 2) (r : FaultRec) : (s.raise n t r).refusing = s.refusing := by unfold State.raise; dsimp only; split <;> simp
@[simp] theorem State.raise_stopped (s : State) (n : Nat) (t : BitVec 2) (r : FaultRec) : (s.raise n t r).stopped = s.stopped := by unfold State.raise; dsimp only; split <;> simp
@[simp] theorem State.raise_notices (s : State) (n : Nat) (t : BitVec 2) (r : FaultRec) : (s.raise n t r).notices = s.notices := by unfold State.raise; dsimp only; split <;> simp
@[simp] theorem State.raise_nextNotice (s : State) (n : Nat) (t : BitVec 2) (r : FaultRec) : (s.raise n t r).nextNotice = s.nextNotice := by unfold State.raise; dsimp only; split <;> simp
@[simp] theorem State.raise_wdn (s : State) (n : Nat) (t : BitVec 2) (r : FaultRec) : (s.raise n t r).wdn = s.wdn := by unfold State.raise; dsimp only; split <;> simp
@[simp] theorem State.raise_forwarded (s : State) (n : Nat) (t : BitVec 2) (r : FaultRec) : (s.raise n t r).forwarded = s.forwarded := by unfold State.raise; dsimp only; split <;> simp
@[simp] theorem State.raise_tray (s : State) (n : Nat) (t : BitVec 2) (r : FaultRec) : (s.raise n t r).tray = s.tray := by unfold State.raise; dsimp only; split <;> simp
@[simp] theorem State.raise_free (s : State) (n : Nat) (t : BitVec 2) (r : FaultRec) : (s.raise n t r).free = s.free := by unfold State.raise; dsimp only; split <;> simp
@[simp] theorem State.raise_pending (s : State) (n : Nat) (t : BitVec 2) (r : FaultRec) : (s.raise n t r).pending = s.pending := by unfold State.raise; dsimp only; split <;> simp
/-- A fault leaves the other threads of its core. -/
theorem State.raise_thr_ne (s : State) (n : Nat) {t u : BitVec 2} (r : FaultRec) (h : u ≠ t) :
    (s.raise n t r).thr n u = s.thr n u := by
  unfold State.raise; dsimp only; split <;> simp [State.thr_setThr_ne _ _ _ h]
/-- A fault leaves every other core. -/
theorem State.raise_core_ne (s : State) {n m : Nat} (t : BitVec 2) (r : FaultRec) (h : m ≠ n) :
    (s.raise n t r).core m = s.core m := by
  unfold State.raise; dsimp only; split <;> simp [State.core_setThr_ne _ _ _ h]
/-- A fault leaves every scratchpad. -/
@[simp] theorem State.raise_pad (s : State) (n m : Nat) (t : BitVec 2) (r : FaultRec) :
    ((s.raise n t r).core m).pad = (s.core m).pad := by
  unfold State.raise; dsimp only; split <;> simp

/-! ## Issue (R61, R66, R77) -/

/-- A word issues nothing where no core of its place is in service. -/
theorem State.issue_noSite (s : State) (i : Instr) (a : ThreadAt) (e : Thread → Option FaultRec) (b : Body)
    (h : s.siteOf a.row.toNat a.col.toNat = none) : s.issue i a e b = .next s := by
  simp [State.issue, h]

/-- A word waits where the die does not run or its thread is not ready for it. -/
theorem State.issue_waits (s : State) (i : Instr) (a : ThreadAt) (e : Thread → Option FaultRec) (b : Body) (n : Nat)
    (h : s.siteOf a.row.toNat a.col.toNat = some n) (r : (s.running && (s.core n).readyFor a i) = false) :
    s.issue i a e b = .next s := by
  simp [State.issue, h, r]

/-- A word that meets an early fault or a bad source raises it, and has no other effect. -/
theorem State.issue_faults (s : State) (i : Instr) (a : ThreadAt) (e : Thread → Option FaultRec) (b : Body) (n : Nat)
    (f : FaultRec) (h : s.siteOf a.row.toNat a.col.toNat = some n) (r : (s.running && (s.core n).readyFor a i) = true)
    (q : (earlyFault i (e ((s.core n).thr a.t))).or (((s.core n).thr a.t).sourceFault (sources i)) = some f) :
    s.issue i a e b = .next (s.raise n a.t f) := by
  simp [State.issue, h, r, q]

/-- A word with good sources does what its body says: a fault of its own, or the state after it. -/
theorem State.issue_runs (s : State) (i : Instr) (a : ThreadAt) (e : Thread → Option FaultRec) (b : Body) (n : Nat)
    (h : s.siteOf a.row.toNat a.col.toNat = some n) (r : (s.running && (s.core n).readyFor a i) = true)
    (q : (earlyFault i (e ((s.core n).thr a.t))).or (((s.core n).thr a.t).sourceFault (sources i)) = none) :
    s.issue i a e b = .next (match b n (s.core n) ((s.core n).thr a.t) with
      | .error f => s.raise n a.t f
      | .ok s' => s') := by
  simp only [State.issue, h, r, q, if_true]
  cases b n (s.core n) ((s.core n).thr a.t) <;> rfl

/-- Everything that issuing a word can do: nothing, a fault of its thread, or what its body answers. -/
theorem State.issue_cases (s s' : State) (i : Instr) (a : ThreadAt) (e : Thread → Option FaultRec) (b : Body)
    (h : s.issue i a e b = .next s') :
    s' = s ∨ ∃ n, s.siteOf a.row.toNat a.col.toNat = some n ∧
      ((∃ f, s' = s.raise n a.t f) ∨ b n (s.core n) ((s.core n).thr a.t) = .ok s') := by
  unfold State.issue at h
  split at h
  · exact .inl (by simpa using h.symm)
  · next n hn =>
    dsimp only at h
    split at h
    · refine .inr ⟨n, hn, ?_⟩
      split at h
      · next f _ => exact .inl ⟨f, by simpa using h.symm⟩
      · split at h
        · next f _ => exact .inl ⟨f, by simpa using h.symm⟩
        · next x hx => exact .inr (by rw [hx]; simpa using h)
    · exact .inl (by simpa using h.symm)

/-- Issuing always answers a next state. -/
theorem State.issue_next (s : State) (i : Instr) (a : ThreadAt) (e : Thread → Option FaultRec) (b : Body) :
    ∃ s', s.issue i a e b = .next s' := by
  unfold State.issue
  split
  · exact ⟨_, rfl⟩
  · dsimp only
    split
    · split
      · exact ⟨_, rfl⟩
      · split <;> exact ⟨_, rfl⟩
    · exact ⟨_, rfl⟩

/-! ## Retiring (R74) -/

@[simp] theorem Thread.retire_x (th : Thread) : th.retire.x = th.x := by
  unfold Thread.retire; split
  · split <;> rfl
  · rfl
@[simp] theorem Thread.retire_f (th : Thread) : th.retire.f = th.f := by
  unfold Thread.retire; split
  · split <;> rfl
  · rfl
@[simp] theorem Thread.retire_v (th : Thread) : th.retire.v = th.v := by
  unfold Thread.retire; split
  · split <;> rfl
  · rfl
@[simp] theorem Thread.retire_m (th : Thread) : th.retire.m = th.m := by
  unfold Thread.retire; split
  · split <;> rfl
  · rfl
@[simp] theorem Thread.retire_st (th : Thread) : th.retire.st = th.st := by
  unfold Thread.retire; split
  · split <;> rfl
  · rfl
@[simp] theorem Thread.retire_flags (th : Thread) : th.retire.flags = th.flags := by
  unfold Thread.retire; split
  · split <;> rfl
  · rfl
/-- Outside the last word of an active loop, retiring is pc + 4. -/
theorem Thread.retire_plain (th : Thread) (h : th.loopActive = false ∨ th.loopFrozen = true ∨ th.pc ≠ th.lend) :
    th.retire = { th with pc := th.pc + 4 } := by
  unfold Thread.retire
  rw [if_neg]
  rcases h with h | h | h <;> simp [h]

/-! ## A step -/

/-- A step with a command in front runs it on the rest of the queue. -/
theorem step_cons (s : State) (c : Instr) (r : List Instr) (h : s.pending = c :: r) :
    step s = exec c { s with pending := r } := by
  simp [step, h]

/-- A step on an empty queue is one idle cycle. -/
theorem step_nil (s : State) (h : s.pending = []) : step s = .next s.idle := by
  simp [step, h]

end Sys2Proof.Machine
end

