-- ==== Sys2Proof/Tests/Slice0.lean ====
section
/-! SUPPORT. Tests: ill-formed terms that WellFormed refuses, words written out from the spec's encodings, results worked
by hand from the spec's rules, and, for the statements, states and operands that meet their hypotheses. -/


namespace Sys2Proof.Tests
open Sys2Proof Sys2Proof.Machine
set_option maxRecDepth 4096
set_option Elab.async false

/-! ## Small states -/

/-- A route block whose one core in service is logical core (0.0), at site 0. -/
def blk0 : List Byte := List.replicate 264 0 ++ [0xFF#8]
def a0 : ThreadAt := { row := 0, col := 0, t := 0 }
def k0 : CoreAt := { row := 0, col := 0 }
/-- A running die with one core in service. -/
def die0 : State :=
  { boot := { inReset := false, running := true }, banks := Vector.replicate 2 { loaded := true, block := blk0 } }
/-- The die with c at site 0. -/
def withCore (c : Core) (s : State := die0) : State := s.setCore 0 c
/-- A core whose thread 0 is th, in RUN. -/
def coreOf (th : Thread) (c : Core := {}) : Core := c.setThr 0 { th with st := .run }
/-- The die whose core at site 0 runs th. -/
def die (th : Thread) (c : Core := {}) : State := withCore (coreOf th c)
/-- A thread at pc 8 with x registers set. -/
def thx (l : List (BitVec 5 × W64)) : Thread := l.foldl (fun th p => th.wx p.1 p.2) { pc := 8 }
/-- The state after a command. -/
def after (o : Out) : State :=
  match o with
  | .next s => s
  | _ => {}
/-- Thread 0 of the core after a command. -/
def thr0 (o : Out) : Thread := (after o).thr 0 0

def issuesB (i : Instr) (s : State) : Bool :=
  s.siteOf 0 0 == some 0 && s.running && i.wf && (s.core 0).readyFor a0 i &&
    ((s.thr 0 0).sourceFault (sources i)).isNone
theorem issues_of {i : Instr} {s : State} (h : issuesB i s = true) : Issues i a0 s 0 := by
  simp only [issuesB, Bool.and_eq_true, beq_iff_eq, Option.isNone_iff_eq_none] at h
  exact ⟨h.1.1.1.1, h.1.1.1.2, h.1.1.2, h.1.2, h.2⟩
/-- Every word of a list issues in s and has property p. -/
def wordsB (l : List Instr) (s : State) (p : Instr → Bool) : Bool :=
  l.all fun i => threadOf i == some a0 && issuesB i s && p i
theorem words_of {l : List Instr} {s : State} {p : Instr → Bool} (h : wordsB l s p = true) :
    ∀ i ∈ l, threadOf i = some a0 ∧ Issues i a0 s 0 ∧ p i = true := by
  intro i hi
  have h1 := List.all_eq_true.mp h i hi
  simp only [Bool.and_eq_true, beq_iff_eq] at h1
  exact ⟨h1.1.1, issues_of h1.1.2, h1.2⟩
/-- A thread that a core word could issue from, be the word well formed and its sources good or not. -/
def ready (i : Instr) (s : State) : Prop :=
  threadOf i = some a0 ∧ s.siteOf 0 0 = some 0 ∧ s.running = true ∧ (s.core 0).readyFor a0 i = true

/-- The outcome is a next state. -/
def nextB (o : Out) : Bool :=
  match o with
  | .next _ => true
  | _ => false
theorem next_of {o : Out} (h : nextB o = true) : ∃ s', o = .next s' := by
  cases o with
  | next s' => exact ⟨s', rfl⟩
  | fault f => exact Bool.noConfusion h
  | refused r => exact Bool.noConfusion h

theorem cells_nil (c : Core) (h : c.mregs = []) (code : BitVec 4) : Mem.wf (c.mreg code).bytes = true := by
  unfold Core.mreg mreg0; rw [h]; unfold Tab.at Tab.find; simp only [Option.getD]; split <;> rfl

/-! ## Witnesses: steps, integers, transfers, faults -/

theorem test_w_step_front : ({ die (thx []) with pending := [.park a0, .park a0] } : State).pending = [.park a0, .park a0] := rfl
theorem test_w_step_idle :
    die0.pending = [] ∧ die0.boot.powered = true ∧ die0.boot.inReset = false ∧
    ({} : State).pending = [] ∧ ({} : State).boot.inReset = true := by decide +kernel
theorem test_w_next : (∃ s', exec (.park a0) (die (thx [])) = .next s') ∧
    (∃ s', step { die0 with pending := [.modHbToggle] } = .next s') := ⟨⟨_, rfl⟩, ⟨_, rfl⟩⟩
theorem test_w_canonical : Canonical { die0 with mem := [(5, 1), (9, 0xFF)] } ∧
    Canonical (withCore { pad := [(0, 1), (0x7FFFF, 2)] }) := by
  refine ⟨⟨by decide +kernel, fun p => ⟨rfl, fun c => cells_nil _ rfl c⟩⟩, ⟨by decide +kernel, fun p => ?_⟩⟩
  by_cases h : p = 0
  · subst h; exact ⟨by decide +kernel, fun c => cells_nil _ rfl c⟩
  · rw [withCore, State.core_setCore_ne _ _ h]; exact ⟨rfl, fun c => cells_nil _ rfl c⟩
theorem test_w_fatal : ({ die0 with errFatal := true } : State).errFatal = true ∧
    isPowerOrReset (.modHbToggle) = false ∧
    ∃ s', exec .modHbToggle { die0 with errFatal := true } = .next s' := ⟨rfl, rfl, ⟨_, rfl⟩⟩

/-- The words of Table 3-6. -/
def ints : List Instr :=
  [.add a0 ⟨false, 3, 1, 2⟩, .sub a0 ⟨true, 3, 1, 2⟩, .andR a0 ⟨false, 3, 1, 2⟩, .orR a0 ⟨false, 3, 1, 2⟩,
   .xorR a0 ⟨false, 3, 1, 2⟩, .andn a0 ⟨false, 3, 1, 2⟩, .sll a0 ⟨false, 3, 1, 2⟩, .srl a0 ⟨true, 3, 1, 2⟩,
   .sra a0 ⟨true, 3, 1, 2⟩, .ror a0 ⟨false, 3, 1, 2⟩, .lts a0 ⟨false, 3, 1, 2⟩, .ltu a0 ⟨false, 3, 1, 2⟩,
   .minS a0 ⟨false, 3, 1, 2⟩, .maxS a0 ⟨false, 3, 1, 2⟩, .minu a0 ⟨false, 3, 1, 2⟩, .maxu a0 ⟨false, 3, 1, 2⟩,
   .clz a0 ⟨false, 3, 1⟩, .ctz a0 ⟨true, 3, 1⟩, .popc a0 ⟨false, 31, 1⟩, .mul a0 ⟨true, 3, 1, 2⟩,
   .mulhiS a0 ⟨3, 1, 2⟩, .mulhiU a0 ⟨3, 1, 2⟩, .mulhiSu a0 ⟨3, 1, 2⟩, .div a0 ⟨false, 3, 1, 2⟩,
   .divu a0 ⟨true, 3, 1, 0⟩, .rem a0 ⟨false, 3, 1, 0⟩, .remu a0 ⟨false, 0, 1, 2⟩]
/-- The immediate words of Table 3-7. -/
def imms : List Instr :=
  [.addi a0 ⟨3, 1, 0x8000⟩, .andi a0 ⟨3, 1, 0xFFFF⟩, .ori a0 ⟨3, 1, 0⟩, .xori a0 ⟨3, 1, 0x8000⟩, .ltsi a0 ⟨3, 1, 0x7FFF⟩,
   .ltui a0 ⟨3, 1, 0xFFFF⟩, .slli a0 ⟨false, 3, 1, 63⟩, .srli a0 ⟨true, 3, 1, 31⟩, .srai a0 ⟨true, 3, 1, 0⟩,
   .rori a0 ⟨false, 3, 1, 1⟩, .liu a0 ⟨3, 0x100000⟩]
def branches (off : BitVec 16) : List Instr :=
  [.beq a0 ⟨1, 2, off⟩, .bne a0 ⟨1, 2, off⟩, .blt a0 ⟨1, 2, off⟩, .bge a0 ⟨1, 2, off⟩, .bltu a0 ⟨1, 2, off⟩,
   .bgeu a0 ⟨1, 2, off⟩]
def th12 : Thread := thx [(1, BitVec.allOnes 64), (2, 3)]

theorem test_w_ints : ∀ i ∈ ints, threadOf i = some a0 ∧ Issues i a0 (die th12) 0 ∧
    (intRule i ((die th12).thr 0 0)).isSome = true := words_of (by decide +kernel)
theorem test_w_imms : ∀ i ∈ imms, threadOf i = some a0 ∧ Issues i a0 (die th12) 0 ∧
    (immRule i ((die th12).thr 0 0)).isSome = true := words_of (by decide +kernel)
/-- Taken and not taken; leaving the body of an active loop by one word at either end, and staying in it. -/
theorem test_w_branches : ∀ i ∈ branches 0x7FFF ++ branches 0x8000, threadOf i = some a0 ∧ Issues i a0 (die th12) 0 ∧
    (branchRule i ((die th12).thr 0 0)).isSome = true := words_of (by decide +kernel)
theorem test_w_branch_cases :
    (branchRule (.bge a0 ⟨1, 2, 1⟩) ((die th12).thr 0 0)) = some (false, 12) ∧
    (branchRule (.bgeu a0 ⟨1, 2, 1⟩) ((die th12).thr 0 0)) = some (true, 12) ∧
    leavesLoop th12 12 = false ∧
    leavesLoop { th12 with loopActive := true, lbeg := 4, lend := 12 } 12 = false ∧
    leavesLoop { th12 with loopActive := true, lbeg := 4, lend := 12 } 16 = true ∧
    leavesLoop { th12 with loopActive := true, lbeg := 4, lend := 12 } 0 = true := by decide +kernel
theorem test_w_jumps : ∀ i ∈ ([.jmp a0 ⟨0x2000000⟩, .jal a0 ⟨0x1FFFFFF⟩, .jlr a0 ⟨3, 1, 0x7FFC⟩, .jlr a0 ⟨3, 1, 0⟩] : List Instr),
    threadOf i = some a0 ∧ Issues i a0 (die (thx [(1, 0)])) 0 ∧ true = true := words_of (by decide +kernel)
/-- JLR to the last word of the store, to an address past it, and to one that is no multiple of 4. -/
theorem test_w_jlr : ((sgnOf false ((die (thx [(1, 0)])).thr 0 0 |>.rx 1) + simm 0x7FFC) % 2 ^ 64).toNat = 0x7FFC ∧
    ready (.jlr a0 ⟨3, 1, 4⟩) (die (thx [(1, 0x7FFC)])) ∧
    ((sgnOf false ((die (thx [(1, 0x7FFC)])).thr 0 0 |>.rx 1) + simm 4) % 2 ^ 64).toNat = 0x8000 ∧
    ((sgnOf false ((die (thx [(1, 0)])).thr 0 0 |>.rx 1) + simm 2) % 2 ^ 64).toNat = 2 := by
  refine ⟨by decide +kernel, ⟨rfl, by decide +kernel, by decide +kernel, by decide +kernel⟩, by decide +kernel, by decide +kernel⟩
theorem test_w_loop_end :
    (let th : Thread := { pc := 12, loopActive := true, lend := 12, lcnt := 2 }; atLoopEnd th = true ∧ 1 < th.lcnt.toNat) ∧
    (let th : Thread := { pc := 12, loopActive := true, lend := 12, lcnt := 1 }; atLoopEnd th = true ∧ th.lcnt.toNat = 1) ∧
    atLoopEnd { pc := 12, loopActive := true, loopFrozen := true, lend := 12, lcnt := 1 } = false ∧
    atLoopEnd { pc := 8, loopActive := true, lend := 12, lcnt := 1 } = false := by decide +kernel
/-- LOOP over 1 and 8,191 words, with a count of zero and more; n of 0 and 8,192, a body one word past the store, and a
loop that is active already. -/
def loopWords : List Instr := ([1, 2, 8191, 8192, 0] : List (BitVec 16)).map fun n => .loopI a0 ⟨1, n⟩
theorem test_w_loop : (∀ i ∈ loopWords, threadOf i = some a0 ∧ Issues i a0 (die { thx [(1, 2)] with pc := 0 }) 0 ∧ true = true) ∧
    (∀ i ∈ loopWords, threadOf i = some a0 ∧
      Issues i a0 (die { thx [(1, 0)] with pc := 0x7FF8, loopActive := true }) 0 ∧ true = true) :=
  ⟨words_of (by decide +kernel), words_of (by decide +kernel)⟩
theorem test_w_loop_bounds : 0 + 4 * 8191 ≤ 0x7FFC ∧ ¬ 4 + 4 * 8191 ≤ 0x7FFC ∧ 0x7FF8 + 4 * 1 ≤ 0x7FFC := by decide +kernel
theorem test_w_raise : (thx []).inFault = false ∧ ({ thx [] with fvecEnable := true } : Thread).fvecEnable = true ∧
    ({ thx [] with inFault := true } : Thread).inFault = true ∧ (thx []).fvecEnable = false ∧
    (die (thx [])).errFatal = false ∧ ({ die (thx []) with errFatal := true } : State).errFatal = true := by decide +kernel
theorem test_w_sys : ∀ i ∈ ([.fret a0, .trap a0 ⟨0x7FF⟩, .rdtime a0 ⟨0⟩, .rdtime a0 ⟨31⟩, .settc a0 ⟨1⟩, .park a0, .yieldI a0,
      .waitt a0 ⟨1⟩, .hbarm a0, .fence a0] : List Instr),
    threadOf i = some a0 ∧ Issues i a0 (die (thx [(1, 0)])) 0 ∧ true = true := words_of (by decide +kernel)
theorem test_w_fret : Issues (.fret a0) a0 (die { thx [] with inFault := true, fpc := 0x1FFF }) 0 ∧
    ({ thx [] with inFault := true, fpc := 0x1FFF } : Thread).inFault = true := ⟨issues_of (by decide +kernel), rfl⟩

/-! ## Witnesses: what precedes a word's own effect -/

theorem test_w_malformed : ready (.fadd a0 ⟨false, 6, 3, 1, 2⟩) (die (thx [])) ∧ (Instr.fadd a0 ⟨false, 6, 3, 1, 2⟩).wf = false := by
  refine ⟨⟨rfl, by decide +kernel, by decide +kernel, by decide +kernel⟩, by decide +kernel⟩
theorem test_w_not_run : (die (thx [])).siteOf 0 0 = some 0 ∧ ((withCore {}).thr 0 0).st ≠ .run ∧
    (∃ r ∈ sources (.add a0 ⟨false, 3, 1, 2⟩), ∃ n, (r, n) ∈ ((die { thx [] with waiting := [(.x 2, 5)] }).thr 0 0).waiting) := by
  refine ⟨by decide +kernel, by decide +kernel, .x 2, by decide +kernel, 5, by decide +kernel⟩
/-- A source of bad parity, and a poisoned one beside a good one. -/
theorem test_w_bad_sources :
    ready (.add a0 ⟨false, 3, 1, 2⟩) (die { thx [] with badParity := [.x 2], poison := [(.x 1, 64, false)] }) ∧
    (sources (.add a0 ⟨false, 3, 1, 2⟩)).find? (({ thx [] with badParity := [.x 2] } : Thread).badParity.contains ·) =
      some (.x 2) ∧
    (sources (.add a0 ⟨false, 3, 1, 2⟩)).find? ((thx []).badParity.contains ·) = none ∧
    (sources (.add a0 ⟨false, 3, 1, 2⟩)).findSome?
      (fun r => ({ thx [] with poison := [(.x 1, 64, false)] } : Thread).poison.find? (·.1 == r)) = some (.x 1, 64, false) := by
  refine ⟨⟨rfl, by decide +kernel, by decide +kernel, by decide +kernel⟩, by decide +kernel, by decide +kernel, by decide +kernel⟩
theorem test_w_bad_sources_lane : laneRule (.vadd a0 ⟨false, 3, 1, 2, 1⟩) (thx []) ≠ none ∧
    rmField (.vadd a0 ⟨false, 3, 1, 2, 1⟩) = none := ⟨Option.ne_none_iff_isSome.mpr rfl, rfl⟩
theorem test_w_not_running : ({ die0 with boot := { die0.boot with running := false } } : State).boot.running = false ∧
    ({ die0 with pace := { die0.pace with tripped := true } } : State).pace.tripped = true ∧
    ({ die0 with stopped := true } : State).stopped = true := by decide +kernel

/-! ## Witnesses: time -/

theorem test_w_waitt : (0 : Nat) < 2 ^ 64 - 1 ∧ 0 ≤ die0.time.clock.toNat / 2 ^ 40 ∧
    ¬ ((1 : W64).toNat < 2 ^ 64 - 1 ∧ (1 : W64).toNat ≤ die0.time.clock.toNat / 2 ^ 40) ∧
    ¬ ((BitVec.allOnes 64).toNat < 2 ^ 64 - 1) := by decide +kernel
theorem test_w_timer : (withCore (({} : Core).setThr 0 { thx [] with st := .sleep, tcmp := 5 })).siteOf 0 0 = some 0 ∧
    (withCore (({} : Core).setThr 0 { thx [] with st := .sleep, tcmp := 5 })).running = true ∧
    ((withCore (({} : Core).setThr 0 { thx [] with st := .sleep, tcmp := 5 })).thr 0 0).st = .sleep ∧
    ((withCore (({} : Core).setThr 0 { thx [] with st := .sleep, tcmp := 5 })).thr 0 0).tcmp ≠ BitVec.allOnes 64 ∧
    ((withCore (({} : Core).setThr 0 { thx [] with st := .sleep })).thr 0 0).tcmp = BitVec.allOnes 64 := by decide +kernel
theorem test_w_frame_next : (∃ s', exec (.add a0 ⟨false, 3, 1, 2⟩) (die th12) = .next s') ∧
    destsOf (.add a0 ⟨false, 3, 1, 2⟩) = some [.x 3] ∧ loads (.winv a0 ⟨1, 2⟩) = true ∧
    (∃ s', exec (.winv a0 ⟨1, 2⟩) (die th12) = .next s') := ⟨next_of (by decide +kernel), rfl, rfl, next_of (by decide +kernel)⟩
/-! ## Witnesses: floating point and vectors -/

/-- The words of Table 3-9 and of the FMA group. -/
def fps (d : Bool) (rm : BitVec 3) : List Instr :=
  [.fadd a0 ⟨d, rm, 3, 1, 2⟩, .fsub a0 ⟨d, rm, 3, 1, 2⟩, .fmul a0 ⟨d, rm, 3, 1, 2⟩, .fdiv a0 ⟨d, rm, 3, 1, 2⟩,
   .fsqrt a0 ⟨d, rm, 3, 1⟩, .fmin a0 ⟨d, 3, 1, 2⟩, .fmax a0 ⟨d, 3, 1, 2⟩, .fsgnC a0 ⟨d, 3, 1, 2⟩, .fsgnN a0 ⟨d, 3, 1, 2⟩,
   .fsgnX a0 ⟨d, 3, 1, 2⟩, .feq a0 ⟨d, 3, 1, 2⟩, .flt a0 ⟨d, 3, 1, 2⟩, .fle a0 ⟨d, 3, 1, 2⟩, .fclass a0 ⟨d, 3, 1⟩,
   .ftoiS64 a0 ⟨d, rm, 3, 1⟩, .ftoiU64 a0 ⟨d, rm, 3, 1⟩, .ftoiS32 a0 ⟨d, rm, 3, 1⟩, .ftoiU32 a0 ⟨d, rm, 3, 1⟩,
   .itofS64 a0 ⟨d, rm, 3, 1⟩, .itofU64 a0 ⟨d, rm, 3, 1⟩, .itofS32 a0 ⟨d, rm, 3, 1⟩, .itofU32 a0 ⟨d, rm, 3, 1⟩,
   .fnarrow a0 ⟨rm, 3, 1⟩, .fwiden a0 ⟨rm, 3, 1⟩, .movfx a0 ⟨d, 3, 1⟩, .movxf a0 ⟨d, 3, 1⟩,
   .fmadd a0 ⟨d, rm, 3, 1, 2, 4⟩, .fmsub a0 ⟨d, rm, 3, 1, 2, 4⟩, .fnmadd a0 ⟨d, rm, 3, 1, 2, 4⟩,
   .fnmsub a0 ⟨d, rm, 3, 1, 2, 4⟩]
theorem test_w_fps : ∀ i ∈ fps true 0 ++ fps false 5, threadOf i = some a0 ∧ Issues i a0 (die (thx [])) 0 ∧
    (modeGood i ((die (thx [])).thr 0 0) && (fpRule i ((die (thx [])).thr 0 0)).isSome) = true :=
  words_of (by decide +kernel)
theorem test_w_bad_mode : (∀ i ∈ fps true 0, i.wf = true ∧ (rmField i = some 0 ∨ rmField i = none)) ∧
    ((die { thx [] with rm := 0 }).thr 0 0).rm.toNat = 0 ∧ 5 < ((die { thx [] with rm := 6 }).thr 0 0).rm.toNat ∧
    ready (.vfadd a0 ⟨true, 0, 3, 1, 2, 1⟩) (die { thx [] with rm := 6 }) ∧
    (Instr.vfadd a0 ⟨true, 0, 3, 1, 2, 1⟩).wf = true ∧ rmField (.vfadd a0 ⟨true, 0, 3, 1, 2, 1⟩) = some 0 := by
  refine ⟨by decide +kernel, by decide +kernel, by decide +kernel, ⟨rfl, by decide +kernel, by decide +kernel, by decide +kernel⟩, by decide +kernel, rfl⟩
/-- 1 + 1 = 2, 2 - 1 = 1 and 2 x 2 = 4 in binary32. -/
theorem test_w_exact : ((fmtD false).decode 0x3F800000).rat = some 1 ∧ ((fmtD false).decode 0x40000000).rat = some 2 ∧
    ((fmtD false).decode 0x40800000).rat = some 4 ∧ (1 : Rat) + 1 = 2 ∧ (2 : Rat) - 1 = 1 ∧ (2 : Rat) * 2 = 4 ∧
    (2 : Rat) ≠ 0 := by
  refine ⟨by decide +kernel, by decide +kernel, by decide +kernel, by decide +kernel, by decide +kernel, by decide +kernel, by decide +kernel⟩
theorem test_w_nans : ((fmtD true).decode 0x7FF0000000000001).isNan = true ∧
    ((fmtD true).decode 0x7FF0000000000001).isSNan = true ∧ ((fmtD false).decode 0x7FC00000).isNan = true ∧
    ((fmtD false).decode 0x7F800000).isNan = false := by decide +kernel
/-- A vector register of which every word is w. -/
def vall (w : Nat) : V1024 := BitVec.ofNat 1024 ((List.range 32).foldl (fun acc k => acc + w * 2 ^ (32 * k)) 0)
theorem test_w_vmxs : Issues (.vmxs a0 ⟨3, 2, 0, 1, true⟩) a0 (die (thx [])) 0 ∧
    Issues (.vmxs a0 ⟨3, 2, 0, 1, false⟩) a0 (die (thx [])) 0 ∧
    laneV false (vall 0x7FFFFF) 31 = 0x7FFFFF ∧ laneV false (vall 0x7F800000) 31 = 0x7F800000 ∧
    laneV false (vall 0x7F7FFFFF) 31 = 0x7F7FFFFF :=
  ⟨issues_of (by decide +kernel), issues_of (by decide +kernel), by decide +kernel, by decide +kernel, by decide +kernel⟩
/-- VCVT with a mode of its own and with the thread's; VMX with its last good segment, the segment past it, and scale
0xFF; VCRC64 of 128 and of 129 bytes. -/
theorem test_w_conversions :
    (∀ i ∈ ([.vcvt a0 ⟨3, 1, 6, 1, 1, true, 3⟩, .vcvt a0 ⟨3, 1, 6, 1, 0, false, 0⟩, .vcvt a0 ⟨3, 1, 1, 6, 0, false, 3⟩, .vmxDown a0 ⟨4, 2, 9, 0, 1, true, 1, true⟩,
      .vmxUp a0 ⟨3, 1, 9, 0⟩, .vcrc64 a0 ⟨3, 1, 9⟩] : List Instr),
      threadOf i = some a0 ∧ Issues i a0 (die (thx [(9, 0x607F)])) 0 ∧ true = true) ∧
    (cvtPair 6 1).isSome = true ∧ (cvtPair 1 6).isSome = true ∧ (thx []).rm.toNat = 1 ∧ vmxG 0x607F < segsOf 0 ∧ vmxS 0x607F ≠ 255 ∧ segsOf 0 ≤ vmxG 0x807F ∧ vmxS 0xFF = 255 ∧
    (0x80 : W64).toNat % 256 ≤ 128 ∧ 128 < (0x81 : W64).toNat % 256 :=
  ⟨words_of (by decide +kernel), by decide +kernel⟩
/-- The lane-wise words of Tables 4-6 and 4-7 and of the VFMA group. -/
def laneWords (d : Bool) (rm m : BitVec 3) : List Instr :=
  [.vadd a0 ⟨d, 3, 1, 2, m⟩, .vsub a0 ⟨d, 3, 1, 2, m⟩, .vmul a0 ⟨d, 3, 1, 2, m⟩, .vmin a0 ⟨d, 3, 1, 2, m⟩,
   .vmax a0 ⟨d, 3, 1, 2, m⟩, .vsra a0 ⟨d, 3, 1, 2, m⟩, .vsll a0 ⟨d, 3, 1, 2, m⟩, .vsrl a0 ⟨d, 3, 1, 2, m⟩,
   .vand a0 ⟨d, 3, 1, 2, m⟩, .vor a0 ⟨d, 3, 1, 2, m⟩, .vxor a0 ⟨d, 3, 1, 2, m⟩, .vminu a0 ⟨d, 3, 1, 2, m⟩,
   .vmaxu a0 ⟨d, 3, 1, 2, m⟩, .vsplat a0 ⟨d, 3, 1, m⟩, .vperm a0 ⟨d, 3, 1, 2, m⟩, .vfadd a0 ⟨d, rm, 3, 1, 2, m⟩,
   .vfsub a0 ⟨d, rm, 3, 1, 2, m⟩, .vfmul a0 ⟨d, rm, 3, 1, 2, m⟩, .vfdiv a0 ⟨d, rm, 3, 1, 2, m⟩, .vfsqrt a0 ⟨d, rm, 3, 1, m⟩,
   .vfmin a0 ⟨d, 3, 1, 2, m⟩, .vfmax a0 ⟨d, 3, 1, 2, m⟩, .vfamax a0 ⟨d, 3, 1, 2, m⟩, .vfsgnC a0 ⟨d, 3, 1, 2, m⟩,
   .vfsgnN a0 ⟨d, 3, 1, 2, m⟩, .vfsgnX a0 ⟨d, 3, 1, 2, m⟩, .vfclass a0 ⟨d, 3, 1, m⟩, .vfmadd a0 ⟨d, 3, 1, 2, 4, m⟩,
   .vfmsub a0 ⟨d, 3, 1, 2, 4, m⟩, .vfnmadd a0 ⟨d, 3, 1, 2, 4, m⟩, .vfnmsub a0 ⟨d, 3, 1, 2, 4, m⟩]
def cmpWords (d : Bool) (md : BitVec 3) : List Instr :=
  [.vcmpeq a0 ⟨d, md, 1, 2, 0⟩, .vcmplt a0 ⟨d, md, 1, 2, 0⟩, .vcmpltu a0 ⟨d, md, 1, 2, 0⟩, .vfcmpeq a0 ⟨d, md, 1, 2, 0⟩,
   .vfcmplt a0 ⟨d, md, 1, 2, 0⟩, .vfcmple a0 ⟨d, md, 1, 2, 0⟩]
def moveWords : List Instr :=
  [.vmand a0 ⟨0, 1, 2⟩, .vmor a0 ⟨7, 1, 2⟩, .vmxor a0 ⟨1, 1, 2⟩, .vmandn a0 ⟨1, 1, 2⟩, .vmpopc a0 ⟨3, 0⟩, .vmfirst a0 ⟨3, 1⟩,
   .vmfx a0 ⟨1, 2⟩, .vmtx a0 ⟨3, 1⟩, .vmxr a0 ⟨3, 3⟩, .vmxw a0 ⟨1, 3⟩, .vext a0 ⟨true, 3, 1, 2⟩, .vpermb a0 ⟨3, 1, 2⟩]
theorem test_w_lanes : ∀ i ∈ laneWords true 0 0 ++ laneWords false 5 7, threadOf i = some a0 ∧
    Issues i a0 (die (thx [])) 0 ∧
    (modeGood i ((die (thx [])).thr 0 0) && (laneRule i ((die (thx [])).thr 0 0)).isSome) = true :=
  words_of (by decide +kernel)
theorem test_w_compares : ∀ i ∈ cmpWords true 0 ++ cmpWords false 7, threadOf i = some a0 ∧
    Issues i a0 (die (thx [])) 0 ∧ (cmpRule i ((die (thx [])).thr 0 0)).isSome = true := words_of (by decide +kernel)
theorem test_w_moves : ∀ i ∈ moveWords, threadOf i = some a0 ∧
    Issues i a0 (die (thx [])) 0 ∧ (moveRule i ((die (thx [])).thr 0 0)).isSome = true := words_of (by decide +kernel)
theorem test_w_vins_vsel : ∀ i ∈ ([.vins a0 ⟨true, 3, 1, 2⟩, .vsel a0 ⟨false, 3, 1, 2, 1⟩] : List Instr),
    threadOf i = some a0 ∧ Issues i a0 (die (thx [])) 0 ∧ true = true := words_of (by decide +kernel)
theorem test_w_reductions :
    ∀ i ∈ ([.vfrmax a0 ⟨true, 3, 1, 0⟩, .vfrmin a0 ⟨false, 3, 1, 1⟩, .vframax a0 ⟨false, 3, 1, 1⟩, .vfrsum a0 ⟨true, 5, 3, 1, 1⟩] : List Instr),
    threadOf i = some a0 ∧ Issues i a0 (die (thx [])) 0 ∧
    (modeGood i ((die (thx [])).thr 0 0) && (reductionRule i ((die (thx [])).thr 0 0)).isSome) = true :=
  words_of (by decide +kernel)

/-! ## Witnesses: loads and stores -/

/-- x1 at the scratchpad's base, x2 at its last 128 bytes, x4 at the last line of stack memory. -/
def thm : Thread := thx [(1, 0xFFFFF80000), (2, 0xFFFFFFFF80), (4, 0x59FFFFFFC0), (5, 4)]
def loadWords (ra : BitVec 5) (imm : BitVec 16) : List Instr :=
  [.ldB a0 ⟨3, ra, imm⟩, .ldBu a0 ⟨3, ra, imm⟩, .ldH a0 ⟨3, ra, imm⟩, .ldHu a0 ⟨3, ra, imm⟩, .ldW a0 ⟨3, ra, imm⟩,
   .ldWu a0 ⟨3, ra, imm⟩, .ldD a0 ⟨3, ra, imm⟩, .fldS a0 ⟨3, ra, imm⟩, .fldD a0 ⟨3, ra, imm⟩]
def storeWords (ra : BitVec 5) (imm : BitVec 16) : List Instr :=
  [.stB a0 ⟨3, ra, imm⟩, .stH a0 ⟨3, ra, imm⟩, .stW a0 ⟨3, ra, imm⟩, .stD a0 ⟨3, ra, imm⟩, .fstS a0 ⟨3, ra, imm⟩,
   .fstD a0 ⟨3, ra, imm⟩]
/-- At the first and the last 8 bytes of the scratchpad, and the last of stack memory. -/
theorem test_w_loads : ∀ i ∈ loadWords 1 0 ++ loadWords 2 0x78 ++ loadWords 4 0x38, threadOf i = some a0 ∧
    Issues i a0 (die thm) 0 ∧ (loadRule i).isSome = true := words_of (by decide +kernel)
theorem test_w_stores : ∀ i ∈ storeWords 1 0 ++ storeWords 2 0x78 ++ storeWords 4 0x38, threadOf i = some a0 ∧
    Issues i a0 (die thm) 0 ∧ (storeRule i).isSome = true := words_of (by decide +kernel)
theorem test_w_addresses : addrOf thm ⟨3, 1, 0⟩ = padBase ∧ addrOf thm ⟨3, 2, 0x78⟩ = 2 ^ 40 - 8 ∧
    addrOf thm ⟨3, 4, 0x38⟩ = 0x5A00000000 - 8 ∧ addrOf thm ⟨3, 1, 0⟩ % 8 = 0 ∧ addrOf thm ⟨3, 1, 1⟩ % 2 ≠ 0 ∧
    0x5A00000000 ≤ addrOf thm ⟨3, 4, 0x40⟩ ∧ addrOf thm ⟨3, 4, 0x40⟩ < padBase ∧ addrOf thm ⟨3, 2, 0x80⟩ = 2 ^ 40 ∧
    regionKind {} padBase = 0 ∧ regionKind { kinds := [(63, 1)] } (2 ^ 40 - 8) = 1 ∧
    regionKind { kinds := [(63, 2)] } (2 ^ 40 - 8) = 2 := by decide +kernel
theorem test_w_pad_good : PadGood {} padBase 8 ∧ PadGood {} (2 ^ 40 - 8) 8 ∧ PadGood {} (2 ^ 40 - 128) 128 :=
  ⟨⟨by decide +kernel, by decide +kernel, fun _ _ => List.not_mem_nil⟩,
   ⟨by decide +kernel, by decide +kernel, fun _ _ => List.not_mem_nil⟩,
   ⟨by decide +kernel, by decide +kernel, fun _ _ => List.not_mem_nil⟩⟩
/-- The line of x4 in the window cache, and not in it. -/
theorem test_w_window : Core.wcFind { wc := [(1016, { line := 0x167FFFFFF, data := 5 })] } (addrOf thm ⟨3, 4, 0⟩ / 64) =
      some (1016, { line := 0x167FFFFFF, data := 5 }) ∧ Core.wcFind {} (addrOf thm ⟨3, 4, 0⟩ / 64) = none := by decide +kernel
def vaccs : List Instr :=
  [.vld a0 ⟨3, 2, 1, 0⟩, .vldsW a0 ⟨3, 1, 5, 1, 0⟩, .vldsD a0 ⟨3, 1, 5, 0, 7⟩, .vbcW a0 ⟨3, 1, 1, 0⟩, .vbcD a0 ⟨3, 2, 0, 0⟩,
   .vst a0 ⟨3, 2, 1, 0⟩, .vstsW a0 ⟨3, 1, 5, 1, 0⟩, .vstsD a0 ⟨3, 1, 5, 0, 0⟩]
theorem test_w_vaccs : ∀ i ∈ vaccs, threadOf i = some a0 ∧ Issues i a0 (die thm) 0 ∧
    ((vloadRule i ((die thm).thr 0 0)).isSome || (vstoreRule i ((die thm).thr 0 0)).isSome) = true :=
  words_of (by decide +kernel)
/-- A unit-stride access to the last 128 bytes of the scratchpad: every lane is aligned, reached and in a plain region. -/
theorem test_w_vaccess : let th := { thm with m := Vector.replicate 8 0x80000001 }
    let e := unitStride th ⟨3, 2, 1, 0⟩
    ∀ k, e.active th k = true → e.tested k % e.unit = 0 ∧ PadGood {} (e.addr k) e.w ∧ padBase ≤ e.addr k ∧
      e.addr k < 2 ^ 40 ∧ regionKind {} (e.addr k) = 0 := by
  intro th e k h
  have hk : k < 32 := by
    simp only [VecAccess.active, Bool.and_eq_true, decide_eq_true_eq] at h
    have h1 : k < 128 / 4 := h.1
    omega
  have q : ∀ j, j < 32 → e.tested j % e.unit = 0 ∧ padBase ≤ e.addr j ∧ e.addr j + e.w ≤ 2 ^ 40 ∧ e.addr j < 2 ^ 40 ∧
      regionKind {} (e.addr j) = 0 := by decide +kernel
  have := q k hk
  exact ⟨this.1, ⟨this.2.1, this.2.2.1, fun _ _ => List.not_mem_nil⟩, this.2.1, this.2.2.2.1, this.2.2.2.2⟩
/-! ## Witnesses: tags, home accesses and tiles -/

/-- A core whose regions are plain, but for region 1, tagged, and region 2, a queue. -/
def coreTag (full : List Nat) (c : Core := {}) : Core := { c with kinds := [(1, 1), (2, 2)], full := full }
/-- x1 at the tagged region's base, x2 at its end less 128, x3 in the queue, x5 and x6 counts. -/
def tht : Thread := thx [(1, 0xFFFFF82000), (2, 0xFFFFF83F80), (3, 0xFFFFF84000), (4, 0xFFFFF80000), (5, 1), (6, 128)]
def tagWords (ra : BitVec 5) (sz : BitVec 2) (off : BitVec 10) : List Instr :=
  [.lde a0 ⟨7, ra, sz, off⟩, .ldk a0 ⟨7, ra, sz, off⟩, .stf a0 ⟨7, ra, sz, off⟩, .stp a0 ⟨7, ra, sz, off⟩]
theorem test_w_tag_words : ∀ i ∈ tagWords 1 0 0 ++ tagWords 2 2 0 ++ tagWords 1 1 0x3FF ++ tagWords 3 0 0 ++ tagWords 4 0 0,
    threadOf i = some a0 ∧ Issues i a0 (die tht (coreTag [128, 254, 255])) 0 ∧ (tagRule i).isSome = true :=
  words_of (by decide +kernel)
theorem test_w_tag_addresses : tagAddrOf tht ⟨7, 1, 0, 0⟩ % 8 = 0 ∧ regionKind (coreTag []) (tagAddrOf tht ⟨7, 1, 0, 0⟩) = 1 ∧
    tagAddrOf tht ⟨7, 2, 2, 0⟩ % 128 = 0 ∧ regionKind (coreTag []) (tagAddrOf tht ⟨7, 2, 2, 0⟩ + 127) = 1 ∧
    slotsOf (tagAddrOf tht ⟨7, 2, 2, 0⟩) 128 = [254, 255] ∧ tagAddrOf tht ⟨7, 1, 2, 1⟩ % 128 ≠ 0 ∧
    regionKind (coreTag []) (tagAddrOf tht ⟨7, 1, 0, 0x3FF⟩) = 0 ∧ regionKind (coreTag []) (tagAddrOf tht ⟨7, 3, 0, 0⟩) = 2 ∧
    tagAddrOf (thx []) ⟨7, 1, 0, 0⟩ < 0x5A00000000 ∧ 0x5A00000000 ≤ tagAddrOf (thx [(1, 0x5A00000000)]) ⟨7, 1, 0, 0⟩ ∧
    tagAddrOf (thx [(1, 0x5A00000000)]) ⟨7, 1, 0, 0⟩ < padBase := by decide +kernel
theorem served_of {c : Core} {now : Nat} {w : Waiter}
    (h : (w.slots.all (fun k => c.isFull k == decide (w.kind < 2)) && (c.waiters now).isEmpty) = true) : TagServed c now w := by
  simp only [Bool.and_eq_true, List.all_eq_true, beq_iff_eq, List.isEmpty_iff] at h
  exact ⟨h.1, fun v hv => by rw [h.2] at hv; exact absurd hv List.not_mem_nil⟩
theorem not_served {c : Core} {now : Nat} {w : Waiter} (h : ∃ k ∈ w.slots, c.isFull k = !decide (w.kind < 2)) : ¬ TagServed c now w := by
  obtain ⟨k, hk, e⟩ := h
  intro p
  have := p.1 k hk
  rw [e] at this
  cases hd : decide (w.kind < 2) <;> rw [hd] at this <;> cases this
/-- Served and not served: a consuming and a waiting read of a full and an empty slot, a filling store the other way. -/
theorem test_w_tag_served : TagServed (coreTag [128]) 0 { classA := true, order := 0, kind := 0, slots := [128] } ∧
    ¬ TagServed (coreTag []) 0 { classA := true, order := 0, kind := 0, slots := [128] } ∧
    TagServed (coreTag []) 0 { classA := false, order := 0, kind := 2, slots := [128] } ∧
    ¬ TagServed (coreTag [128]) 0 { classA := false, order := 0, kind := 2, slots := [128] } ∧
    TagServed (coreTag [254, 255]) 0 { classA := false, order := 0, kind := 1, slots := [254, 255] } ∧
    ¬ TagServed (coreTag [254]) 0 { classA := false, order := 0, kind := 1, slots := [254, 255] } :=
  ⟨served_of (by decide +kernel), not_served ⟨128, by decide, by decide +kernel⟩, served_of (by decide +kernel),
   not_served ⟨128, by decide, by decide +kernel⟩, served_of (by decide +kernel), not_served ⟨255, by decide, by decide +kernel⟩⟩
def waitFill : TagWait := { kind := 2, slots := [128], act := .store 0xFFFFF82000 [1, 2, 3, 4, 5, 6, 7, 8], order := 0 }
def thWait (w : TagWait) : Thread := { thx [] with st := .block, block := .tagged w }
/-- A filling store that waits, in time and too late, its slot empty; and a thread whose access has been served. -/
def waitCore (tcmp : W64) : Core := (coreTag []).setThr 0 { thWait waitFill with tcmp := tcmp }
theorem test_w_tag_grant : (withCore (waitCore 5)).siteOf 0 0 = some 0 ∧ ((withCore (waitCore 5)).thr 0 0).block = .tagged waitFill ∧
    (withCore (({} : Core).setThr 0 { thx [] with st := .block, block := .served })).siteOf 0 0 = some 0 ∧
    ((withCore (({} : Core).setThr 0 { thx [] with st := .block, block := .served })).thr 0 0).block = .served ∧
    inTime (thx []) 0 ∧ inTime { thx [] with tcmp := 5 } 4 ∧ ¬ inTime { thx [] with tcmp := 5 } 5 ∧
    (∀ w ∈ (waitCore 5).waiters 0, w.order = 0 ∧ tagReady (waitCore 5) w) ∧ ((waitCore 5).waiters 0).length = 1 ∧
    ((waitCore 5).waiters 5).isEmpty = true ∧ ((coreTag []).waiters 0).isEmpty = true := by
  refine ⟨by decide +kernel, by decide +kernel, by decide +kernel, by decide +kernel, .inl rfl, .inr (by decide), ?_, ?_, by decide +kernel,
    by decide +kernel, by decide +kernel⟩
  · rintro (h | h)
    · exact absurd h (by decide)
    · exact absurd h (by decide)
  · intro w hw
    have q : ((waitCore 5).waiters 0).all (fun w => w.order == 0 && w.slots.all fun k => (waitCore 5).isFull k == decide (w.kind < 2)) = true := by
      decide +kernel
    have := List.all_eq_true.mp q w hw
    simp only [Bool.and_eq_true, beq_iff_eq, List.all_eq_true] at this
    exact this
/-- Its grant: served where nothing goes first. -/
theorem test_w_tag_grant_served :
    TagServed (waitCore 5) 0 { classA := ((waitCore 5).thr 0).cls == 1, order := waitFill.order, kind := waitFill.kind, slots := waitFill.slots } := by
  refine ⟨by unfold tagReady; decide +kernel, fun v hv ho => absurd ?_ ho⟩
  have q : ((waitCore 5).waiters 0).all (fun w => w.order == 0) = true := by decide +kernel
  exact beq_iff_eq.mp (List.all_eq_true.mp q v hv)
/-- TPROBE of the first byte, TSETE and TSETF of the 128 slots of the tagged region, SZERO of the plain and tagged ones. -/
theorem test_w_tag_control : (∀ i ∈ ([.tprobe a0 ⟨7, 4⟩, .tsete a0 ⟨1, 6⟩, .tsetf a0 ⟨1, 6⟩, .szero a0 ⟨4, 6⟩,
      .winv a0 ⟨1, 0⟩, .winv a0 ⟨1, 6⟩] : List Instr),
      threadOf i = some a0 ∧ Issues i a0 (die tht (coreTag [128])) 0 ∧ true = true) ∧
    (tht.rx 1).toNat - padBase = 64 * 128 ∧ (tht.rx 6).toNat = 128 ∧ (0xFFFFFFFFC0 - padBase) / 64 + 1 = 8192 ∧
    (∀ k, k < 128 → (coreTag [128]).kindAt (64 * (128 + k)) = 1 ∧ (coreTag [128]).kindAt (64 * k) ≠ 2) :=
  ⟨words_of (by decide +kernel), by decide +kernel⟩
def homeWords (ra : BitVec 5) : List Instr :=
  [.ldvD a0 ⟨7, ra⟩, .ldvW a0 ⟨0, ra⟩, .ldvL a0 ⟨7, ra⟩, .amoAdd a0 ⟨7, ra, 5⟩, .amoAnd a0 ⟨7, ra, 5⟩, .amoOr a0 ⟨7, ra, 5⟩,
   .amoXor a0 ⟨7, ra, 5⟩, .amoMin a0 ⟨7, ra, 5⟩, .amoMax a0 ⟨7, ra, 5⟩, .amoMinu a0 ⟨7, ra, 5⟩, .amoMaxu a0 ⟨7, ra, 5⟩,
   .amoSwap a0 ⟨0, ra, 5⟩, .amoCas a0 ⟨7, ra, 5⟩]
/-- The last line of stack memory, the first byte past it, and an odd address. -/
theorem test_w_home : ∀ i ∈ homeWords 1 ++ homeWords 2 ++ homeWords 3, threadOf i = some a0 ∧
    Issues i a0 (die (thx [(1, 0x59FFFFFFC0), (2, 0x5A00000000), (3, 1)])) 0 ∧ (homeRule i).isSome = true :=
  words_of (by decide +kernel)
theorem test_w_fence : Issues (.fence a0) a0 (die (thx [])) 0 ∧ (die (thx [])).deferred 0 0 = none ∧
    (let s := withCore (({} : Core).setThr 0 { thx [] with st := .block, block := .fence })
     s.siteOf 0 0 = some 0 ∧ (s.thr 0 0).block = .fence ∧ s.deferred 0 0 = none ∧ (s.core 0).loads = [] ∧ (s.core 0).reqs = [] ∧
     (s.core 0).tileOps = []) ∧
    (let r : Req := { txn := 0, kind := .store 0, thread := 0, line := 0, dst := 0, epoch := 0, deadline := 1 }
     let s := withCore (({ reqs := [r] } : Core).setThr 0 { thx [] with st := .block, block := .fence })
     (s.thr 0 0).block = .fence ∧ r ∈ (s.core 0).reqs ∧ r.thread = 0) :=
  ⟨issues_of (by decide +kernel), by decide +kernel, by decide +kernel, by decide +kernel⟩

/-- Thread 0 owns every matrix register. -/
def allOwned : BitVec 48 := 0x924924924924#48
def full32 : MReg := { valid := BitVec.allOnes 32, fmt := 9, lay := 1 }
/-- Thread 0 owns every register; tile 0 is INT8 in AIL, tile 1 INT8 in BIL, accumulators and scale tiles valid. -/
def coreMat : Core :=
  { tileOwn := allOwned, mregs := [(0, full32), (1, { full32 with lay := 2 }), (8, full32), (9, full32), (12, full32), (13, full32)] }
theorem matGood_of {c : Core} {t : BitVec 2} {code : BitVec 4} {rows : List Nat}
    (h : (c.owns t code && rows.all (fun r => !(c.mreg code).badRow code r && (c.mreg code).valid.getLsbD r) &&
      (c.mreg code).rowFault == none && !(c.mreg code).poisoned) = true) : MatGood c t code rows := by
  simp only [Bool.and_eq_true, List.all_eq_true, Bool.not_eq_true', beq_iff_eq] at h
  exact ⟨h.1.1.1, fun r hr => (h.1.1.2 r hr).1, h.1.2, h.2, fun r hr => (h.1.1.2 r hr).2⟩
/-- x1 and x3 bases in scratchpad and stack memory, x2 the least stride of a tile, x4 that of a scale tile, x6 bad. -/
def thTile : Thread := thx [(1, 0xFFFFFFF000), (2, 128), (3, 0x59FFFFF000), (4, 8), (5, 64), (6, 1)]
def tileWords : List Instr :=
  [.tld a0 ⟨0, 1, 2, 1, 9, 31, false⟩, .tld a0 ⟨8, 1, 2, 0, 1, 0, true⟩, .tlds a0 ⟨0, 1, 4, false⟩, .tlds a0 ⟨0, 1, 4, true⟩,
   .tst a0 ⟨0, 3, 2, 31⟩, .tst a0 ⟨8, 1, 2, 31⟩, .tsts a0 ⟨0, 1, 4⟩, .tld a0 ⟨0, 6, 2, 1, 9, 31, false⟩,
   .tld a0 ⟨0, 1, 6, 1, 9, 31, false⟩]
theorem test_w_tile_words : ∀ i ∈ tileWords, threadOf i = some a0 ∧ Issues i a0 (die thTile coreMat) 0 ∧
    (tileRule i).isSome = true := words_of (by decide +kernel)
/-- A TST of 32 rows to the last 4 KiB of the scratchpad: aligned, every row reached and readable. -/
theorem test_w_tile_access : let e : TileAccess := { code := 8, ra := 1, rb := 2, nrow := 32, store := true, resume := false, unit := 64, low := 128 }
    coreMat.owns 0 e.code = true ∧ e.aligned thTile ∧
    (∀ r, r < 32 → padBase ≤ e.row thTile r ∧ e.row thTile r + 128 ≤ 2 ^ 40) ∧
    (∀ k, k < 4096 / 0x1000 → coreMat.kindAt (0x7F000 + k) = 0) ∧ MatGood coreMat 0 8 (List.range 32) := by
  refine ⟨by decide +kernel, ⟨by decide +kernel, by decide +kernel, by decide +kernel, by decide +kernel⟩, by decide +kernel,
    by decide +kernel, matGood_of (by decide +kernel)⟩
/-- The same rows in stack memory. -/
theorem test_w_tile_rows : ∀ r, r < 32 → rowReached coreMat true
    (({ code := 0, ra := 3, rb := 2, nrow := 32, store := true, resume := false, unit := 64, low := 128 } : TileAccess).row thTile r) 128 := by
  intro r hr
  refine .inl ?_
  revert r
  decide +kernel
/-- Resuming: with no row valid, with the first valid, with all of them; a register that is not owned. -/
theorem test_w_tile_resume : (coreMat.mreg 12).valid.getLsbD 31 = true ∧ (coreMat.mreg 14).valid.getLsbD 0 = false ∧
    (let m : MReg := { valid := 1 }; m.valid.getLsbD 0 = true ∧ m.valid.getLsbD 1 = false) ∧
    coreMat.owns 1 0 = false ∧ ({} : Core).owns 0 0 = false ∧
    (thTile.rx 6).toNat % 64 ≠ 0 ∧ (thTile.rx 2).toNat % 64 = 0 ∧ 2 ^ 40 ≤ (2 ^ 40 : W64).toNat := by decide +kernel
def tileOp0 (store : Bool) : TileOp :=
  { id := 0, thread := 0, reg := 8, store := store, base := 0xFFFFFFF000, stride := 128, first := 0, nrow := 32
    rows := [(30, .written), (31, .pending)] }
/-- The port has a load's last row to move, a store's, and none. -/
theorem test_w_port : (withCore { coreMat with tileOps := [tileOp0 true] }).siteOf 0 0 = some 0 ∧
    ({ coreMat with tileOps := [tileOp0 true] } : Core).portChoice = some (tileOp0 true, 31) ∧
    ({ coreMat with tileOps := [tileOp0 false] } : Core).portChoice = some (tileOp0 false, 31) ∧
    coreMat.portChoice = none ∧ padBase ≤ (tileOp0 true).rowAddr 31 ∧
    (tileOp0 true).rowAddr 31 + (tileOp0 true).rowSize ≤ 2 ^ 40 ∧
    (∀ j, j < 128 → regionKind coreMat ((tileOp0 true).rowAddr 31 + j) = 0 ∧
      ((tileOp0 true).rowAddr 31 - padBase + j) / 8 ∉ coreMat.padBad) ∧
    (tileOp0 true).rows = [(30, .written)] ++ (31, .pending) :: [] := by decide +kernel
def moveTiles : List Instr :=
  [.tscw a0 ⟨0, 1, 2⟩, .tscf a0 ⟨1, 1⟩, .twr a0 ⟨0, 1, 2, 9, 1⟩, .twr a0 ⟨1, 1, 2, 1, 0⟩, .trd a0 ⟨0, 3, 2⟩, .trl a0 ⟨1, 1⟩,
   .tz a0 ⟨7, 10, 2⟩]
def matWords : List Instr :=
  [.mma a0 ⟨0, 0, 1, 0, 0, 9, false, true, true⟩, .mma a0 ⟨1, 0, 1, 0, 1, 9, true, false, false⟩, .azero a0 ⟨3⟩, .acopy a0 ⟨3, 0⟩,
   .amax a0 ⟨0, 1⟩, .amin a0 ⟨0, 0⟩, .ascr a0 ⟨0, 1⟩, .asubr a0 ⟨0, 1⟩, .ard a0 ⟨3, 0, 2⟩, .awr a0 ⟨3, 1, 2⟩, .armax a0 ⟨3, 0⟩,
   .armin a0 ⟨3, 1⟩]
theorem test_w_mat_words : ∀ i ∈ moveTiles ++ matWords, threadOf i = some a0 ∧ Issues i a0 (die thTile coreMat) 0 ∧ true = true :=
  words_of (by decide +kernel)
theorem test_w_mat_good : MatGood coreMat 0 (tileCode 0) rows32 ∧ MatGood coreMat 0 (tileCode 1) rows32 ∧
    MatGood coreMat 0 (accCode 0) rows32 ∧ MatGood coreMat 0 (accCode 1) rows32 ∧ MatGood coreMat 0 (scaleCodeOf 0) rows32 ∧
    MatGood coreMat 0 (scaleCodeOf 1) rows32 ∧ MatGood coreMat 0 (tileCode 0) [31] ∧
    (coreMat.mreg (tileCode 0)).fmt = 9 ∧ (coreMat.mreg (tileCode 0)).lay = 1 ∧ (coreMat.mreg (tileCode 1)).lay = 2 ∧
    coreMat.owns 0 (tileCode 7) = true ∧ coreMat.owns 0 (accCode 3) = true :=
  ⟨matGood_of (by decide +kernel), matGood_of (by decide +kernel), matGood_of (by decide +kernel), matGood_of (by decide +kernel),
   matGood_of (by decide +kernel), matGood_of (by decide +kernel), matGood_of (by decide +kernel), by decide +kernel, by decide +kernel, by decide +kernel, by decide +kernel, by decide +kernel⟩
theorem test_w_mma_running :
    (withCore { coreMat with mma := some { thread := 0, op := ⟨0, 0, 1, 0, 0, 9, false, true, true⟩ } }).siteOf 0 0 = some 0 := by
  decide +kernel
/-! ## Witnesses: responses, scions, rings -/

/-- A response flit for class A, stream 1, with tag 5. -/
def flit (kind : BitVec 4) (payload : Line := 0) : Flit :=
  { kind := kind, cls := 1, resp := true, ep := 0, index := 0, last := true, dst := 0, src := 0x800, txn := 5, payload := payload }
def req (k : ReqKind) : Req := { txn := 5, kind := k, thread := 0, line := 7, dst := 0, epoch := 0, deadline := 100 }
def awaits (k : ReqKind) : Core := { reqs := [req k], memIn := [flit k.answer] }
theorem test_w_fill : (withCore (awaits (.fill 1))).siteOf 0 0 = some 0 ∧
    ((withCore (awaits (.fill 1))).core 0).memIn = flit (ReqKind.fill 1).answer :: [] ∧
    (awaits (.fill 1)).reqOf (flit (ReqKind.fill 1).answer) = some (req (.fill 1)) ∧
    respGood (flit (ReqKind.fill 1).answer) = true ∧
    ({ awaits (.fill 1) with fills := [{ txn := 5, line := 7, cls := .a }] } : Core).fills.find? (fun g => g.txn == 5) =
      some { txn := 5, line := 7, cls := .a } ∧
    (awaits (.fill 1)).wcFind 7 = none ∧ (∀ f ∈ (awaits (.store 64)).memIn, (awaits (.store 64)).answers ReqKind.isFill f = false) := by
  decide +kernel
theorem test_w_store_response : ((withCore (awaits (.store 64))).core 0).memIn = flit (ReqKind.store 64).answer :: [] ∧
    (flit (ReqKind.store 64).answer).kind ≠ 8 ∧
    (awaits (.store 64)).reqOf (flit (ReqKind.store 64).answer) = some (req (.store 64)) ∧
    (awaits (.store 64)).reqs.find? (fun q => (if q.kind.isBurst then 8192 + q.txn else q.txn) == 5) = some (req (.store 64)) ∧
    (req (.store 64)).txn < 4096 ∧ (req (.store 64)).deadline < 2 ^ 64 := by decide +kernel
theorem test_w_tile_row : let op : TileOp := { tileOp0 false with rows := [(31, .lines [7] [])] }
    let c : Core := { awaits (.tileFill 0 31) with tileOps := [op] }
    (withCore c).siteOf 0 0 = some 0 ∧ c.memIn = flit (ReqKind.tileFill 0 31).answer :: [] ∧
    c.reqOf (flit (ReqKind.tileFill 0 31).answer) = some (req (.tileFill 0 31)) ∧
    c.tileOps.find? (·.id == 0) = some op ∧ op.rows = [(31, .lines [7] [])] ∧
    respGood { flit (ReqKind.tileFill 0 31).answer with bad := 1 } = false := by decide +kernel
/-- Deposits into the first plain slot, an empty and a full tagged slot, and the last slot. -/
def deposit (slot : Nat) : Flit := { flit 8 with addr := BitVec.ofNat 40 (padBase + 64 * slot) }
theorem test_w_deposit : ∀ n ∈ [0, 128, 255, 8191], (deposit n).kind = 8 ∧ (deposit n).addr.toNat % 2 ^ 19 / 64 = n := by
  decide +kernel
theorem test_w_deposit_slots : (withCore (coreTag [255] { memIn := [deposit 255] })).siteOf 0 0 = some 0 ∧
    (coreTag [255]).kindAt (64 * 255) = 1 ∧ (coreTag [255]).isFull 255 = true ∧ (coreTag [255]).isFull 128 = false ∧
    (coreTag []).kindAt (64 * 8191) = 0 := by decide +kernel
theorem test_w_scrub : die0.epoch % die0.boot.rs.scrubEpochs = 0 ∧ ({} : Core).scrubRun = false ∧ ({} : Core).scrubAt ≠ some die0.epoch ∧
    ({ scrubAt := some 0 } : Core).scrubAt = some die0.epoch ∧
    ({ scrubRun := true, nextSlot := 8191 } : Core).nextSlot = 8191 ∧ ({ scrubRun := true, nextSlot := 8190 } : Core).nextSlot < 8191 := by
  decide +kernel

/-- A class B image at the scratchpad's base: version 1, no payload, handler 9. -/
def image : List Host.Cell := [(0, 9), (2, 0x10)]
def thSend : Thread := { thx [(1, 0xFFFFF80000), (2, 0), (3, 0xFFFFF80001), (4, 0), (5, 2 ^ 40 - 320), (6, 2 ^ 28)] with cls := 2 }
/-- The die with a boot plan's shape, so that core (0.0) is a destination. -/
def dieSend (c : Core) : State := die thSend { c with pad := image }
theorem test_w_send : ∀ i ∈ ([.send a0 ⟨7, 1, 2, 0, 2⟩, .send a0 ⟨0, 1, 2, 0, 3⟩, .send a0 ⟨7, 3, 2, 0, 2⟩, .send a0 ⟨7, 4, 2, 0, 2⟩,
      .send a0 ⟨7, 1, 2, 0, 1⟩, .send a0 ⟨7, 1, 6, 0, 2⟩, .send a0 ⟨7, 5, 2, 0, 2⟩] : List Instr),
    threadOf i = some a0 ∧ Issues i a0 (dieSend {}) 0 ∧ true = true := words_of (by decide +kernel)
def entry0 : SendEntry := { slot := 0, cls := .b, image := List.replicate 64 0, dest := 0, span := none, thread := 0, seq := 3 }
/-- Class B's 16 entries all taken, or one free. -/
def fullB : List SendEntry := (List.range 16).map fun n => { entry0 with slot := n }
theorem test_w_send_room : (dieSend {}).sendFault ((dieSend {}).core 0) 0 ((dieSend {}).thr 0 0) ⟨7, 1, 2, 0, 2⟩ = none ∧
    (fullB.filter fun e => e.cls == .b).length = 16 ∧ ((fullB.drop 1).filter fun e => e.cls == .b).length < 16 ∧
    ((withCore (({} : Core).setThr 0 { thSend with st := .block, block := .send ⟨7, 1, 2, 0, 2⟩ })).thr 0 0).block =
      .send ⟨7, 1, 2, 0, 2⟩ := by decide +kernel
/-- x5's image ends at the end of the scratchpad; x6 names a destination with a reserved bit; x3 is odd; x4 is no scratchpad. -/
theorem test_w_send_faults : hdrLength (Mem.readN image 0 64) ≤ 256 ∧ hdrVersion (Mem.readN image 0 64) = 1 ∧
    hdrVersion (Mem.readN [] (2 ^ 19 - 320) 64) ≠ 1 ∧ (thSend.rx 5).toNat + 320 ≤ 2 ^ 40 ∧ (thSend.rx 3).toNat % 64 ≠ 0 ∧
    (thSend.rx 4).toNat < padBase ∧ (dieSend {}).destOk (thSend.rx 6) none = false ∧
    (dieSend {}).destOk (thSend.rx 2) none = true ∧ (1 : BitVec 2).toNat < thSend.cls.toNat := by decide +kernel
def sends (e : SendEntry) : Core := { sends := [e], respIn := [{ flit 1 (5 * 2 ^ 32) with txn := 4 }] }
theorem test_w_inject : (withCore (sends entry0)).siteOf 0 0 = some 0 ∧
    (sends entry0).sends.find? (fun x => x.cls == .b && x.st == .waiting) = some entry0 ∧ (sends entry0).sendTurn .b = true ∧
    (withCore (sends entry0)).sendDst entry0 = some 0 ∧ (withCore (sends entry0)).sendDst { entry0 with dest := 7 } = none := by
  decide +kernel
/-- An offered scion whose response is one of the codes of Table 7-8, with retries left and without. -/
theorem test_w_answers : let e : SendEntry := { entry0 with st := .offered 4 100 }
    ({ sends e with retryLimit := Vector.replicate 3 4 } : Core).retryMax e.cls = 4 ∧ e.retries < 4 ∧ (sends e).retryMax e.cls ≤ e.retries ∧
    (sends e).sends.find? (fun x => match x.st with
      | .offered t _ => t == (4 : BitVec 12).toNat
      | _ => false) = some e ∧
    (sends e).sends.find? (fun x => x.cls == .b && x.slot == 0) = some e ∧
    (∀ code, code < 16 → (flit 1 (BitVec.ofNat 512 (code * 2 ^ 32))).payload.toNat / 2 ^ 32 % 16 = code) := by decide +kernel
theorem test_w_retry : (sends { entry0 with st := .delay 64 }).sends.find? (fun x => x.cls == .b && x.slot == 0) =
    some { entry0 with st := .delay 64 } := by decide +kernel

/-- Class B's queue: two entries of one slot from slot 0; handler 9 takes class B, one slot. -/
def coreQ (c : Core := {}) : Core :=
  { c with qcfg := Vector.ofFn fun i => if i.val = 1 then 2 * 2 ^ 13 + 2 ^ 22 else 0#32, handlers := [(9, BitVec.ofNat 32 (2 ^ 15 + 2 ^ 17 + 2 ^ 21 + 4 * 0x1FFF))]
           dmask := 0xFFF }
/-- A header for handler 9 in class B, version 1, without payload; and one of version 0. -/
def arrive (version : Nat) : Flit :=
  { flit 0 (BitVec.ofNat 512 (9 + 2 * 2 ^ 8 + version * 2 ^ 20)) with cls := 2, resp := false }
theorem test_w_arrival : let c := coreQ { scionIn := [arrive 1] }
    (withCore c).siteOf 0 0 = some 0 ∧ c.scionIn = arrive 1 :: [] ∧ (arrive 1).bad = 0 ∧ (arrive 1).kind = 0 ∧
    clsOf (arrive 1).cls = .b ∧ c.qSlot .b (c.queue .b).next < 8192 ∧ c.arrivals.any (·.is (arrive 1)) = false ∧
    (match c.arrivalCheck (arrive 1) (lineBytes (arrive 1).payload) with | .queue => true | _ => false) = true ∧
    (match c.arrivalCheck (arrive 0) (lineBytes (arrive 0).payload) with | .refuse n => n == 8 | _ => false) = true := by
  decide +kernel
/-- The second and last flit of a scion that is arriving, into a queue and to be spilled; one of another class. -/
theorem test_w_flit_write : let r : Arrival := { src := 0x800, cls := 2, txn := 5, next := 1, total := 2, seq := 0, kind := .queue 1 [arrive 1] }
    let f : Flit := { arrive 1 with index := 1 }
    let r2 : Arrival := { r with kind := .spill 0 [arrive 1] }
    [r].find? (·.is f) = some r ∧ f.index.toNat = r.next ∧ f.last = (r.next + 1 == r.total) ∧ r.cls = f.cls ∧
    (f.last = true ∧ ({ f with last := false } : Flit).last = false) ∧ [r2].find? (·.is f) = some r2 ∧ r2.total = r2.next + 1 ∧
    [r].find? (·.is { f with cls := 3 }) = some r ∧ ({ f with cls := 3 } : Flit).cls ≠ r.cls := by decide +kernel
/-- A spill burst that waits for its answer, one whose deadline has passed, a spilled entry that may come back, and one whose
lines are back, good or not. -/
def spill0 : SpillWait := { cls := .b, idx := 0, src := 0, txn := 0, seq := 0, burst := 5, dst := 0x810, epoch := 0, deadline := 100 }
def spillCore : Core :=
  { coreQ with
    spillWaits := [spill0], memIn := [flit 9]
    queues := Vector.ofFn fun i => if i.val = 1 then { spill := [{ idx := 4095, st := .held }], spilling := true } else {} }
def refill0 (got : Option (Line × BitVec 8)) : Refill :=
  { cls := .b, idx := 4095, dst := 0x810, reads := (List.range 5).map fun i => { txn := i, epoch := 0, deadline := 100, got := some got } }
theorem test_w_spill : (withCore spillCore).siteOf 0 0 = some 0 ∧ spillCore.memIn = flit 9 :: [] ∧
    spillCore.spillOf (flit 9) = some spill0 ∧ spill0.cls = .b ∧ respGood (flit 9) = true ∧ respGood { flit 9 1 with bad := 1 } = false ∧
    (let c := { spillCore with memIn := [], spillWaits := [{ spill0 with lost := true }] }
     (∀ f ∈ c.memIn, ∀ w, c.spillOf f = some w → w.cls ≠ .b) ∧
     c.spillWaits.find? (fun x => x.lost && x.cls == .b) = some { spill0 with lost := true }) ∧
    (∀ w ∈ spillCore.spillWaits, w.lost = true → w.cls ≠ .b) ∧
    spillCore.refillDone = none ∧ spillCore.refillNext = some (.b, 4095) ∧ coreQ.refillNext = none ∧
    ({ spillCore with refills := [refill0 (some (1, 0))] } : Core).refillDone = some (refill0 (some (1, 0))) ∧
    ({ spillCore with refills := [refill0 none] } : Core).refillDone = some (refill0 none) ∧
    (∀ x ∈ (refill0 (some (1, 0))).reads, ∃ l, x.got = some (some l)) ∧ (∃ x ∈ (refill0 none).reads, x.got = some none) := by
  refine ⟨by decide +kernel, by decide +kernel, by decide +kernel, rfl, by decide +kernel, by decide +kernel,
    ⟨fun _ h => absurd h List.not_mem_nil, by decide +kernel⟩, by decide +kernel, by decide +kernel, by decide +kernel, by decide +kernel,
    by decide +kernel, by decide +kernel, ?_, ?_⟩
  · intro x h
    obtain ⟨i, -, rfl⟩ := List.mem_map.mp h
    exact ⟨_, rfl⟩
  · exact ⟨_, List.mem_map.mpr ⟨0, by decide, rfl⟩, rfl⟩
def claimCore (st : EntrySt) : Core :=
  { coreQ with queues := Vector.ofFn fun i => if i.val = 1 then { live := [{ idx := 1, st := st, handler := 9 }] } else {} }
theorem test_w_dispatch : (∀ i ∈ ([.dispatch a0 ⟨7, 2⟩, .dispatch a0 ⟨30, 7⟩, .qdone a0 ⟨1⟩, .qdone a0 ⟨0⟩, .qstat a0 ⟨7⟩, .hent a0 ⟨7, 1⟩,
      .sndstat a0 ⟨7⟩] : List Instr),
      threadOf i = some a0 ∧ Issues i a0 (die (thx [(1, 0xFFFFF80040)]) (claimCore .ready)) 0 ∧ true = true) ∧
    (claimCore .ready).claim 0 2 = some (.b, { idx := 1, st := .ready, handler := 9 }) ∧ (claimCore .filling).claim 0 7 = none ∧
    hValid (coreQ.handler 9) = true ∧ hAccepts (coreQ.handler 9) .b = true ∧ hDirect (coreQ.handler 9) = false ∧
    (claimCore (.claimed 0)).claimedAt 0 0xFFFFF80040 = some (.b, 1) ∧ (claimCore .ready).claimedAt 0 0xFFFFF80040 = none :=
  ⟨words_of (by decide +kernel), by decide +kernel⟩

/-- A flit for core (0.0) at the input of a stop. -/
def toCore (ep : BitVec 3) : Flit := { flit 2 with ep := ep, dst := 0, resp := false }
def atInput (inp : RingInput) (f : Flit) : State := { die0 with rings := { inBuf := [(inputKey inp, [f])] } }
theorem test_w_router : (∀ stop ∈ [0, 1, 32, 960], ∀ lane ∈ [0, 3, 4, 7],
      (atInput ⟨stop, lane, .a, false⟩ (toCore 0)).rings.inBuf.at (inputKey ⟨stop, lane, .a, false⟩) [] = toCore 0 :: []) ∧
    (toCore 0).wellFormed = true ∧ (toCore 0).hdrErr = 0 ∧ ({ toCore 0 with hbad := 1 } : Flit).hdrErr = 2 ∧ ({ toCore 0 with hflip := 2 } : Flit).hdrErr = 1 ∧
    ({ toCore 0 with rsv := 1 } : Flit).wellFormed = false ∧ ({ toCore 0 with src := 0x7FF } : Flit).wellFormed = false ∧
    (die0.epoch + 8 - (toCore 6).ep.toNat) % 8 = 2 ∧ (die0.epoch + 8 - (toCore 2).ep.toNat) % 8 = 6 ∧
    (die0.epoch + 8 - (toCore 7).ep.toNat) % 8 = 1 ∧ (die0.epoch + 8 - (toCore 1).ep.toNat) % 8 = 7 ∧
    die0.siteFor blk0 0 0 = 0 ∧ blkCore (die0.routes die0.epoch) 0 0 = some 0 ∧
    addrIsEdge (0x840 : BitVec 12) = true ∧ addrEdge (0x840 : BitVec 12) = 64 ∧ addrEdge (0x810 : BitVec 12) = 16 := by decide +kernel
def waiting (f : Flit) (used : Nat) : State :=
  let w : WaitFlit := { flit := f, origin := .transit }
  { die0 with rings := { outWait := [(0, [w])], used := [(die0.nextKey 0 0 f, used)] } }
/-- A class A flit may go in slot 0 where its next buffer has a place; one of class B may not, nor any into a full buffer. -/
theorem test_w_output : ((waiting (toCore 0) 1).rings.outWait.at 0 []).map (·.flit) = [toCore 0] ∧
    (waiting (toCore 0) 1).rings.used.at ((waiting (toCore 0) 1).nextKey 0 0 (toCore 0)) 0 < 2 ∧
    ¬ (waiting (toCore 0) 2).rings.used.at ((waiting (toCore 0) 2).nextKey 0 0 (toCore 0)) 0 < 2 ∧
    clsOf (toCore 0).cls = .a ∧ clsOf ({ toCore 0 with cls := 2 } : Flit).cls ≠ .a := by decide +kernel
theorem test_w_credit : ({ owed := [(inputKey ⟨0, 0, .a, false⟩, 2)] } : RingState).owed.at (inputKey ⟨0, 0, .a, false⟩) 0 ≠ 0 ∧
    ({} : RingState).owed.at (inputKey ⟨0, 0, .a, false⟩) 0 = 0 := by decide +kernel
/-- A request held back while an older one of its stop waits, and one that may leave. -/
def heldCore (reqs : List Req) : Core := { held := [{ dst := 0x810, flits := [{ flit 2 with dst := 0x810, resp := false, txn := 6 }] }], reqs := reqs }
theorem test_w_held : (withCore (heldCore [])).siteOf 0 0 = some 0 ∧
    (∀ h ∈ (heldCore [{ req (.fill 1) with dst := 0x810 }]).held,
      (heldCore [{ req (.fill 1) with dst := 0x810 }]).olderRequest h.dst h.span 1 = true) ∧
    ((heldCore []).held.find? fun h => !(heldCore []).olderRequest h.dst h.span 1) = (heldCore []).held.head? ∧
    (∀ h ∈ (heldCore []).held, ∀ f ∈ h.flits, f.mkind = 0 ∧ addrIsEdge f.dst = true) := by decide +kernel
/-! ## Witnesses: pace, heartbeat, boundaries -/

theorem test_w_pace : die0.boot.powered = true ∧ die0.boot.inReset = false ∧ die0.now < 2 ^ 63 ∧ die0.epoch < 2 ^ 42 ∧
    (List.replicate 15 956 ++ [939]).length = 16 ∧ (∃ n ∈ List.replicate 15 956 ++ [939], n < die0.boot.rs.paceThreshold) ∧
    (∀ n ∈ List.replicate 16 956, die0.boot.rs.paceThreshold + 16 ≤ n) ∧
    (∃ n ∈ [955], n < die0.boot.rs.paceThreshold + 16 ∧ die0.boot.rs.paceThreshold ≤ n) ∧
    ({ die0 with pace := { die0.pace with windowVoid := true } } : State).pace.windowVoid = true := by decide +kernel
theorem test_w_thermal : (List.replicate 31 (0 : BitVec 12) ++ [921]).length = 32 ∧
    (∃ x ∈ List.replicate 31 (0 : BitVec 12) ++ [921], 920 < x.toInt) ∧
    (∀ x ∈ List.replicate 32 (800 : BitVec 12), x.toInt ≤ 800) ∧
    (List.replicate 4 ({ below062 := true, below072 := true, atLeast073 := false } : SenseReading)).length = 4 :=
  ⟨rfl, ⟨921, List.mem_append_right _ (List.mem_singleton.mpr rfl), by decide⟩,
    fun _ h => List.eq_of_mem_replicate h ▸ by decide, rfl⟩
/-- The heartbeat armed, at the start rate, and at rest. -/
theorem test_w_heartbeat : let armed := { die0 with hb := { die0.hb with toggling := true, bootRate := false, expiry := 1 } }
    (armed.running = true ∧ armed.hb.toggling = true ∧ armed.now < armed.hb.expiry.toNat ∧ armed.pace.tripped = false) ∧
    die0.hb.bootRate = true ∧ ¬ (die0.running = true ∧ die0.hb.toggling = true) ∧
    (let rest := { armed with hb := { armed.hb with expiry := 0 } }
     rest.hb.bootRate = false ∧ rest.hb.expiry.toNat ≤ rest.now) := by decide +kernel
/-- Heartbeat words of the thread that the plan names, and of another. -/
theorem test_w_hbarm : ({ die (thx []) with boot := { die0.boot with plan := some { heartbeat := [⟨0, 0, 0⟩] } } } : State).isHbThread a0 = true ∧
    (die (thx [])).isHbThread a0 = false := by decide +kernel
/-- A switch due at this boundary, and one due at the next. -/
theorem test_w_boundary : ({ die0 with boot := { die0.boot with next := some { epoch := 1, plan := some {} } } } : State).boot.next =
      some { epoch := 1, plan := some {} } ∧ 1 ≤ die0.epoch + 1 ∧ die0.epoch + 1 < 2 := by decide +kernel
/-- A thread record that carries thread 1 and starts thread 0 at word 0x1FFF. -/
theorem test_w_plan_switch : ({ withCore {} with boot := { die0.boot with plan := some {} }, switchDue := [0] } : State).siteOf 0 0 = some 0 ∧
    ({ withCore {} with boot := { die0.boot with plan := some {} }, switchDue := [0] } : State).boot.plan = some {} ∧
    0 ∈ ({ withCore {} with switchDue := [0] } : State).switchDue ∧ ((withCore {}).core 0).mma = none ∧
    (withCore {}).switchDue = [] ∧ blkCore ((withCore {}).bank (1 - (withCore {}).bankNow)).block 0 0 = some 0 ∧
    thrCarried (recordFor ({} : Plan).threads 0 0) 0 = false ∧
    (let s : State := { withCore {} with banks := #v[{ loaded := true, block := blk0 }, {}] }
     s.siteOf 0 0 = some 0 ∧ blkCore (s.bank (1 - s.bankNow)).block 0 0 ≠ some 0) := by decide +kernel

/-! ## Witnesses: links and time -/

/-- The route block whose filter of link 0 admits everything. -/
def blkF : List Byte := List.replicate 264 0 ++ [0xFF#8] ++ List.replicate 28912 0 ++ List.replicate 16 0xFF#8
def dieF : State := { die0 with banks := Vector.replicate 2 { loaded := true, block := blkF } }
/-- The die whose link 0 is l. -/
def linkDie (l : Link) (s : State := dieF) : State := { s with links := [(0, l)] }
set_option maxRecDepth 100000 in
theorem blkF_filter : blkFilter blkF 0 = 2 ^ 128 - 1 := by decide +kernel
theorem linkDie_filter (l : Link) : (linkDie l).filter 0 = 2 ^ 128 - 1 := blkF_filter
theorem fVc_all (v : Nat) (h : v < 8) : fVc (2 ^ 128 - 1) v = true := by
  revert v; decide +kernel
/-- A link flit of kind n from node 9, whose payload starts with the bytes b. -/
def lflit (n : BitVec 4) (b : List Byte) : LFlit :=
  { kind := n, cls := 2, resp := false, index := 0, last := true, dst := 0, src := 9, txn := 5, payload := bytesLine b }
/-- An UP link to node 9 with SERVICE privilege and flits received on one VC. -/
def upLink (v : Nat) (rx : List LFlit) : Link :=
  { st := 4, grant := 3, partnerNode := 9, sess := ({} : Sess).setVc v { rx := rx } }
/-- A TIME message: type, seq and time stamps. -/
def timeFlit (kind seq a b : Nat) : LFlit :=
  lflit 12 (leBytes 6 (kind + 16) ++ leBytes 2 seq ++ leBytes 8 a ++ leBytes 8 b)
theorem timeHead_msg {s : State} {l : Link} {f : LFlit} {r : List LFlit} {kind : Nat} (hf : s.filter 0 = 2 ^ 128 - 1)
    (hl : s.link 0 = l) (h : (l.st == 4 && headMessage (l.sess.vc 6).rx == some (f :: r) && decide (1 ≤ l.grant.toNat) &&
      timeWellFormed (slice (lineBytes f.payload) 0 32) && (timeMsgOf (slice (lineBytes f.payload) 0 32)).kind == kind) = true) :
    s.timeHead 0 kind = .msg (timeMsgOf (slice (lineBytes f.payload) 0 32)) := by
  simp only [Bool.and_eq_true, beq_iff_eq, decide_eq_true_eq] at h
  have hv : s.vcHead 0 6 = some (f :: r) := by rw [State.vcHead, hl]; exact h.1.1.1.2
  unfold State.timeHead
  simp only [hl, hf, hv, h.1.1.1.1, h.1.1.2, h.1.2, h.2, fVc_all 6 (by decide), bne_self_eq_false, Bool.false_eq_true,
    if_false, decide_true, Bool.and_self, Bool.not_true, if_true]
theorem timeHead_malformed {s : State} {l : Link} {f : LFlit} {r : List LFlit} {kind : Nat} (hf : s.filter 0 = 2 ^ 128 - 1)
    (hl : s.link 0 = l) (h : (l.st == 4 && headMessage (l.sess.vc 6).rx == some (f :: r) && decide (1 ≤ l.grant.toNat) &&
      !timeWellFormed (slice (lineBytes f.payload) 0 32)) = true) : s.timeHead 0 kind = .malformed := by
  simp only [Bool.and_eq_true, beq_iff_eq, decide_eq_true_eq] at h
  have hv : s.vcHead 0 6 = some (f :: r) := by rw [State.vcHead, hl]; exact h.1.1.2
  unfold State.timeHead
  simp only [hl, hf, hv, h.1.1.1, h.1.2, h.2, fVc_all 6 (by decide), bne_self_eq_false, Bool.false_eq_true,
    if_false, decide_true, Bool.and_self, Bool.not_true, if_true]
theorem timeHead_refused {s : State} {l : Link} {f : LFlit} {r : List LFlit} {kind : Nat}
    (hl : s.link 0 = l) (h : (l.st == 4 && headMessage (l.sess.vc 6).rx == some (f :: r) && decide (l.grant.toNat = 0)) = true) :
    s.timeHead 0 kind = .refused (f :: r) f := by
  simp only [Bool.and_eq_true, beq_iff_eq, decide_eq_true_eq] at h
  have hv : s.vcHead 0 6 = some (f :: r) := by rw [State.vcHead, hl]; exact h.1.2
  unfold State.timeHead
  simp only [hl, hv, h.1.1, h.2, bne_self_eq_false, Bool.false_eq_true, if_false, Nat.le_zero, Nat.one_ne_zero,
    decide_false, Bool.and_false, Bool.not_false, if_true]
/-- SYNC_REQ, SYNC_RESP, LINK_ANNOUNCE and ROOT_ANNOUNCE, each first in the buffer of its link. -/
theorem test_w_time_messages : ∀ kind, kind ∈ [1, 2, 3, 4] → ∃ m : TimeMsg, m.kind = kind ∧
    TimeAt (linkDie (upLink 6 [timeFlit kind 0 0 0])) 0 m := by
  intro kind hk
  have q : ∀ k ∈ [1, 2, 3, 4], (timeMsgOf (slice (lineBytes (timeFlit k 0 0 0).payload) 0 32)).kind = k ∧
      ((upLink 6 [timeFlit k 0 0 0]).st == 4 && headMessage ((upLink 6 [timeFlit k 0 0 0]).sess.vc 6).rx == some [timeFlit k 0 0 0] &&
       decide (1 ≤ (upLink 6 [timeFlit k 0 0 0]).grant.toNat) && timeWellFormed (slice (lineBytes (timeFlit k 0 0 0).payload) 0 32) &&
       (timeMsgOf (slice (lineBytes (timeFlit k 0 0 0).payload) 0 32)).kind == k) = true := by decide +kernel
  have := q kind hk
  refine ⟨_, this.1, ?_, by decide⟩
  rw [this.1]
  exact timeHead_msg (linkDie_filter _) rfl this.2

/-- A message of type 5, one from a partner with no grant, and none. -/
theorem test_w_time_bad : ∀ kind, (linkDie (upLink 6 [timeFlit 5 0 0 0])).timeHead 0 kind = .malformed ∧
    (linkDie { upLink 6 [timeFlit 1 0 0 0] with grant := 0 }).timeHead 0 kind = .refused [timeFlit 1 0 0 0] (timeFlit 1 0 0 0) ∧
    (linkDie {}).timeHead 0 kind = .none := by
  intro kind
  exact ⟨timeHead_malformed (linkDie_filter _) (l := upLink 6 [timeFlit 5 0 0 0]) (f := timeFlit 5 0 0 0) (r := []) rfl (by decide +kernel),
    timeHead_refused (l := { upLink 6 [timeFlit 1 0 0 0] with grant := 0 }) (f := timeFlit 1 0 0 0) (r := []) rfl (by decide +kernel), rfl⟩
/-- SYNC_RESP of 99 quarter ns, of 2^22, of one more, of a negative delay, of 40,001, and of another seq. -/
def respDie (seq a b t4 : Nat) : State :=
  { linkDie (upLink 6 [timeFlit 2 seq a b]) with
    time := { die0.time with clock := BitVec.ofNat 104 (t4 * 2 ^ 38), upstream := 0, discards := 3, exch := some { seq := 1, t1 := 0 } } }
theorem test_w_sync_resp : ∀ p ∈ [(1, 99, 99, 0), (1, 2 ^ 22, 2 ^ 22, 0), (1, 2 ^ 22 + 1, 2 ^ 22 + 1, 0), (1, 0, 1, 0),
      (1, 0, 0, 40001), (2, 0, 0, 0)], ∃ m : TimeMsg, m.kind = 2 ∧ m.seq.toNat = p.1 ∧ m.tsA.toNat = p.2.1 ∧ m.tsB.toNat = p.2.2.1 ∧
      TimeAt (respDie p.1 p.2.1 p.2.2.1 p.2.2.2) 0 m ∧ (respDie p.1 p.2.1 p.2.2.1 p.2.2.2).nowQ = p.2.2.2 := by
  intro p hp
  have q : ∀ p ∈ [(1, 99, 99, 0), (1, 2 ^ 22, 2 ^ 22, 0), (1, 2 ^ 22 + 1, 2 ^ 22 + 1, 0), (1, 0, 1, 0), (1, 0, 0, 40001), (2, 0, 0, 0)],
      let f := timeFlit 2 p.1 p.2.1 p.2.2.1
      let m := timeMsgOf (slice (lineBytes f.payload) 0 32)
      (m.kind = 2 ∧ m.seq.toNat = p.1 ∧ m.tsA.toNat = p.2.1 ∧ m.tsB.toNat = p.2.2.1 ∧
        (respDie p.1 p.2.1 p.2.2.1 p.2.2.2).nowQ = p.2.2.2) ∧
      ((upLink 6 [f]).st == 4 && headMessage ((upLink 6 [f]).sess.vc 6).rx == some [f] &&
       decide (1 ≤ (upLink 6 [f]).grant.toNat) && timeWellFormed (slice (lineBytes f.payload) 0 32) && m.kind == 2) = true := by
    decide +kernel
  have := q p hp
  refine ⟨_, this.1.1, this.1.2.1, this.1.2.2.1, this.1.2.2.2.1, ⟨?_, by decide⟩, this.1.2.2.2.2⟩
  rw [this.1.1]
  exact timeHead_msg (l := upLink 6 [timeFlit 2 p.1 p.2.1 p.2.2.1]) blkF_filter rfl this.2
/-- A measurement under way on link 0, and a root above the reference that a partner carries (R51). -/
def probeDie : State :=
  { respDie 1 0 0 0 with time := { die0.time with exch := none, probe := some { root := 0, link := 0, exch := { seq := 1, t1 := 0 } } } }
theorem test_w_probe : (∃ m : TimeMsg, m.kind = 2 ∧ m.seq = 1 ∧ TimeAt probeDie 0 m) ∧ probeDie.time.exch = none ∧
    probeDie.time.probe = some { root := 0, link := 0, exch := { seq := 1, t1 := 0 } } ∧
    (let s : State := { linkDie (upLink 6 []) with
        boot := { die0.boot with rs := { die0.boot.rs with roots := [7, 8], timeUpstreamMask := 1 } }
        time := { die0.time with syncState := 2, rootIndex := 1, rootNode := 8, upstream := 1, rootHeld := [(0, 0), (1, 0)]
                                 announces := [(0, { rootIndex := 0, rootNode := 7, syncState := 2, stratum := 1 })] } }
     s.toMeasure = some (0, 0)) ∧ (linkDie {}).toMeasure = none := by
  have q : ((upLink 6 [timeFlit 2 1 0 0]).st == 4 && headMessage ((upLink 6 [timeFlit 2 1 0 0]).sess.vc 6).rx == some [timeFlit 2 1 0 0] &&
      decide (1 ≤ (upLink 6 [timeFlit 2 1 0 0]).grant.toNat) && timeWellFormed (slice (lineBytes (timeFlit 2 1 0 0).payload) 0 32) &&
      (timeMsgOf (slice (lineBytes (timeFlit 2 1 0 0).payload) 0 32)).kind == 2) = true := by decide +kernel
  have k2 : (timeMsgOf (slice (lineBytes (timeFlit 2 1 0 0).payload) 0 32)).kind = 2 := by decide +kernel
  refine ⟨⟨_, k2, by decide +kernel, ⟨?_, by decide⟩⟩, rfl, rfl, by decide +kernel, by decide +kernel⟩
  rw [k2]
  exact timeHead_msg (l := upLink 6 [timeFlit 2 1 0 0]) blkF_filter rfl q
/-- The rest of chip time: an excluded upstream, the holdover limit, a root that the rootstock lists. -/
theorem test_w_holdover : let s := { die0 with time := { die0.time with excluded := [(3, 16)], syncState := 3, clock := 2 ^ 72 } }
    s.time.excluded.find 3 = some 16 ∧ s.epoch < 16 ∧ s.time.excluded.find 2 = none ∧ s.time.syncState = 3 ∧
    s.time.holdAt + s.boot.rs.holdoverLimit * 2 ^ 20 ≤ s.now ∧
    die0.now < die0.time.holdAt + die0.boot.rs.holdoverLimit * 2 ^ 20 ∧ die0.time.syncState ≠ 3 ∧ die0.time.upstream ≥ 24 := by decide +kernel

/-! ## Witnesses: stacks and streams -/

/-- A request flit of class A to an address of stack memory. -/
def mflit (kind : BitVec 4) (addr : BitVec 40) (payload : Line := 0) : Flit :=
  { flit kind payload with resp := false, addr := addr }
/-- A flit waits at the port of stack k. -/
def portDie (k : Nat) (f : Flit) (st : Stack := {}) : State :=
  { die0 with rings := { ports := [(portKey (stackPort k) 0 0, [f])] }, memStacks := [(k, st)] }
/-- The first and the last line of plan memory's homes in stacks 0 and 7. -/
theorem test_w_controllers : (∀ p ∈ ([(0, 0), (0, 0x59FFFFFFC0), (7, 0x7000)] : List (Nat × BitVec 40)), ∀ kind ∈ ([2, 4, 6, 8] : List (BitVec 4)),
      let f := mflit kind p.2
      (portDie p.1 f).rings.ports.at (portKey (stackPort p.1) (clsNum .a) 0) [] = f :: [] ∧ f.kind = kind ∧
      f.index = 0 ∧ f.last = true ∧ f.payload = 0 ∧ f.bad = 0 ∧ f.addr.toNat % 64 = 0 ∧ f.addr.toNat < 0x5A00000000 ∧
      homeStack f.addr.toNat = p.1 ∧ (((portDie p.1 f).stack p.1).chan (chanOf (f.addr.toNat / 64))).st ≠ .failed) ∧
    atomicForm (mflit 6 0 (bytesLine [0x10])) = true ∧ atomicForm (mflit 6 0 (bytesLine [0x1A])) = false ∧
    atomicForm (mflit 6 0 (bytesLine [0x0F])) = false := by decide +kernel
theorem test_w_controllers_refuse : (mflit 3 0).kind ≠ 4 ∧ (mflit 3 0).kind ≠ 2 ∧ ({ mflit 4 0 with bad := 1 } : Flit).bad ≠ 0 ∧
    ({ mflit 4 0 with last := false } : Flit).last = false ∧ (mflit 6 4).addr.toNat % 8 ≠ 0 ∧
    (let m := { mflit 4 0 255 with last := false }
     ({ parts := [m] } : Stack).partOf { mflit 4 0 with index := 1 } = some m ∧ zeroBytes (lineBytes m.payload) 8 56 = true) := by
  decide +kernel
def tr (cls : Cls) (f : Flit) : Trans := { cls := cls, line := 0, flits := [f] }
theorem test_w_slots : let h : Chan := { queue := [tr .b (mflit 2 0), tr .c (mflit 2 0), tr .a (mflit 2 0)] }
    h.running = none ∧ h.queue ≠ [] ∧ h.st ≠ .failed ∧ h.queue.any (·.cls == .a) = true ∧
    (let g : Chan := { queue := h.queue.take 2, lastBC := .b }
     g.queue.any (·.cls == .a) = false ∧ g.lastBC = .b ∧ g.queue.any (·.cls == .c) = true) ∧
    (let g : Chan := { queue := h.queue.take 2 }
     g.lastBC = .c ∧ g.queue.any (·.cls == .b) = true) ∧
    ({ running := some (tr .a (mflit 2 0)) } : Chan).running ≠ none := by decide +kernel
/-- Transfers of a read, a write of one flit, of two, and an atomic, at no repeat, and at the last. -/
theorem test_w_transfers : (∀ t ∈ [tr .a (mflit 2 0), tr .a (mflit 4 0), tr .a (mflit 6 0 (bytesLine [0x10])),
      { tr .a (mflit 4 0) with flits := [mflit 4 0 1, mflit 4 0] }], ∀ n ∈ [0, 2, 3],
      let s : State := { die0 with memStacks := [(7, { chans := [(31, { running := some t, repeats := n })] })] }
      (s.stack 7).chan 31 = { running := some t, repeats := n } ∧ t.burst = none ∧ t.line ∉ s.memBad ∧
      t.flits.getLast?.isSome = true) ∧ Transfer.corrected ≠ .crcFail ∧ Transfer.uncorrectable ≠ .crcFail ∧
    (tr .a (mflit 2 0)).done = none ∧ ({ tr .a (mflit 4 0) with done := some (1, []) } : Trans).done ≠ none ∧
    (mflit 4 0 1).payload.toNat % 2 ^ 64 ≠ 2 ^ 64 - 1 ∧ ∀ b ∈ (die0.stack 7).bursts, b.holds 0 = false := by decide +kernel
def burst0 : Burst := { serial := 0, src := 0x800, txn := 5, cls := 1, ep := 0, epoch := 0, base := 0, lines := [7], whole := true }
theorem test_w_bursts : let f := mflit 8 0
    let s := portDie 0 f
    let key := portKey (stackPort 0) (clsNum .a) 0
    s.rings.ports.at key [] = f :: [] ∧ f.kind = 8 ∧ s.pace.tripped = false ∧ s.epoch < s.flitEpoch f.ep + 2 ∧ f.index = 0 ∧
    f.last = true ∧ f.bad = 0 ∧ ((s.stack 0).chan (s.chanNow 0 0)).st ≠ .failed ∧ ((s.stack 0).chan (s.chanNow 0 0)).queue = [] ∧
    ((s.stack 0).chan (s.chanNow 0 0)).running = none ∧ (s.stack 0).burstOf f = none ∧ (s.stack 0).stagedOf .a < stagingOf .a ∧
    (let g := { f with last := false }
     (portDie 0 g).rings.ports.at key [] = g :: [] ∧ g.last = false) ∧
    (let s1 := (portDie 0 f { bursts := List.replicate 8 burst0 }).abandonAged 0
     (s1.stack 0).bufferFree .a = false ∧ ∀ x ∈ s1.rings.ports.at key [], x.kind = 8 → (s1.stack 0).burstOf x = none) ∧
    (let b := { burst0 with whole := false }
     let st : Stack := { bursts := [b] }
     let g := { mflit 8 64 with index := 1 }
     (portDie 0 g st).rings.ports.at key [] = g :: [] ∧ st.burstOf g = some b ∧ (portDie 0 g st).epoch < b.epoch + 2 ∧
     (b.take 0 g).status 0 st = 0 ∧ (b.take 0 g).base % 64 = 0) ∧
    32 * 7 + 23 ∈ ({ die0 with drops := [247] } : State).drops ∧ 32 * 7 + 22 ∉ ({ die0 with drops := [247] } : State).drops ∧
    ({ die0 with pace := { die0.pace with tripped := true } } : State).pace.tripped = true := by decide +kernel
theorem test_w_channels : let st : Stack := { chans := [(31, { due := true })] }
    ((st.chan 31).due = true ∧ (st.chan 31).st = .inService ∧ st.room = true ∧ st.reloc = none ∧ st.moves = []) ∧
    (∀ h ∈ ([{ queue := [tr .a (mflit 2 0)] }, { running := some (tr .a (mflit 2 0)) }] : List Chan), h.running ≠ none ∨ h.queue ≠ []) ∧
    (st.chan 30).running = none ∧ (st.chan 30).queue = [] ∧
    ¬ ((st.chan 0).due = true ∧ (st.chan 0).st = .inService) ∧
    ({ st with reloc := some { chan := 30, copied := 0, total := 1 } } : Stack).room = false ∧
    (let r : Reloc := { chan := 30, copied := 0, total := 2 }
     r.copied + 1 < r.total) ∧ (let r : Reloc := { chan := 30, copied := 1, total := 2 }
     r.total ≤ r.copied + 1) := by decide +kernel
/-- A descriptor in state n at a position, whose limit is 2^21 and whose ring has one slot at 0. -/
def desc (n pos : Nat) : List Byte :=
  recSet (recSet (recSet (List.replicate 128 0) 0 2 3 n) 0 8 22 pos) 0 30 22 2097152
/-- Thread 0 has sent a stream command of one code, on stream 8. -/
def strmDie (code n pos : Nat) (arg : W64 := 0) : State :=
  { die { st := .block, block := .stream { id := 8, code := code, arg := arg, deadline := 100, order := 0 } } with
    cores := [(0, ({} : Core).setThr 0 { st := .block, block := .stream { id := 8, code := code, arg := arg, deadline := 100, order := 0 } })]
    memStacks := [(0, { cache := [(8, { id := 8, desc := desc n pos })] })] }
theorem strm_served (code n pos : Nat) (arg : W64) (h : ((strmDie code n pos arg).siteOf 0 0 == some 0 &&
    (strmDie code n pos arg).cached 8 == some (desc n pos) &&
    (strmDie code n pos arg).streamTurn { id := 8, code := code, arg := arg, deadline := 100, order := 0 }) = true) :
    StreamServed (strmDie code n pos arg) a0 0 code { id := 8, code := code, arg := arg, deadline := 100, order := 0 } (desc n pos) := by
  simp only [Bool.and_eq_true, beq_iff_eq] at h
  exact ⟨h.1.1, rfl, rfl, h.1.2, h.2⟩
/-- Commands 1 to 6 in each state of Table 9-7, ADVANCE at the edges of its step. -/
theorem test_w_streams : ∀ code ∈ [1, 2, 3, 4, 5, 6], ∀ n ∈ [0, 1, 2, 3, 4, 5],
    ∃ c, StreamServed (strmDie code n 0 2097152) a0 0 code c (desc n 0) ∧ Desc.st (desc n 0) = n := by
  intro code hc n hn
  have q : ∀ code ∈ [1, 2, 3, 4, 5, 6], ∀ n ∈ [0, 1, 2, 3, 4, 5], Desc.st (desc n 0) = n ∧
      ((strmDie code n 0 2097152).siteOf 0 0 == some 0 && (strmDie code n 0 2097152).cached 8 == some (desc n 0) &&
       (strmDie code n 0 2097152).streamTurn { id := 8, code := code, arg := 2097152, deadline := 100, order := 0 }) = true := by
    decide +kernel
  exact ⟨_, strm_served code n 0 2097152 (q code hc n hn).2, (q code hc n hn).1⟩
theorem test_w_advance : Desc.position (desc 1 0) + 2097152 ≤ Desc.limit (desc 1 0) ∧
    Desc.limit (desc 1 1) < Desc.position (desc 1 1) + 2097152 ∧ (2097153 : W64).toNat % 2 ^ 22 = 2097153 ∧
    (0 : W64).toNat % 2 ^ 22 = 0 := by decide +kernel
/-- The header line of stream 8's next slot: its channel serves, is busy, or has failed; the line is lost; the access ends badly. -/
theorem test_w_harvest : let s := strmDie 5 1 0
    slotAddr (desc 1 0) (Desc.harvestNext (desc 1 0)) = 0 ∧ homeStack 0 = 0 ∧ s.chanNow 0 0 = 0 ∧ 0 ∉ s.memBad ∧
    ((s.stack 0).chan 0).st ≠ .failed ∧ ((s.stack 0).chan 0).turn (s.streamCls 8) = true ∧
    ({ ((s.stack 0).chan 0) with running := some (tr .a (mflit 2 0)) } : Chan).turn (s.streamCls 8) = false ∧
    ({ ((s.stack 0).chan 0) with st := .failed } : Chan).st = .failed ∧ ({ s with memBad := [0] } : State).memBad = [0] ∧
    ({} : Access).result = .good ∧ ({ result := .uncorrectable } : Access).result = .uncorrectable ∧
    zeroBytes (Mem.readN s.mem (64 * 0) 64) 0 12 = true ∧
    (let h := Mem.readN [(0, 2)] (64 * 0) 64
     zeroBytes h 0 12 = false ∧ s.epoch < Slot.fillEpoch h + s.boot.rs.harvestRetention) ∧
    (let h := Mem.readN [(8, 1)] (64 * 0) 64
     zeroBytes h 0 12 = false ∧ Slot.st h = 0) := by decide +kernel
theorem lineFree_of {s : State} {k line : Nat} (h : (((s.stack k).chan (s.chanNow k line)).st != .failed &&
    ((s.stack k).chan (s.chanNow k line)).running.isNone && ((s.stack k).chan (s.chanNow k line)).queue.isEmpty &&
    !s.memBad.contains line) = true) : LineFree s k line := by
  simp only [Bool.and_eq_true, bne_iff_ne, Option.isNone_iff_eq_none, List.isEmpty_iff, Bool.not_eq_true', ← Bool.not_eq_true,
    List.contains_iff_mem] at h
  exact ⟨h.1.1.1, h.1.1.2, h.1.2, h.2⟩
/-- A command that waits for descriptor 8, a way free; its set full of busy ways, with and without its fill waiting. -/
def cacheDie (st : Stack) : State := { strmDie 1 1 0 with memStacks := [(0, st)] }
theorem test_w_stream_cache : let s := cacheDie {}
    (∃ k, s.streamCmds.find? (fun k => k.cmd.id == 8 && s.oldest k.cmd) = some k ∧ k.cmd.missed = false) ∧
    s.cached 8 = none ∧ (s.fillWay 8).isSome = true ∧ (∀ e ∈ (s.stack (8 % 8)).cache, e.2.dirty = false) ∧
    LineFree s (8 % 8) (descAddr 8 / 64) ∧ LineFree s (8 % 8) (descAddr 8 / 64 + 1) ∧ endsWell {} ∧
    ((strmDie 1 1 0).cached 8).isSome = true ∧ s.wantsDesc 16 = false ∧
    s.streamCmds.find? (fun k => k.cmd.id == 16 && s.oldest k.cmd) = none ∧
    (let full : Stack := { cache := (List.range 8).map fun w => (8 + w, { id := 2056, desc := [] })
                           fillWaits := (List.range 8).map fun w => { id := 2056, way := some w } }
     (cacheDie full).cached 8 = none ∧ (cacheDie full).fillWay 8 = none ∧ (∀ w ∈ ((cacheDie full).stack 0).fillWaits, w.id ≠ 8)) ∧
    (cacheDie { fillWaits := [{ id := 8 }] }).fillWay 8 = none ∧
    (∃ w ∈ ((cacheDie { fillWaits := [{ id := 8 }] }).stack 0).fillWaits, w.id = 8) :=
  ⟨⟨_, rfl, rfl⟩, by decide +kernel, by decide +kernel, by decide +kernel, lineFree_of (by decide +kernel), lineFree_of (by decide +kernel), .inl rfl,
   by decide +kernel, by decide +kernel, by decide +kernel, by decide +kernel, by decide +kernel, by decide +kernel⟩
theorem test_w_freed : let s : State := { die0 with strm := { freed := [{ id := 7, epoch := 0 }] }, time := { die0.time with epochSeen := 2 } }
    s.strm.freed.find? (fun f => f.id % 8 == 7 && !f.avail && decide (f.epoch + 2 ≤ s.epoch)) = some { id := 7, epoch := 0 } ∧
    s.strm.freed.find? (fun f => f.id % 8 == 6 && !f.avail && decide (f.epoch + 2 ≤ s.epoch)) = none := by decide +kernel

/-! ## Witnesses: lanes, links, frames, ports, admission -/

def lane (l : Link) : State := { die0 with links := [(23, l)] }
/-- Lanes at the limit of lane_degrade and past it; lane 4 spare, and no spare; a link that is not live. -/
theorem test_w_lanes_degrade : let l : Link := { st := 4 }
    (lane l).link 23 = l ∧ l.live = true ∧ laneIn l.rxMap 0 = true ∧ laneIn l.rxMap 4 = false ∧ l.rxSpare = true ∧
    l.rxSpareLane = some 4 ∧ (lane l).boot.rs.laneDegrade < 65537 ∧ ¬ (lane l).boot.rs.laneDegrade < 65536 ∧
    ({ l with rxOut := 16 } : Link).rxSpareLane = none ∧ ({} : Link).live = false := by decide +kernel
/-- Each LANE message for lanes 0 and 4. -/
theorem test_w_lane_messages : ∀ cmd ∈ [1, 2, 3, 4, 5, 6], ∀ n ∈ [0, 4],
    let l : Link := { st := 4, inbox := [6 :: laneBody cmd n 7], swap := some 0, mirror := some 4 }
    (l.inbox = (BitVec.ofNat 8 6 :: laneBody cmd n 7) :: []) ∧ field (laneBody cmd n 7) 0 1 = cmd ∧
    field (laneBody cmd n 7) 1 1 = n ∧ n < 5 ∧ laneIn l.txMap 0 = true ∧ laneIn l.txMap 4 = false ∧
    ({ l with mirror := none } : Link).txSpare = true ∧ l.txSpare = false := by decide +kernel
theorem test_w_link_states : let l : Link := { st := 2, phyUp := true, sentSeen := true, inbox := [4 :: (leBytes 3 9 ++ leBytes 8 0 ++ [1])] }
    (lane l).link 23 = l ∧ (lane l).pace.tripped = false ∧ l.inbox = (BitVec.ofNat 8 4 :: (leBytes 3 9 ++ leBytes 8 0 ++ [1])) :: [] ∧
    (lane l).boot.rs.compatLo ≤ field (leBytes 3 9 ++ leBytes 8 0 ++ [1]) 4 2 ∧
    field (leBytes 3 9 ++ leBytes 8 0 ++ [1]) 4 2 ≤ (lane l).boot.rs.compatHi ∧ field (leBytes 3 9 ++ leBytes 8 0 ++ [1]) 11 1 = 1 ∧
    (lane l).boot.rs.compatHi < field (leBytes 4 9 ++ leBytes 7 1) 4 2 ∧
    ({ l with st := 6, backoffEnd := 2 ^ 64 - 1 } : Link).pruned = false ∧
    (let s := { lane { l with st := 4 } with boot := { die0.boot with step := 9, ownOk := true }, time := { die0.time with clock := 2 ^ 71 } }
     s.boot.ownOk = true ∧ 6 ≤ s.boot.step.toNat ∧ s.boot.reason = 0 ∧ 1024 ≤ s.now / 2 ^ 20 - ((s.link 23).since + (2 ^ 20 - 1)) / 2 ^ 20) ∧
    ¬ 6 ≤ ({} : Boot).step.toNat ∧ ({} : Boot).ownOk = false ∧
    ({ st := 5, inbox := [[7]] } : Link).live = true := by decide +kernel
/-- A frame as the port sends it: type, mask, VCs and body. -/
def frame (ftype mask vcs : Nat) (body : List Byte) (live : Bool) : List Byte :=
  ({} : Link).sealFrame 0 ftype mask vcs 0 0xFFF none body live
def trainBody0 : List Byte := leBytes 3 9 ++ leBytes 9 0 ++ ((List.replicate 8 (leBytes 2 2047)).flatten)
theorem test_w_frame_bad : let l : Link := { st := 2, locked := true, badRun := 7 }
    (lane l).link 23 = l ∧ (List.replicate 352 (0 : Byte)).length = 352 ∧
    crc32c (slice (List.replicate 352 (0 : Byte)) 0 12 ++ slice (List.replicate 352 (0 : Byte)) 16 336) ≠
      field (List.replicate 352 (0 : Byte)) 12 4 := by decide +kernel
theorem test_w_frame_train : let b := frame 4 0 0 trainBody0 false
    b.length = 352 ∧ crc32c (slice b 0 12 ++ slice b 16 336) = field b 12 4 ∧ (frameOf b).ftype = 4 ∧
    (frameOf b).wellFormed false = true ∧ trainBodyOk (slice b 16 320) = true := by decide +kernel
/-! A frame under the all-zero key: its tag and CRC are named by the functions that the port uses, and never evaluated. -/

theorem xorB_length (a b : List Byte) : (xorB a b).length = min a.length b.length := List.length_zipWith
theorem getD_length {l : List (List Byte)} {n i : Nat} (h : ∀ w ∈ l, w.length = n) (hi : i < l.length) : (l.getD i []).length = n := by
  rw [List.getD_eq_getElem?_getD, List.getElem?_eq_getElem hi, Option.getD_some]; exact h _ (List.getElem_mem hi)
theorem aesExpand_words (sb : List Byte) : ∀ (n i : Nat) (rc : Byte) (r : List (List Byte)), 8 ≤ r.length → (∀ w ∈ r, w.length = 4) →
    (aesExpand sb n i rc r).length = r.length + n ∧ ∀ w ∈ aesExpand sb n i rc r, w.length = 4 := by
  intro n
  induction n with
  | zero => intro i rc r _ h; exact ⟨rfl, h⟩
  | succ n ih =>
    intro i rc r h8 h
    have g0 := getD_length h (i := 0) (by omega)
    have g7 := getD_length h (i := 7) (by omega)
    have u : (xorB (r.getD 7 []) (if i % 8 = 0 then xorB (((r.getD 0 []).drop 1 ++ (r.getD 0 []).take 1).map fun b => sb.getD b.toNat 0) [rc, 0, 0, 0]
        else if i % 8 = 4 then (r.getD 0 []).map fun b => sb.getD b.toNat 0 else r.getD 0 [])).length = 4 := by
      rw [xorB_length, g7]
      split
      · rw [xorB_length]; simp only [List.length_map, List.length_append, List.length_drop, List.length_take, g0]; rfl
      · split
        · rw [List.length_map, g0]; rfl
        · rw [g0]; rfl
    have := ih (i + 1) (if i % 8 = 0 then xtime rc else rc) (_ :: r) (by simp only [List.length_cons]; omega)
      (by intro w hw; rcases List.mem_cons.mp hw with e | e
          · rw [e]; exact u
          · exact h w e)
    exact ⟨by rw [aesExpand, this.1]; simp only [List.length_cons]; omega, this.2⟩
theorem slice_length (l : List Byte) (o n : Nat) : (slice l o n).length = n := by
  simp only [slice, List.length_append, List.length_replicate, List.length_take]; omega
theorem aesKeys_last (sb key : List Byte) : ((aesKeys sb key).getD 14 []).length = 16 := by
  have a := aesExpand_words sb 52 8 1 ((List.range 8).map fun i => slice key (4 * i) 4).reverse (by simp)
    (by intro w hw
        obtain ⟨i, -, rfl⟩ := List.mem_map.mp (List.mem_reverse.mp hw)
        exact slice_length key _ 4)
  simp only [aesKeys, List.getD_eq_getElem?_getD, List.getElem?_map, List.getElem?_range (show 14 < 15 by decide), Option.map_some, Option.getD_some]
  generalize aesExpand sb 52 8 1 _ = l at a
  have hl : l.length = 60 := by rw [a.1]; simp
  have : ∀ m : List (List Byte), (∀ w ∈ m, w.length = 4) → m.flatten.length = 4 * m.length := by
    intro m hm
    induction m with
    | nil => rfl
    | cons w m ih => rw [List.flatten_cons, List.length_append, ih (fun x h => hm x (List.mem_cons_of_mem _ h)), hm w List.mem_cons_self]; simp only [List.length_cons]; omega
  rw [this _ (fun w h => a.2 w (List.mem_reverse.mp (List.mem_of_mem_drop (List.mem_of_mem_take h)))), List.length_take, List.length_drop, List.length_reverse, hl]
  decide
theorem gcmTag_length (sb key n a c : List Byte) : (gcmTag sb (aesKeys sb key) n a c).length = 16 := by
  simp only [gcmTag, aesBlock, xorB_length, aesKeys_last, shiftRows, List.length_map, List.length_range]
  have (n v : Nat) : (beBytes n v).length = n := by
    rw [beBytes, List.length_reverse]
    induction n generalizing v with
    | zero => rfl
    | succ n ih => rw [leBytes, List.length_cons, ih]
  rw [this]; rfl
theorem slice_mid {l a b c : List Byte} {o n : Nat} (h : l = a ++ (b ++ c)) (ha : a.length = o) (hb : b.length = n) : slice l o n = b := by
  have t : ((a ++ (b ++ c)).drop o).take n = b := by rw [List.drop_left' ha, List.take_left' hb]
  rw [h, slice, t, hb, Nat.sub_self]; exact List.append_nil b
theorem leBytes_length (n v : Nat) : (leBytes n v).length = n := by
  induction n generalizing v with
  | zero => rfl
  | succ n ih => rw [leBytes, List.length_cons, ih]
def dHead : List Byte := [17, 16, 0, 0, 255, 15, 0, 0, 2, 0, 0, 0]
def dataFlit : LFlit := lflit 0 (leBytes 4 255)
def dBody : List Byte := dataFlit.bytes ++ List.replicate 240 0
def upRx : Link := { st := 4, locked := true, partnerNode := 9 }
def dTag : List Byte := gcmTag sboxTable (aesKeys sboxTable upRx.sess.kRx) (frameNonce upRx.sess.sRx 0) (dHead ++ dBody) []
def dCrc : List Byte := leBytes 4 (crc32c (dHead ++ (dBody ++ dTag)))
/-- A DATA frame whose one flit, on VC 2, is a class B scion for handler 255. -/
def dataFrame : List Byte := dHead ++ (dCrc ++ (dBody ++ dTag))
theorem dTag_length : dTag.length = 16 := by rw [dTag]; exact gcmTag_length _ _ _ _ _
theorem dCrc_length : dCrc.length = 4 := by rw [dCrc]; exact leBytes_length 4 _
theorem dBody_length : dBody.length = 320 := by decide +kernel
theorem dataFrame_length : dataFrame.length = 352 := by
  rw [dataFrame, List.length_append, List.length_append, List.length_append, dTag_length, dCrc_length, dBody_length]; rfl
theorem dataFrame_head : slice dataFrame 0 12 = dHead :=
  slice_mid (a := []) (by rw [dataFrame, List.nil_append]) rfl rfl
theorem dataFrame_crc : slice dataFrame 12 4 = dCrc := slice_mid dataFrame.eq_def rfl dCrc_length
theorem dataFrame_body : slice dataFrame 16 320 = dBody := slice_mid (a := dHead ++ dCrc) (by rw [dataFrame, List.append_assoc])
  (by rw [List.length_append, dCrc_length]; rfl) dBody_length
theorem dataFrame_tag : slice dataFrame 336 16 = dTag := slice_mid (a := dHead ++ (dCrc ++ dBody)) (c := [])
  (by rw [dataFrame, List.append_nil]; simp only [List.append_assoc])
  (by rw [List.length_append, List.length_append, dCrc_length, dBody_length]; rfl) dTag_length
theorem dataFrame_rest : slice dataFrame 16 336 = dBody ++ dTag := slice_mid (a := dHead ++ dCrc) (c := [])
  (by rw [dataFrame, List.append_nil]; simp only [List.append_assoc])
  (by rw [List.length_append, dCrc_length]; rfl) (by rw [List.length_append, dBody_length, dTag_length])
theorem field_dataFrame (o : Nat) (h : o + 2 ≤ 12) : field dataFrame o 2 = field dHead o 2 := by
  have e : slice dataFrame o 2 = slice dHead o 2 := by
    rw [slice, slice, dataFrame, List.drop_append_of_le_length (show o ≤ dHead.length by show o ≤ 12; omega),
      List.take_append_of_le_length (show 2 ≤ (dHead.drop o).length by rw [List.length_drop]; show 2 ≤ 12 - o; omega)]
  rw [field, e, field]
theorem frameOf_dataFrame : frameOf dataFrame = { frameOf dHead with body := dBody } := by
  simp only [frameOf, field_dataFrame 0 (by decide), field_dataFrame 2 (by decide), field_dataFrame 4 (by decide), field_dataFrame 6 (by decide),
    field_dataFrame 8 (by decide), field_dataFrame 10 (by decide), dataFrame_body]
theorem openFrame_of {m : Sess} {b h body tag : List Byte} {txc : W64} (he : (frameOf b).enc = false)
    (hx : rxTxc m.txcRx (frameOf b).txcLow = txc) (h0 : slice b 0 12 = h) (h1 : (frameOf b).body = body) (h2 : slice b 336 16 = tag)
    (ht : gcmTag sboxTable (aesKeys sboxTable m.kRx) (frameNonce m.sRx txc) (h ++ body) [] = tag) : m.openFrame b = some (txc, body) := by
  simp only [Sess.openFrame, he, hx, h0, h1, h2, gcmOpen, ht, Bool.false_eq_true, if_false, if_true, Option.map_some]
theorem openFrame_dataFrame : upRx.sess.openFrame dataFrame = some (0, dBody) :=
  openFrame_of (by rw [frameOf_dataFrame]; rfl) (by rw [frameOf_dataFrame]; rfl) dataFrame_head (by rw [frameOf_dataFrame]) dataFrame_tag
    dTag.eq_def.symm
theorem leNat_leBytes (n v : Nat) : leNat (leBytes n v) = v % 256 ^ n := by
  induction n generalizing v with
  | zero => rw [leBytes, Nat.pow_zero, Nat.mod_one]; rfl
  | succ n ih => rw [leBytes, leNat, ih, BitVec.toNat_ofNat, show 256 ^ (n + 1) = 256 * 256 ^ n from Nat.pow_succ', Nat.mod_mul]
theorem crcBits_lt (n c : Nat) (h : c < 2 ^ 32) : crcBits 0x82F63B78 n c < 2 ^ 32 := by
  induction n generalizing c with
  | zero => exact h
  | succ n ih =>
    rw [crcBits]
    refine ih _ ?_
    split
    · exact Nat.xor_lt_two_pow (by omega) (by decide)
    · omega
theorem crc32c_lt (b : List Byte) : crc32c b < 2 ^ 32 := by
  have : ∀ (l : List Byte) (c : Nat), c < 2 ^ 32 → l.foldl (fun c x => crcBits 0x82F63B78 8 (c ^^^ x.toNat)) c < 2 ^ 32 := by
    intro l
    induction l with
    | nil => exact fun c h => h
    | cons x l ih => exact fun c h => ih _ (crcBits_lt 8 _ (Nat.xor_lt_two_pow h (Nat.lt_of_lt_of_le x.isLt (by decide))))
  exact Nat.xor_lt_two_pow (this b _ (by decide)) (by decide)
theorem crc_dataFrame : crc32c (slice dataFrame 0 12 ++ slice dataFrame 16 336) = field dataFrame 12 4 := by
  have h (n : Nat) (hn : n < 2 ^ 32) : n = leNat (leBytes 4 n) := by
    rw [leNat_leBytes]; exact (Nat.mod_eq_of_lt (Nat.lt_of_lt_of_le hn (by decide))).symm
  rw [field, dataFrame_head, dataFrame_rest, dataFrame_crc, dCrc.eq_def]
  exact h _ (crc32c_lt _)
/-- The DATA frame at an UP port in lock. -/
theorem test_w_frame_data : dataFrame.length = 352 ∧
    crc32c (slice dataFrame 0 12 ++ slice dataFrame 16 336) = field dataFrame 12 4 ∧
    upRx.sess.openFrame dataFrame = some (0, dBody) ∧
    (let f := { frameOf dataFrame with body := dBody }
     f.ftype = 1 ∧ f.wellFormed upRx.sess.enc = true ∧ f.ep.toNat = (lane upRx).epoch % 8 ∧ f.creditValid = false ∧
     upRx.sess.held.any (·.fseq == f.ack) = false ∧ f.fseq = upRx.sess.expFseq ∧ f.mask = 1 ∧ 2 = f.vcAt 0 ∧
     lflitOf (slice dBody 0 80) = (dataFlit, true) ∧ (lane upRx).lflitOk 23 2 dataFlit true = true ∧
     (upRx.sess.vc 2).rx.length < vcBuffer 2) := by
  refine ⟨dataFrame_length, crc_dataFrame, openFrame_dataFrame, ?_⟩
  rw [frameOf_dataFrame]
  decide +kernel
def fbLink : Link := { st := 4, sess := { ctrl := [(15, [])], sinceIdle := 63, resend := [⟨0, [(2, dataFlit)]⟩] } }
theorem test_w_frame_build : (lane fbLink).boot.powered = true ∧ (lane fbLink).boot.inReset = false ∧
    (∀ c < 3, (lane fbLink).rings.ports.at (portKey (linkStop 23) c 1) [] = []) ∧ fbLink.sess.ctrl = (15, []) :: [] ∧ 15 < 16 ∧
    (let m : Sess := { sinceIdle := 62, vcs := (({} : Sess).setVc 6 { limit := 1, tx := [dataFlit] }).vcs, held := List.replicate 511 ⟨0, []⟩ }
     m.ctrl = [] ∧ m.sinceIdle < 63 ∧ m.resend = [] ∧ m.canSend 6 = true ∧ m.held.length < 512) ∧
    (∀ v < 8, ({} : Sess).canSend v = false) ∧
    (let m : Sess := { nak := true, held := [⟨0, [(2, dataFlit)]⟩], replays := 4, nakAt := 2 ^ 63 - 1, heldAt := 2 ^ 63 - 1 }
     m.nak = true ∧ m.nakAt < 2 ^ 63 ∧ m.held ≠ [] ∧ m.heldAt < 2 ^ 63 ∧ 4 ≤ m.replays) := by decide +kernel
/-- A scion for handler 255 of core (0.0), from the partner, and one for row 28. -/
theorem test_w_ingress : let l := upLink 2 [dataFlit]
    (linkDie l).link 0 = l ∧ l.st = 4 ∧ (linkDie l).vcHead 0 2 = some (dataFlit :: []) ∧ 2 < 6 ∧ 2 % 2 = 0 ∧
    (linkDie l).judge 0 2 [dataFlit] dataFlit false = .core ∧ (linkDie l).storeFree 0 (clsOf dataFlit.cls) = true ∧
    (linkDie { l with sess := { l.sess with inRecs := List.replicate 1024 { txn := 0, ptxn := 0, cls := .b, kind := 0, node := 9 } } }).storeFree 0 .b =
      false := by
  refine ⟨rfl, rfl, by decide +kernel, by decide, rfl, ?_, by decide +kernel, by decide +kernel⟩
  unfold State.judge State.filterOk
  simp only [linkDie_filter]
  decide +kernel
/-- With a filter of zeros nothing is let through. -/
theorem test_w_filtered : let s := { linkDie (upLink 2 [dataFlit]) with banks := die0.banks }
    s.judge 0 2 [dataFlit] dataFlit false = .filter ∧ s.storeFree 0 (clsOf dataFlit.cls) = true := by decide +kernel
theorem test_w_link_response : let q : LinkRec := { txn := 5, cls := .b, src := 0, otxn := 1, kind := 0, deadline := 2 ^ 64 - 1 }
    ({ recs := [q] } : Sess).recs.find? (fun r => r.txn == (lflit 1 []).txn.toNat && r.kind + 1 == (lflit 1 []).kind &&
      r.cls == clsOf (lflit 1 []).cls) = some q ∧ ({ recs := [q] } : Sess).recs.find? (·.txn == 5) = some q ∧
    q.deadline < 2 ^ 64 ∧ ({} : Sess).recs.find? (·.txn == 5) = none := by decide +kernel
def outFlit : Flit := { kind := 0, cls := 2, resp := false, ep := 0, index := 0, last := true, dst := 0, src := 0, txn := 5 }
def egress (l : Link) : State := { die0 with links := [(23, l)], rings := { ports := [(portKey (linkStop 23) 1 0, [outFlit])] } }
theorem test_w_egress : let l : Link := { st := 4, sess := ({} : Sess).setVc 2 { limit := 1 }, waitFrom := [(0, 9)] }
    (egress l).link 23 = l ∧ (egress l).portMessage 23 .b = some (outFlit :: [], []) ∧ outFlit.index = 0 ∧
    (outFlit :: []).any (·.last) = true ∧ outFlit.bad = 0 ∧ outFlit.kind = 0 ∧ l.live = true ∧ l.stalled .b = false ∧
    l.sess.egressRoom .b = true ∧ ({} : Sess).egressRoom .b = false ∧ (egress l).portMessage 23 .a = none ∧
    l.waitFrom.find (clsNum .a) = some 9 ∧ l.stalled .a = false ∧ l.sess.egressRoom .a = false ∧
    l.waitFrom.find (clsNum .b) = none ∧ l.oldestWait .a = some 9 ∧ l.oldestWait .b = none ∧ apAck { outFlit with kind := 9 } = true := by decide +kernel
/-- The links that wait for the engine, and messages 1 to 3 of the partner. -/
def adLink (stage n : Nat) (b : List Byte) : Link :=
  { st := 3, adm := { stage := stage, sentMsg := 1, frags := [(n, { nfrag := 1, parts := [(0, b)] })] } }
theorem test_w_admission : (∀ n ∈ [1, 2, 3], (lane (adLink n n [])).link 23 = adLink n n [] ∧ (adLink n n []).adm.message n = some []) ∧
    (lane (adLink 1 1 [])).helloCode 23 [] = some 1 ∧ (adLink 2 2 []).adm.proveCode [] = some 1 ∧
    ({ lane (adLink 0 1 []) with admitQueue := [23] } : State).admitQueue = 23 :: [] ∧ (lane {}).admitQueue = [] ∧
    ({} : Link).st ≠ 3 ∧ (adLink 1 1 []).adm.sentMsg ≠ 0 ∧ (adLink 1 1 []).adm.sentAt < 2 ^ 63 ∧
    (adLink 1 1 []).adm.message ((adLink 1 1 []).adm.sentMsg + 1) = none := by decide +kernel
/-- RESULT with code 1, one with code 0 whose MAC is right or wrong, and one with a reserved field set. -/
theorem test_w_result : (let b : List Byte := 1 :: 1 :: List.replicate 62 0
      (adLink 3 3 b).adm.message 3 = some b ∧ resultOk b = true ∧ field b 1 1 ≠ 0) ∧
    (let b : List Byte := 1 :: 0 :: 0 :: 1 :: List.replicate 60 0
     (adLink 3 3 b).adm.message 3 = some b ∧ resultOk b = false) ∧
    (let b := 1 :: List.replicate 63 0
     (adLink 3 3 b).adm.message 3 = some b ∧ field b 1 1 = 0 ∧ (adLink 3 3 b).adm.stage = 3 ∧ resultOk b = true ∧
     (slice b 16 48 = hmac (adLink 3 3 b).adm.cPeer (slice b 0 16 ++ (adLink 3 3 b).adm.h) ∨
      slice b 16 48 ≠ hmac (adLink 3 3 b).adm.cPeer (slice b 0 16 ++ (adLink 3 3 b).adm.h))) :=
  ⟨by decide +kernel, by decide +kernel, by decide +kernel, by decide, rfl, by decide +kernel, Classical.em _⟩
/-! ## Words written out from the encoding tables -/

/-- Tables 3-4 to 3-7: op, rd, ra, rb or imm16, W, operation. -/
theorem test_dec_int : decodeWord a0 0b000001_00011_00001_00010_1_0000_000001 = some (.sub a0 ⟨true, 3, 1, 2⟩) ∧
    decodeWord a0 0b000001_11111_00001_00000_0_0000_010001 = some (.ctz a0 ⟨false, 31, 1⟩) ∧
    decodeWord a0 0b000001_00011_00001_00010_0_0000_011011 = some (.mulhiSu a0 ⟨3, 1, 2⟩) ∧
    decodeWord a0 0b000001_00011_00001_00010_1_0000_011011 = none ∧
    decodeWord a0 0b000001_00011_00001_00010_1_0000_010001 = none ∧ decodeWord a0 0 = none := by decide +kernel
theorem test_dec_imm : decodeWord a0 0b000010_00011_00001_1000000000000001 = some (.addi a0 ⟨3, 1, 0x8001⟩) ∧
    decodeWord a0 0b001000_00011_00001_0000000_1_10_011111 = some (.srai a0 ⟨true, 3, 1, 31⟩) ∧
    decodeWord a0 0b001000_00011_00001_0000000_1_10_100000 = none ∧
    decodeWord a0 0b001001_00011_000000000000000000001 = some (.liu a0 ⟨3, 1⟩) := by decide +kernel
theorem test_dec_jump : decodeWord a0 0b001011_00001_00010_1111111111111110 = some (.beq a0 ⟨1, 2, 0xFFFE⟩) ∧
    decodeWord a0 0b010000_00001_00010_0000000000000010 = some (.bgeu a0 ⟨1, 2, 2⟩) ∧
    decodeWord a0 0b010010_10000000000000000000000001 = some (.jal a0 ⟨0x2000001⟩) ∧
    decodeWord a0 0b010011_00101_00110_0000000000001000 = some (.jlr a0 ⟨5, 6, 8⟩) := by decide +kernel
/-- Table 3-8. -/
theorem test_dec_memory : decodeWord a0 0b010101_00011_00001_0000000000000001 = some (.ldBu a0 ⟨3, 1, 1⟩) ∧
    decodeWord a0 0b011110_00011_00001_0000000000001000 = some (.stD a0 ⟨3, 1, 8⟩) ∧
    decodeWord a0 0b100000_00011_00001_0000000000001000 = some (.fldD a0 ⟨3, 1, 8⟩) := by decide +kernel
/-- Table 3-9: D, rm, two reserved bits, operation; FMA: rc, operation, D, rm. -/
theorem test_dec_fp : decodeWord a0 0b100011_00011_00001_00010_1_011_00_00010 = some (.fmul a0 ⟨true, 3, 3, 1, 2⟩) ∧
    decodeWord a0 0b100011_00011_00001_00010_1_110_00_00010 = none ∧
    decodeWord a0 0b100011_00011_00001_00000_0_000_00_11001 = some (.movxf a0 ⟨false, 3, 1⟩) ∧
    decodeWord a0 0b100100_00011_00001_00010_00100_10_1_001 = some (.fnmadd a0 ⟨true, 1, 3, 1, 2, 4⟩) := by decide +kernel
/-- Table 3-10. -/
theorem test_dec_sys : decodeWord a0 0b100101_00000_00001_0000000000000011 = some (.loopI a0 ⟨1, 3⟩) ∧
    decodeWord a0 0b111111_00011_00000_00011_10000000010 = some (.rdcr a0 ⟨3, 0x402⟩) ∧
    decodeWord a0 0b111111_00000_00011_00100_00000000010 = some (.wrcr a0 ⟨3, 2⟩) ∧
    decodeWord a0 0b111111_00000_00000_01010_11111111111 = some (.trap a0 ⟨0x7FF⟩) ∧
    decodeWord a0 0b111111_00000_00001_00101_00000000000 = none := by decide +kernel
/-- Tables 4-4 to 4-7: vd, xa, xb, m, operation, imm4; vd, va, vb, m, D, operation; op 0x2B is the D form of 0x2A. -/
theorem test_dec_vector : decodeWord a0 0b101000_00011_00001_00101_010_0011_1111 = some (.vstsW a0 ⟨3, 1, 5, 2, 15⟩) ∧
    decodeWord a0 0b101001_00011_00001_00010_001_1_00_00001 = some (.vsub a0 ⟨true, 3, 1, 2, 1⟩) ∧
    decodeWord a0 0b101001_00_101_00001_00010_001_0_00_01110 = some (.vcmplt a0 ⟨false, 5, 1, 2, 1⟩) ∧
    decodeWord a0 0b101011_00011_00001_00010_001_100_00011 = some (.vfdiv a0 ⟨true, 4, 3, 1, 2, 1⟩) ∧
    decodeWord a0 0b101100_00011_00001_00010_00100_01_1_111 = some (.vfmsub a0 ⟨true, 3, 1, 2, 4, 7⟩) := by decide +kernel
/-- R96 and R100: the VMX word is that of Worked example 4-1, 0xB882_4836. -/
theorem test_dec_convert : decodeWord a0 0b101101_00011_00001_0110_0001_001_1_011_0 =
      some (.vcvt a0 ⟨3, 1, 6, 1, 1, true, 3⟩) ∧
    decodeWord a0 0xB8824836 = some (.vmxDown a0 ⟨4, 2, 9, 0, 1, true, 1, true⟩) ∧
    decodeWord a0 0b101110_00011_00001_01001_100_0000000_1 = some (.vmxUp a0 ⟨3, 1, 9, 4⟩) ∧
    decodeWord a0 0b101110_00011_00001_01001_110_0000000_1 = none := by decide +kernel
/-- Table 4-10. -/
theorem test_dec_mask : decodeWord a0 0b101111_00_011_00_001_00_010_000011_00000 = some (.vmandn a0 ⟨3, 1, 2⟩) ∧
    decodeWord a0 0b101111_00011_00000_01_101_001010_00_1_10 = some (.vmxs a0 ⟨3, 2, 5, 1, true⟩) ∧
    decodeWord a0 0b101111_00011_00001_01001_001011_00000 = some (.vcrc64 a0 ⟨3, 1, 9⟩) := by decide +kernel
/-- Tables 5-8 and 5-9, and the words of Worked example 5-1. -/
theorem test_dec_tile : decodeWord a0 0xC00A653E = some (.tld a0 ⟨0, 5, 6, 1, 4, 31, false⟩) ∧
    decodeWord a0 0xC04E693E = some (.tld a0 ⟨1, 7, 6, 2, 4, 31, false⟩) ∧
    decodeWord a0 0xCC045300 = some (.mma a0 ⟨0, 0, 1, 0, 1, 4, true, true, false⟩) ∧
    decodeWord a0 0b110000_0101_00001_00010_10_0001_11111_1 = some (.tld a0 ⟨5, 1, 2, 2, 1, 31, true⟩) ∧
    decodeWord a0 0b110001_1011_00001_00010_000000_00111_0 = some (.tst a0 ⟨11, 1, 2, 7⟩) ∧
    decodeWord a0 0b110010_0_101_00001_00010_0100_1001_01_00 = some (.twr a0 ⟨5, 1, 2, 9, 1⟩) ∧
    decodeWord a0 0b110011_11_000_001_10_01_1001_1_1_0_0000000 =
      some (.mma a0 ⟨3, 0, 1, 2, 1, 9, true, true, false⟩) ∧
    decodeWord a0 0b110100_01_00_00001_00000_001001_000000 = some (.asubr a0 ⟨1, 1⟩) := by decide +kernel
/-- Tables 6-3, 6-4 and 6-6. -/
theorem test_dec_slots : decodeWord a0 0b110110_00011_00001_0010_10_1000000000 = some (.stf a0 ⟨3, 1, 2, 0x200⟩) ∧
    decodeWord a0 0b110111_00000_00001_00010_00011_000000 = some (.szero a0 ⟨1, 2⟩) ∧
    decodeWord a0 0b111000_00011_00001_00010_11001_000000 = some (.amoCas a0 ⟨3, 1, 2⟩) ∧
    decodeWord a0 0b111000_00011_00001_00000_00010_000000 = some (.ldvL a0 ⟨3, 1⟩) := by decide +kernel
/-- Tables 7-9 and 7-10. -/
theorem test_dec_scion : decodeWord a0 0b111001_00011_00001_00010_00100_11_0000 = some (.send a0 ⟨3, 1, 2, 4, 3⟩) ∧
    decodeWord a0 0b111001_00011_00001_00010_00100_00_0000 = none ∧
    decodeWord a0 0b111010_00011_00000_00000_00000_101_000 = some (.dispatch a0 ⟨3, 5⟩) ∧
    decodeWord a0 0b111010_00011_00001_00000_00011_000000 = some (.hent a0 ⟨3, 1⟩) := by decide +kernel
/-! ## Ill-formed terms -/

def a28 : ThreadAt := { row := 28, col := 0, t := 0 }
/-- A thread below the last core row, a code that a field does not define, a unit that does not exist: each refused. -/
theorem test_wf_core_words : (Instr.add a28 ⟨false, 1, 2, 3⟩).wf = false ∧ (Instr.slli a0 ⟨true, 1, 2, 32⟩).wf = false ∧
    (Instr.fadd a0 ⟨false, 6, 1, 2, 3⟩).wf = false ∧ (Instr.vcvt a0 ⟨1, 2, 1, 1, 1, false, 0⟩).wf = false ∧
    (Instr.vcvt a0 ⟨1, 2, 6, 1, 1, false, 4⟩).wf = false ∧ (Instr.vcvt a0 ⟨1, 2, 1, 6, 1, false, 0⟩).wf = false ∧
    (Instr.vcvt a0 ⟨1, 2, 6, 1, 7, false, 0⟩).wf = false ∧ (Instr.vmxDown a0 ⟨1, 2, 3, 6, 1, false, 0, false⟩).wf = false ∧
    (Instr.vmxDown a0 ⟨1, 2, 3, 5, 7, false, 0, false⟩).wf = false ∧ (Instr.vmxUp a0 ⟨1, 2, 3, 6⟩).wf = false ∧
    (Instr.vmxs a0 ⟨1, 0, 7, 0, false⟩).wf = false := by decide
theorem test_wf_tile_words : (Instr.tld a0 ⟨0, 1, 2, 0, 11, 0, false⟩).wf = false ∧
    (Instr.tld a0 ⟨0, 1, 2, 3, 1, 0, false⟩).wf = false ∧ (Instr.tld a0 ⟨8, 1, 2, 1, 1, 0, false⟩).wf = false ∧
    (Instr.tld a0 ⟨12, 1, 2, 0, 1, 0, false⟩).wf = false ∧ (Instr.tst a0 ⟨12, 1, 2, 0⟩).wf = false ∧
    (Instr.twr a0 ⟨0, 1, 2, 0, 0⟩).wf = false ∧ (Instr.trl a0 ⟨0, 3⟩).wf = false ∧ (Instr.tz a0 ⟨0, 11, 0⟩).wf = false ∧
    (Instr.mma a0 ⟨0, 0, 1, 0, 0, 6, false, false, false⟩).wf = false ∧
    (Instr.mma a0 ⟨0, 0, 1, 1, 0, 1, false, false, false⟩).wf = false ∧
    (Instr.mma a0 ⟨0, 0, 1, 0, 0, 10, true, false, false⟩).wf = false := by decide
theorem test_wf_slot_words : (Instr.lde a0 ⟨1, 2, 3, 0⟩).wf = false ∧ (Instr.send a0 ⟨1, 2, 3, 0, 0⟩).wf = false ∧
    (Instr.dispatch a0 ⟨0, 7⟩).wf = false ∧ (Instr.dispatch a0 ⟨31, 7⟩).wf = false := by decide
theorem test_wf_units : (Instr.issueSlot ⟨28, 0⟩).wf = false ∧ (Instr.dbgRead 24).wf = false ∧
    (Instr.routerFlitArrival ⟨960, 0, .a, false⟩).wf = false ∧ (Instr.ringOutputSend ⟨⟨959, 8⟩, []⟩).wf = false ∧
    (Instr.ringOutputSend ⟨⟨1093, 0⟩, []⟩).wf = false ∧ (Instr.ringOutputSend ⟨⟨0, 0⟩, [⟨10, false⟩]⟩).wf = false ∧ (Instr.channelSlot 8 0 false).wf = false ∧
    (Instr.channelSlot 0 32 false).wf = false ∧ (Instr.streamCacheFill 0 ⟨2 ^ 21, []⟩).wf = false ∧
    (Instr.laneLoss 0 ⟨5, true⟩).wf = false ∧ (Instr.ingressForward 0 8).wf = false ∧ (Instr.prune (.link 24)).wf = false ∧
    (Instr.unitSwitch (.site 30 0)).wf = false ∧ (Instr.unitSwitch (.channel 0 32)).wf = false ∧
    (Instr.unitSwitch (.lane 0 5)).wf = false ∧ (Instr.unitSwitch (.link 24)).wf = false ∧
    (Instr.unitSwitch (.modul (2 ^ 18))).wf = false ∧ (Instr.tripFast 8).wf = false ∧ (Instr.feedLow 2).wf = false ∧
    (Instr.leak 10).wf = false ∧ (Instr.cablePresenceChange 34 true []).wf = false ∧
    (Instr.wardenChannelResend (.bay 8)).wf = false ∧ (Instr.handover (.channel 8)).wf = false ∧
    (Instr.dieReport (.stackChannel 8 0)).wf = false ∧ (Instr.dieReport (.linkQuarantine 24)).wf = false := by decide

/-! ## Witnesses: power, start, management messages -/

theorem test_w_power : die0.boot.powered = true ∧ die0.boot.inReset = false ∧ State.reset.boot.inReset = true ∧
    ({ die0 with boot := { die0.boot with powered := false } } : State).boot.powered = false ∧
    (let s := { die0 with boot := { die0.boot with ready := true, running := false }, time := { die0.time with epochSeen := 1 } }
     s.boot.powered = true ∧ s.boot.inReset = false ∧ s.boot.ready = true ∧ s.boot.running = false ∧ s.boot.readyEpoch < s.epoch) := by
  decide +kernel
def env0 : StartEnv := { straps := 0, dieFail := none, failedSites := [], failedChans := [], untrained := [], links := [], acquired := none }
theorem test_w_start : State.reset.boot.powered = true ∧ State.reset.boot.inReset = true ∧ rootstockUsable State.reset.boot.flashA = false ∧
    rootstockUsable State.reset.boot.flashB = false ∧ (startSiteMap {} [] none).isSome = true ∧ (startSiteMap {} [] (some (false, 0))).isSome = true ∧
    startSiteMap {} [0, 32, 64, 1, 33, 65] none = none ∧ ({ env0 with untrained := [7] } : StartEnv).untrained ≠ [] ∧
    1 < (State.reset.startRetired [(7, 0), (7, 31)] 7).length ∧ ¬ 1 < (State.reset.startRetired [(7, 0)] 7).length ∧
    State.reset.boot.locked = false := by decide +kernel
/-- Start goes on to the plan, and finds none. -/
theorem test_w_start_plan : ∃ s2, State.reset.startStacks env0 = some s2 ∧
    (match ((s2.startLinks env0).startTime env0.acquired).startPlan with
     | .error _ => true
     | .ok _ => false) = true := ⟨_, rfl, by decide +kernel⟩

/-- A management request: its header, and n flits of zeros after it. -/
def mmsg (b : List Byte) (n : Nat) : List LFlit :=
  (List.range (n + 1)).map fun i =>
    { lflit 10 (if i = 0 then b else []) with index := BitVec.ofNat 6 i, last := i == n }
theorem mgmt_at {s : State} {l : Link} {f : LFlit} {r : List LFlit} {g op : Nat} (hf : s.filter 0 = 2 ^ 128 - 1) (hl : s.link 0 = l)
    (hs : s.storeFree 0 .b = true) (h : (l.st == 4 && headMessage (l.sess.vc 7).rx == some (f :: r) && f.kind == 10 && l.grant == 3 && mgmtGroup f == g &&
      (g == 1 || g == 2 || g == 3) && mgmtOp f == op && l.partnerNode == f.src) = true) : MgmtAt s 0 g op f r := by
  simp only [Bool.and_eq_true, beq_iff_eq, Bool.or_eq_true] at h
  obtain ⟨⟨⟨⟨⟨⟨⟨h1, h2⟩, h3⟩, h4⟩, h5⟩, h6⟩, h7⟩, h8⟩ := h
  refine ⟨?_, by rw [hl]; exact h8⟩
  have hv : s.vcHead 0 7 = some (f :: r) := by rw [State.vcHead, hl]; exact h2
  have ok : s.mgmtOk 0 f = true := by
    unfold State.mgmtOk
    rw [hf, hl, h4, h5]
    rcases h6 with (rfl | rfl) | rfl <;> decide +kernel
  simp only [State.mgmtHead, hl, h1, hv, hs, bne_self_eq_false, Bool.not_true, Bool.or_self, Bool.false_eq_true, if_false, Option.filter, h3, h5,
    h7, ok, beq_self_eq_true, Bool.and_self, if_true]
theorem banks_filter {s : State} (h : s.banks = Vector.replicate 2 { loaded := true, block := blkF }) : s.filter 0 = 2 ^ 128 - 1 := by
  have e (i : Nat) : (s.bank i).block = blkF := by rw [State.bank, h, Vector.getElem_replicate, Vector.getElem_replicate, ite_self]
  rw [State.filter, State.routes, e]
  exact blkF_filter
/-- A header of 64 bytes that sets bytes at some offsets. -/
def hdr (b : Nat) (l : List (Nat × List Byte)) : List Byte :=
  l.foldl (fun h p => putBytes h p.1 p.2) (leBytes 1 b ++ List.replicate 63 0)
def planDie (b : List Byte) (n : Nat) (boot : Boot) : State := { linkDie (upLink 7 (mmsg b n)) with boot := boot }
theorem plan_at (b : List Byte) (n op : Nat) (boot : Boot) (h : let l := upLink 7 (mmsg b n)
    (l.st == 4 && headMessage (l.sess.vc 7).rx == some ((mmsg b n).headD (lflit 10 b) :: (mmsg b n).drop 1) &&
     ((mmsg b n).headD (lflit 10 b)).kind == 10 && l.grant == 3 && mgmtGroup ((mmsg b n).headD (lflit 10 b)) == 2 &&
     (2 == 1 || 2 == 2 || 2 == 3) && mgmtOp ((mmsg b n).headD (lflit 10 b)) == op &&
     l.partnerNode == ((mmsg b n).headD (lflit 10 b)).src) = true) :
    MgmtAt (planDie b n boot) 0 2 op ((mmsg b n).headD (lflit 10 b)) ((mmsg b n).drop 1) :=
  mgmt_at (l := upLink 7 (mmsg b n)) (banks_filter rfl) rfl rfl h
def sess0 : Session := { id := 1, link := 0, pages := 3, chunks := (List.range 6).map fun n => (n, []), last := 0 }
/-- OPEN of 3 pages, CHUNK at offset 0, INSTALL, ABORT of a session and of none, QUERY: each first in the buffer. -/
theorem test_w_plan_messages : ∀ p ∈ [(hdr 0x21 [(4, [3])], 0, 1), (hdr 0x21 [(4, [2])], 0, 1), (hdr 0x22 [(2, [1])], 32, 2),
      (hdr 0x23 [(2, [1]), (8, [0, 4])], 0, 3), (hdr 0x24 [(2, [1])], 0, 4), (hdr 0x24 [], 0, 4), (hdr 0x25 [], 0, 5)],
    ∀ boot, ∃ f r, MgmtAt (planDie p.1 p.2.1 boot) 0 2 p.2.2 f r ∧ lineBytes f.payload = p.1 ∧ (mgmtBody (f :: r)).length = 64 * p.2.1 := by
  intro p hp boot
  have q : ∀ p ∈ [(hdr 0x21 [(4, [3])], 0, 1), (hdr 0x21 [(4, [2])], 0, 1), (hdr 0x22 [(2, [1])], 32, 2), (hdr 0x23 [(2, [1]), (8, [0, 4])], 0, 3),
      (hdr 0x24 [(2, [1])], 0, 4), (hdr 0x24 [], 0, 4), (hdr 0x25 [], 0, 5)],
      ((let l := upLink 7 (mmsg p.1 p.2.1)
        l.st == 4 && headMessage (l.sess.vc 7).rx == some ((mmsg p.1 p.2.1).headD (lflit 10 p.1) :: (mmsg p.1 p.2.1).drop 1) &&
        ((mmsg p.1 p.2.1).headD (lflit 10 p.1)).kind == 10 && l.grant == 3 && mgmtGroup ((mmsg p.1 p.2.1).headD (lflit 10 p.1)) == 2 &&
        (2 == 1 || 2 == 2 || 2 == 3) && mgmtOp ((mmsg p.1 p.2.1).headD (lflit 10 p.1)) == p.2.2 &&
        l.partnerNode == ((mmsg p.1 p.2.1).headD (lflit 10 p.1)).src) = true) ∧
      lineBytes ((mmsg p.1 p.2.1).headD (lflit 10 p.1)).payload = p.1 ∧
      (mgmtBody ((mmsg p.1 p.2.1).headD (lflit 10 p.1) :: (mmsg p.1 p.2.1).drop 1)).length = 64 * p.2.1 := by decide +kernel
  exact ⟨_, _, plan_at p.1 p.2.1 p.2.2 boot (q p hp).1, (q p hp).2⟩
theorem test_w_plan_fields : (let h := hdr 0x21 [(4, [3])]
      zeroBytes h 1 3 = true ∧ zeroBytes h 8 56 = true ∧ field h 4 4 = 3) ∧ field (hdr 0x21 [(4, [0, 0, 1])]) 4 4 = 65536 ∧
    field (hdr 0x21 [(4, [1, 0, 1])]) 4 4 = 65537 ∧
    (let h := hdr 0x22 [(2, [1])]
     zeroBytes h 1 1 = true ∧ zeroBytes h 8 56 = true ∧ field h 4 4 % 2048 = 0 ∧ (some sess0).filter (fun x => x.link == 0 && x.id == field h 2 2) =
       some sess0 ∧ field (hdr 0x22 [(4, [0, 0x28])]) 4 4 < 4096 * sess0.pages ∧ 4096 * sess0.pages ≤ field (hdr 0x22 [(4, [0, 0x30])]) 4 4) ∧
    (let h := hdr 0x23 [(2, [1]), (8, [0, 4])]
     zeroBytes h 1 1 = true ∧ zeroBytes h 4 4 = true ∧ zeroBytes h 16 48 = true ∧ field h 8 8 = 1024 ∧ die0.epoch + 1024 ≤ field h 8 8 ∧
     sess0.whole = sess0.pages ∧ ({ sess0 with chunks := [] } : Session).whole ≠ sess0.pages ∧ die0.banksBusy = false ∧
     ({ die0 with boot := { die0.boot with lastSwitch := some 0 } } : State).banksBusy = true) ∧
    (match die0.planCheck sess0.image none with
     | .error c => c != 0
     | .ok _ => false) = true ∧
    ({ epoch := 65, plan := some {} } : NextBank).epoch > die0.epoch + 64 ∧ ({ epoch := 64, plan := some {} } : NextBank).epoch ≤ die0.epoch + 64 ∧
    sess0.last + 10000000000 < 2 ^ 64 ∧ 0 + 2 ≤ ({ die0 with time := { die0.time with epochSeen := 2 } } : State).epoch := by decide +kernel

/-- A group 0x2 operation from the warden. -/
def wardenDie (m : List Byte) : State := { die0 with wdn := { inbox := [(2, 0, 0, m)] } }
theorem unit_asked (m : List Byte) (op : Nat) (h : ((wardenDie m).alive && bodyGroup m == 2 && bodyOp m == op) = true) :
    UnitAsked (wardenDie m) .warden op (m.take 64) (m.drop 64) := by
  simp only [Bool.and_eq_true, beq_iff_eq] at h
  exact ⟨h.1.1, 0, 0, m, [], rfl, h.1.2, h.2, rfl, rfl⟩
/-- Operations 6 to 13 of the warden; a prune of lane 4 of link 23, of a channel, of a link and of module 0 at epochs 2 and 1. -/
theorem test_w_units : ∀ op ∈ [6, 7, 8, 9, 11, 12, 13], UnitAsked (wardenDie (hdr (0x20 + op) [])) .warden op ((hdr (0x20 + op) []).take 64)
    ((hdr (0x20 + op) []).drop 64) := by
  intro op ho
  refine unit_asked _ _ ?_
  revert ho; revert op
  decide +kernel
def unitHdr (kind : Byte) (fld : List Byte) (ix : List Byte) (b : Nat) : List Byte :=
  hdr 0x26 [(2, ix), (4, [kind] ++ fld), (8, leBytes 8 b)]
theorem test_w_units_asked_over_link : ∀ boot, UnitAsked (planDie (unitHdr 4 [23] [255, 255] 2) 0 boot) (.link 0) 6
    (lineBytes ((mmsg (unitHdr 4 [23] [255, 255] 2) 0).headD (lflit 10 (unitHdr 4 [23] [255, 255] 2))).payload)
    (mgmtBody ((mmsg (unitHdr 4 [23] [255, 255] 2) 0).headD (lflit 10 (unitHdr 4 [23] [255, 255] 2)) ::
      (mmsg (unitHdr 4 [23] [255, 255] 2) 0).drop 1)) := by
  intro boot
  exact ⟨_, _, plan_at _ 0 6 boot (by decide +kernel), rfl, rfl⟩
theorem test_w_unit_fields : (∀ k ∈ [(1 : Byte), 2, 3, 4, 5], (unitNamed (unitHdr k [0, 0] [255, 255] 2)).isSome = true) ∧
    unitNamed (unitHdr 0 [] [255, 255] 2) = none ∧ unitNamed (unitHdr 6 [] [255, 255] 2) = none ∧
    (let h := unitHdr 4 [23] [255, 255] 2
     zeroBytes h 1 1 = true ∧ zeroBytes h 16 48 = true ∧ field h 8 8 = 2 ∧ unitNamed h = some (.link 23) ∧ field h 2 2 = 0xFFFF ∧
     die0.indexOk (.link 23) 0xFFFF = true ∧ unitPresent (.link 23) = true ∧ unitPresent (.link 24) = false ∧
     die0.pruneState (.link 23) = true ∧ die0.channelRoom (.link 23) = true ∧ die0.epoch + 2 ≤ 2 ∧ 1 < die0.epoch + 2 ∧
     die0.epoch + 2 ^ 20 < 2 ^ 20 + 1) ∧
    (let s : State := { die0 with units := [{ unit := .link 23, st := 4 }], links := [(23, { st := 6 })] }
     s.graftState (.link 23) = true ∧ s.unitState (.link 23) = 4 ∧ s.testState (.link 23) = true ∧ die0.testState (.link 23) = false ∧
     die0.pruneState (.modul 0) = true ∧ unitIsModule (.modul 0) = true ∧
     ({ s with units := [{ unit := .link 23, st := 2 }] } : State).unitState (.link 23) ≠ 4) ∧
    (let s : State := { die0 with memStacks := [(7, { reloc := some { chan := 0, total := 1 } })] }
     s.channelRoom (.channel 7 31) = false ∧ s.pruneState (.channel 7 31) = true) ∧
    unitForm (hdr 0x28 [(4, [4, 23])]) [] = true ∧ unitNamed (hdr 0x28 [(4, [4, 23])]) = some (.link 23) := by decide +kernel
theorem test_w_unit_test_end : let s : State := { die0 with units := [{ unit := .lane 23 4, st := 3 }], links := [(23, { rxTest := some 4 })] }
    s.unitState (.lane 23 4) = 3 ∧ (s.link 23).rxTest = some 4 ∧ 2125000 ≤ 2125000 ∧ ¬ 2125001 ≤ 2125000 ∧ die0.unitState (.lane 23 4) ≠ 3 := by
  decide +kernel
/-- A prune at S and one past it, a graft, a module and a link at S + 2. -/
theorem test_w_unit_switch : let r : UnitRec := { unit := .link 23, st := 1, due := some 0 }
    ({ die0 with units := [r] } : State).unitRec (.link 23) = some r ∧ r.due = some 0 ∧ 0 ≤ die0.epoch ∧ die0.epoch < 1 ∧
    die0.unitRec (.link 23) = none ∧ ({ r with due := none } : UnitRec).due = none ∧ ({ r with graft := true } : UnitRec).graft = true ∧
    r.variant = 0xFFFF ∧
    (let m : UnitRec := { unit := .modul 0, st := 2, final := some 0 }
     ({ die0 with units := [m] } : State).unitRec (.modul 0) = some m ∧ m.unit = .modul 0 ∧ m.final = some 0 ∧ 0 = die0.boot.rs.node) ∧
    (let m : UnitRec := { unit := .link 23, st := 2, final := some 1 }
     ({ die0 with units := [m], links := [(23, { st := 4 })] } : State).unitRec (.link 23) = some m ∧ die0.epoch < 1 ∧
     (({ die0 with units := [m], links := [(23, { st := 4 })] } : State).link 23).live = true) := by decide +kernel
/-- The die with the descriptor of stream 0 in state n. -/
def movDie (n : Nat) (m : List Byte) : State :=
  { wardenDie m with memStacks := [(0, { cache := [(0, { id := 0, desc := desc n 0 })] })], strm := { earlier := [(0, 3)] } }
theorem test_w_migrate : (∀ n ∈ [0, 1, 2, 3, 4, 5], (movDie n (hdr 0x2B [])).cached 0 = some (desc n 0) ∧ Desc.st (desc n 0) = n ∧
      EngineFree (movDie n (hdr 0x2B [])) 0) ∧ (wardenDie (hdr 0x2B [])).cached 0 = none ∧
    (let h := hdr 0x2B []
     zeroBytes h 1 1 = true ∧ zeroBytes h 4 1 = true ∧ field h 5 3 < 2 ^ 21 ∧ zeroBytes h 8 56 = true ∧ h.drop 64 = [] ∧ zeroBytes h 2 2 = true) ∧
    field (hdr 0x2D [(2, [1])]) 2 2 = 1 ∧ field (hdr 0x2D []) 2 2 = 0 ∧ (movDie 4 (hdr 0x2D [])).strm.earlier.find 0 = some 3 ∧
    (desc 0 0).length = 128 ∧ die0.movedOk (desc 0 0) = false ∧ field (hdr 0x2C [(2, [23])]) 2 2 = 23 := by
  unfold EngineFree
  decide +kernel
theorem test_w_migrate_asked : UnitAsked (movDie 1 (hdr 0x2B [])) .warden 11 ((hdr 0x2B []).take 64) ((hdr 0x2B []).drop 64) :=
  ⟨by decide +kernel, 0, 0, hdr 0x2B [], [], rfl, by decide +kernel, by decide +kernel, rfl, rfl⟩
/-- A descriptor that a good arriving stream carries: class B, OPEN, a ring of one slot of 4 KiB at 0. -/
def moved : List Byte := recSet (recSet (recSet (recSet (recSet (List.replicate 128 0) 0 0 2 2) 0 2 3 1) 0 30 22 1) 48 40 16 1) 48 56 4 12
theorem test_w_migrate_in : let s : State := { die0 with boot := { die0.boot with plan := some { capB := 1 } }, memStacks := [(0, { cache := [(0, { id := 0, desc := desc 0 0 })] })] }
    s.movedOk moved = true ∧ s.refusing = false ∧ EngineFree s s.strm.fresh ∧ die0.cached die0.strm.fresh = none ∧ s.capacity (clsOf (BitVec.ofNat 2 (Desc.cls moved))) = true ∧
    s.periodOk (clsOf (BitVec.ofNat 2 (Desc.cls moved))) (Desc.period moved) = true ∧
    s.shareOk (clsOf (BitVec.ofNat 2 (Desc.cls moved))) 23 = true ∧ s.strm.fresh < 2 ^ 21 ∧ s.cached s.strm.fresh = some (desc 0 0) ∧
    moved.length = 128 ∧ die0.capacity .b = false := by
  unfold EngineFree
  decide +kernel

/-! ## Witnesses: hosts and the warden channel -/

/-- A host message of one operation, first on link 0; stream 0 is its sender's, in state n. -/
def hostDie (op n : Nat) (notices : List Notice := []) : State :=
  { linkDie (upLink 7 (mmsg (hdr (0x10 + op) []) 0)) with
    memStacks := [(0, { cache := [(0, { id := 0, desc := recSet (recSet (desc n 0) 64 0 18 9) 48 40 16 1 })] })], notices := notices }
theorem test_w_host : ∀ op ∈ [2, 3, 4, 5, 6], ∀ n ∈ [1, 2, 3, 4, 5],
    ∃ f d, HostAsked (hostDie op n) 0 op f d ∧ Desc.st d = n ∧ hostId (lineBytes f.payload) = 0 ∧ hostSlot (lineBytes f.payload) < Desc.harvestSlots d := by
  intro op ho n hn
  have q : ∀ op ∈ [2, 3, 4, 5, 6], ∀ n ∈ [1, 2, 3, 4, 5],
      let f := (mmsg (hdr (0x10 + op) []) 0).headD (lflit 10 [])
      let d := recSet (recSet (desc n 0) 64 0 18 9) 48 40 16 1
      (let l := upLink 7 (mmsg (hdr (0x10 + op) []) 0)
       l.st == 4 && headMessage (l.sess.vc 7).rx == some (f :: []) && f.kind == 10 && l.grant == 3 && mgmtGroup f == 1 &&
       (1 == 1 || 1 == 2 || 1 == 3) && mgmtOp f == op && l.partnerNode == f.src) = true ∧
      hostForm (lineBytes f.payload) [] (op == 3 || op == 4) = true ∧ hostId (lineBytes f.payload) < 2 ^ 21 ∧
      (hostDie op n).cached (hostId (lineBytes f.payload)) = some d ∧ Desc.st d ≠ 0 ∧ Desc.gen d = hostGen (lineBytes f.payload) ∧
      Desc.ownerNode d = f.src.toNat ∧ EngineFree (hostDie op n) (hostId (lineBytes f.payload)) ∧ Desc.st d = n ∧
      hostId (lineBytes f.payload) = 0 ∧ hostSlot (lineBytes f.payload) < Desc.harvestSlots d := by
    unfold EngineFree
    decide +kernel
  obtain ⟨h1, h2, h3, h4, h5, h6, h7, h9, h8⟩ := q op ho n hn
  have m : MgmtAt (hostDie op n) 0 1 op ((mmsg (hdr (0x10 + op) []) 0).headD (lflit 10 [])) [] :=
    mgmt_at (l := upLink 7 (mmsg (hdr (0x10 + op) []) 0)) (banks_filter rfl) rfl rfl h1
  exact ⟨_, _, ⟨m.head, m.src, h2, h3, h4, h5, h6, h7, h9⟩, h8⟩
/-- Lines that one access reaches, or cannot read; slot headers that are EMPTY, FILLING, FULL and TAKEN. -/
theorem test_w_host_slots : LineFree die0 (homeStack (64 * 0)) 0 ∧ LineFree die0 (homeStack (64 * (0 + 1 + 0))) (0 + 1 + 0) ∧ endsWell {} ∧
    slotAddr moved 0 = 0 ∧ homeStack 0 = 0 ∧ ({ result := .crcFail } : Access).result = .crcFail ∧
    (∀ n ∈ [0, 1, 2, 3], let h := Mem.readN [(0, BitVec.ofNat 8 n)] 0 64
      Slot.st h = n ∧ (n = 0 ∨ die0.epoch < Slot.fillEpoch h + die0.boot.rs.harvestRetention) ∧
      slotBad (recSet moved 48 40 16 1) (if n = 0 then List.replicate 64 0 else h) = false) :=
  ⟨lineFree_of (by decide +kernel), lineFree_of (by decide +kernel), .inl rfl, by decide +kernel⟩
/-- A SUBMIT that is refused; notices that are over, and one that waits. -/
theorem test_w_submit : ∃ f, (linkDie (upLink 7 (mmsg (hdr 0x11 []) 1))).hostHead 0 1 = some (f :: (mmsg (hdr 0x11 []) 1).drop 1) ∧
    ((linkDie (upLink 7 (mmsg (hdr 0x11 []) 1))).link 0).partnerNode = f.src ∧
    (linkDie (upLink 7 (mmsg (hdr 0x11 []) 1))).notices.any (·.op == 1) = false ∧
    (linkDie (upLink 7 (mmsg (hdr 0x11 []) 1))).submitCode 0 (lineBytes f.payload) (mgmtBody (f :: (mmsg (hdr 0x11 []) 1).drop 1)) ≠ 0 := by
  have m : MgmtAt (linkDie (upLink 7 (mmsg (hdr 0x11 []) 1))) 0 1 1 ((mmsg (hdr 0x11 []) 1).headD (lflit 10 [])) ((mmsg (hdr 0x11 []) 1).drop 1) :=
    mgmt_at (l := upLink 7 (mmsg (hdr 0x11 []) 1)) (banks_filter rfl) rfl rfl (by decide +kernel)
  refine ⟨(mmsg (hdr 0x11 []) 1).headD (lflit 10 []), ?_, by decide +kernel, by decide +kernel, by decide +kernel⟩
  rw [State.hostHead, if_neg (by decide)]
  exact m.head
def notice0 : Notice := { link := 0, op := 1, id := 0, gen := 0, txn := 0, await := 1, deadline := 0, ptxn := 5, node := 9 }
theorem test_w_notices : (hostDie 5 1 [notice0]).notices.find? (hostDie 5 1 [notice0]).noticeOver = some notice0 ∧
    (hostDie 5 1 [{ notice0 with deadline := 1 }]).notices.find? (hostDie 5 1 [{ notice0 with deadline := 1 }]).noticeOver = none ∧
    ((hostDie 5 1 [notice0]).link 0).live = true ∧ ((hostDie 5 1 [notice0]).link 0).partnerNode = notice0.node ∧
    (hostDie 5 1 [notice0]).noticeCode notice0 = 13 ∧ notice0.gen = Desc.gen (desc 1 0) := by decide +kernel

/-- A frame of the warden channel: type, seq, ack and flags. -/
def wframeOf (t seq ack flags : Nat) (body : List Byte) : List Byte :=
  let h := [BitVec.ofNat 8 t, BitVec.ofNat 8 seq, BitVec.ofNat 8 ack, BitVec.ofNat 8 flags, BitVec.ofNat 8 body.length] ++
    List.replicate 7 0 ++ body
  h ++ leBytes 4 (crc32c h)
def wframe (t seq ack flags : Nat) : List Byte := wframeOf t seq ack flags []
theorem test_w_warden_frames : wdnGood (List.replicate 16 0) = false ∧ wdnGood (wframe 4 0 7 0) = true ∧ wdnGood (wframe 2 5 7 0) = true ∧
    within 1 3 (field (wframe 2 5 7 0) 0 1) = true ∧ field (wframe 2 5 7 0) 3 1 = 0 ∧
    (let w : WdnEnd := { held := [(0, [])], resends := 16 }
     w.held.any (·.1 == BitVec.ofNat 8 (field (wframe 2 5 7 0) 2 1)) = false ∧
     BitVec.ofNat 8 (field (wframe 2 5 7 0) 1 1) ≠ w.lastRx + 1 ∧ w.held ≠ [] ∧ w.up = true ∧ 16 ≤ w.resends) ∧
    ({ up := false } : WdnEnd).up = false ∧ ({ held := [(0, [])] } : WdnEnd).resends < 16 ∧
    (∀ p ∈ [((2 : Nat), (0x26 : Byte), (2 : Nat)), (1, 0x31, 3)],
      let f := wframeOf p.1 0 7 0 [p.2.1]
      wdnGood f = true ∧ field f 0 1 = p.1 ∧ bodyGroup ((f.drop 12).take (f.length - 16)) = p.2.2 ∧ field f 3 1 = 0 ∧
      BitVec.ofNat 8 (field f 1 1) = ({ lastRx := 255 } : WdnEnd).lastRx + 1) ∧
    ({ die0 with tray := { die0.tray with active := some .a } } : State).tray.active ≠ none ∧
    ReportKind.paceAlarm ∈ ({ die0 with reports := [.paceAlarm] } : State).reports ∧ ReportKind.paceAlarm ∉ die0.reports := by decide +kernel
theorem test_w_forward : ∃ f, (linkDie (upLink 7 (mmsg (hdr 0x30 []) 0))).forwardHead 0 = some (f :: []) ∧ (linkDie {}).forwardHead 0 = none := by
  have m : MgmtAt (linkDie (upLink 7 (mmsg (hdr 0x30 []) 0))) 0 3 0 ((mmsg (hdr 0x30 []) 0).headD (lflit 10 [])) [] :=
    mgmt_at (l := upLink 7 (mmsg (hdr 0x30 []) 0)) (banks_filter rfl) rfl rfl (by decide +kernel)
  refine ⟨(mmsg (hdr 0x30 []) 0).headD (lflit 10 []), ?_, by decide +kernel⟩
  rw [State.forwardHead, List.range_eq_range', List.range', List.findSome?_cons, m.head]
/-- The tray, warden A active, with a group 0x3 message from bay 0, its trailer good or not. -/
def trayDie (m : List Byte) (t : Tray := {}) (y : Bay := {}) : State :=
  { die0 with tray := { t with active := some .a, bays := [(0, { y with chanEnd := { inbox := [(1, 0, 0, m)] } })] } }
def tmsg (op : Nat) (l : List (Nat × List Byte)) (body : List Byte := []) : List Byte := withTrailer (hdr (0x30 + op) l) body ++ body
theorem tray_asked (t : Tray) (y : Bay) (op : Nat) (m : List Byte) (h : (trailerOk (m.take 64) (m.drop 64) && decide (64 ≤ m.length) &&
    bodyGroup m == 3 && bodyOp m == op) = true) : TrayAsked (trayDie m t y) (.channel 0) op (m.take 64) (m.drop 64) := by
  simp only [Bool.and_eq_true, beq_iff_eq, decide_eq_true_eq] at h
  exact ⟨Option.some_ne_none _, h.1.1.1, m, _, rfl, h.1.1.2, h.1.2, h.2, rfl, rfl, trivial⟩
theorem test_w_tray_refusals : trailerOk ((hdr 0x31 []).take 64) ((hdr 0x31 []).drop 64) = false ∧
    (let m := withTrailer (hdr 0x3C [(1, [0xFF])]) []
     trailerOk (m.take 64) (m.drop 64) = true ∧ m.length = 64 ∧ m.getD 1 0 = 0xFF ∧ zeroBytes m 2 58 = true ∧ bodyOp m = 12 ∧
     bodyGroup m = 3 ∧ ({} : Tray).svc.level ≠ some 3) ∧
    (∀ op ∈ [0, 14, 15], let m := withTrailer (hdr (0x30 + op) []) []
     trailerOk (m.take 64) (m.drop 64) = true ∧ bodyGroup m = 3 ∧ bodyOp m = op) := by decide +kernel

/-! ## Witnesses: the tray -/

theorem test_w_latch : let t : Tray := { active := some .a, cardB := { present := true, healthy := true }, pulsed := 100, released := true }
    t.active = some .a ∧ otherWarden .a = .b ∧ (t.card .b).present = true ∧ (t.card .b).healthy = true ∧ t.pulsed ≤ t.ms + 100 ∧
    t.released = true ∧ ({} : Tray).active = none ∧ ({} : Tray).released = false ∧
    ¬ ((({} : Tray).card .b).present = true ∧ (({} : Tray).card .b).healthy = true) ∧ t.standby = some .b ∧ ({} : Tray).standby = none := by
  decide +kernel
/-- The tray whose bay 7 is y. -/
def bay7 (y : Bay) (t : Tray := {}) : State := { die0 with tray := { t with bays := [(7, y)] } }
theorem test_w_bay_channels : (∀ n ∈ [0, 1, 2, 3, 4, 5, 6, 7], ((bay7 { chan := n, present := true }).bay 7).chan = n) ∧
    (bay7 { chan := 5, present := true }).mayStart 7 = true ∧ (bay7 { chan := 5 }).mayStart 7 = false ∧
    (bay7 { chan := 5, present := true } { feedLow := [0], blocked := [1] }).mayStart 7 = false ∧
    ((bay7 {}).bay 7).reclosed = false ∧ ((bay7 {}).bay 7).lockout = false ∧ (bay7 {}).tray.startQueue = [] ∧
    (bay7 {}).tray.feedOk = true ∧ (bay7 {}).tray.leakLatch = false := by decide +kernel
theorem test_w_bay_sequences : ∀ w ∈ [BayWait.none, .ramp, .railsGood, .resetHeld, .powerDropped, .pruned 2, .retry],
    ∀ g ∈ [BayGoal.stop, .restart, .hold], ((bay7 { wait := w, goal := g, present := true, running := true }).bay 7).wait = w ∧
      ((bay7 { wait := w, goal := g, present := true, running := true }).bay 7).goal = g := by decide +kernel
theorem test_w_bay_starts : let y : Bay := { present := true, auto := true, chan := 3, wait := .ramp, expected := some 0 }
    (bay7 y).bay 7 = y ∧ y.limited = false ∧ (∃ f, f < 2 ∧ f ∉ (bay7 y).tray.feedLow ∧ f ∉ (bay7 y).tray.blocked) ∧ y.chan = 3 ∧
    y.wait = .ramp ∧ pageForm [] = false ∧ ({} : Bay).present = false ∧ ({} : Bay).chan = 0 :=
  ⟨rfl, rfl, ⟨1, by decide +kernel⟩, rfl, rfl, by decide +kernel, rfl, rfl⟩
theorem test_w_bay_failures : let y : Bay := { resetN := true, bootStatus := 0x80, candB := true, restarts := [0, 0, 0] }
    y.resetN = true ∧ y.running = false ∧ y.held = false ∧ y.retried = false ∧ bits y.bootStatus.toNat 7 4 = 1 ∧ y.straps = 0 ∧
    y.candB = true ∧ 3 ≤ (y.restarts.filter fun t => decide (35000 < t + 86400000)).length ∧
    bits ({ y with bootStatus := 0x180 } : Bay).bootStatus.toNat 7 4 = 3 ∧
    (let z : Bay := { resetN := true, running := true, hbAction := true, reports := [[9]] }
     z.held = false ∧ z.wait = .none ∧ z.reports = [[9]]) := by decide +kernel

/-- A warden operation, asked by bay 0's module. -/
def asked (op : Nat) (l : List (Nat × List Byte)) (body : List Byte) : Prop :=
  ∀ t y, TrayAsked (trayDie (tmsg op l body) t y) (.channel 0) op ((tmsg op l body).take 64) ((tmsg op l body).drop 64)
theorem asked_of {op : Nat} {l : List (Nat × List Byte)} {body : List Byte} (h : (trailerOk ((tmsg op l body).take 64) ((tmsg op l body).drop 64) &&
    decide (64 ≤ (tmsg op l body).length) && bodyGroup (tmsg op l body) == 3 && bodyOp (tmsg op l body) == op) = true) : asked op l body :=
  fun t y => tray_asked t y op _ h
/-- Every operation of Table 18-12 that carries no body, for bay 0 and for the whole tray. -/
theorem test_w_tray_asked : ∀ op ∈ [1, 2, 3, 4, 5, 7, 8, 10, 11, 12, 13], ∀ b ∈ [(0 : Byte), 7, 0xFF], asked op [(1, [b])] [] := by
  intro op ho b hb
  refine asked_of ?_
  revert hb; revert b; revert ho; revert op
  decide +kernel
set_option maxRecDepth 100000 in
theorem test_w_chunk_asked : asked 6 [(2, [1])] (List.replicate 2048 0) := asked_of (by decide +kernel)
theorem test_w_tray_fields : (let h := (tmsg 2 [(1, [0xFF]), (8, [64])] []).take 64
      field h 1 1 = 0xFF ∧ zeroBytes h 2 2 = true ∧ zeroBytes h 9 51 = true ∧ field h 8 1 = 64) ∧
    (∀ n ∈ [(1 : Byte), 2, 3, 4], let h := (tmsg 3 [(1, [7]), (4, [n])] []).take 64
      field h 1 1 = 7 ∧ field h 4 1 = n.toNat ∧ zeroBytes h 2 2 = true ∧ zeroBytes h 5 3 = true ∧ zeroBytes h 18 42 = true ∧
      zeroBytes h 8 10 = true ∧ field h 8 8 < 2 ^ 44) ∧
    (let h := (tmsg 4 [(1, [7]), (4, [9, 0, 0, 31])] []).take 64
     field h 4 3 < 2 ^ 18 ∧ field h 7 1 < 32 ∧ zeroBytes h 10 50 = true) ∧
    (let h := (tmsg 5 [(1, [7]), (4, [1]), (8, [3])] []).take 64
     field h 8 4 = 3 ∧ field h 4 1 < 2 ∧ zeroBytes h 5 3 = true ∧ zeroBytes h 12 48 = true) ∧
    field ((tmsg 5 [(8, [0, 0, 1])] []).take 64) 8 4 = 65536 ∧ field ((tmsg 5 [(8, [2])] []).take 64) 8 4 = 2 := by decide +kernel
def up0 (bundle : Bool) (chunks : Tab (List Byte)) : Upload := { id := 1, bundle := bundle, pages := 3, chunks := chunks, src := .channel 0 }
theorem test_w_uploads : ∀ fw : Bool,
    (some (up0 fw [])).filter (fun u => u.bundle == fw && u.id == 1 && !u.writing) = some (up0 fw []) ∧
    (some (up0 fw [])).filter (fun u => u.bundle == fw && u.id == 2 && !u.writing) = none ∧
    (up0 fw []).whole ≠ (up0 fw []).pages ∧
    (up0 fw ((List.range 6).map fun n => (n, []))).whole = (up0 fw ((List.range 6).map fun n => (n, []))).pages ∧
    rootstockValid (up0 fw ((List.range 6).map fun n => (n, []))).image = false ∧
    bundleValid (up0 fw ((List.range 6).map fun n => (n, []))).image = false ∧ (bay7 { chan := 3 }).bay 7 = { chan := 3 } ∧
    ({ chan := 3 } : Bay).runsImage true = false ∧
    ({ chan := 3 } : Bay).starting = false ∧ (let y : Bay := { chan := 3, resetN := true }
      y.starting = true ∧ y.resetN = true ∧ y.running = false ∧ y.straps ≠ 3) ∧ ({} : Bay).held = false ∧ 4096 * (up0 fw []).pages ≤ 12288 ∧ 10240 < 4096 * (up0 fw []).pages ∧
    (some { up0 fw [] with writing := true }).filter (fun u => u.writing && u.bundle == fw) = some { up0 fw [] with writing := true } := by
  decide +kernel
theorem test_w_firmware : let c : Card := { present := true, healthy := true, staged := some { set := 1 } }
    let t : Tray := { active := some .a, cardA := c, cardB := c }
    t.mayActivate = true ∧ t.activation = 0 ∧ t.standby = some .b ∧ (∀ v ∈ [Warden.a, .b], (t.card v).staged = some { set := 1 } ∧ (t.card v).run < 1) ∧
    ({} : Tray).mayActivate = false ∧ ({ t with activation := 1 } : Tray).activation ≠ 0 := by decide +kernel
theorem test_w_service : let f := fun (b : List Byte) => svcFrame b
    spMessage (f [0x41]) 1 = some [0x41] ∧ spMessage (f [0x42]) 1 = none ∧ spMessage (f [0x42]) 2 = some [0x42] ∧ spMessage [] 2 = none ∧
    ({} : Tray).authority = none := by decide +kernel
theorem test_w_holdup : ({} : HoldUp).fitted = true ∧ (List.replicate 17 2200 ++ [2751]).length = 18 ∧
    2750 < (List.replicate 17 2200 ++ [2751]).getD 17 0 ∧ (List.replicate 18 0 ++ [201]).length = 19 ∧ ({} : HoldUp).openTaps = [] ∧
    ({} : HoldUp).marginal = [] ∧ ({} : HoldUp).measureFault = false ∧ (∃ j, j < 19 ∧ 5 ≤ (List.replicate 18 0 ++ [5]).getD j 0) ∧
    ({ fitted := false } : HoldUp).fitted = false := by decide +kernel
theorem test_w_cables : let s : State := { die0 with tray := { die0.tray with cables := [(33, { present := true })] } }
    33 < 34 ∧ (s.tray.cables.at 33 {}).present = true ∧ (s.tray.cables.at 0 {}).present = false := by decide +kernel

/-! ## Witnesses: control registers and slots -/

def crns : List (BitVec 11) := [0x000, 3, 0x040, 0x041, 0x042, 0x043, 0x044, 0x045, 0x046, 0x047, 0x048, 0x049, 0x052, 0x07A, 0x080,
  0x082, 0x097, 0x098, 0x0A0, 0x0A1, 0x0A2, 0x0AD, 0x0AE, 0x0BF, 0x0C0, 0x0C4, 0x0C7, 0x17F, 0x322, 0x340]
def thc : Thread := { thx [(1, 6)] with lnkSel := 23 }
/-- RDCR and WRCR of each register that the statement names, at the ends of its ranges. -/
theorem test_w_control : ∀ i ∈ crns.map (fun n => Instr.rdcr a0 ⟨3, n⟩) ++ crns.map fun n => .wrcr a0 ⟨1, n⟩,
    threadOf i = some a0 ∧ Issues i a0 (die thc) 0 ∧ true = true := words_of (by decide +kernel)
theorem test_w_control_values : ((die thc).thr 0 0).lnkSel.toNat % 32 < 24 ∧ ((die thc).thr 0 0).rx 1 = 6 ∧
    1 ≤ (6 : W64).toNat % 16 ∧ (6 : W64).toNat % 16 ≤ 6 := by decide +kernel
theorem test_w_debug : ∀ p ∈ [hdr 0x2A [(2, [0, 1, 27, 31, 0, 31])], hdr 0x2A [(2, [0, 1, 27, 31, 8, 31])], hdr 0x2A [(2, [8, 0, 28, 0])],
      hdr 0x2A [(2, [7])]], ∃ f, MgmtAt (linkDie (upLink 7 (mmsg p 0))) 0 2 10 f [] ∧ lineBytes f.payload = p := by
  intro p hp
  have q : ∀ p ∈ [hdr 0x2A [(2, [0, 1, 27, 31, 0, 31])], hdr 0x2A [(2, [0, 1, 27, 31, 8, 31])], hdr 0x2A [(2, [8, 0, 28, 0])], hdr 0x2A [(2, [7])]],
      (let l := upLink 7 (mmsg p 0)
       let f := (mmsg p 0).headD (lflit 10 [])
       l.st == 4 && headMessage (l.sess.vc 7).rx == some (f :: []) && f.kind == 10 && l.grant == 3 && mgmtGroup f == 2 &&
       (2 == 1 || 2 == 2 || 2 == 3) && mgmtOp f == 10 && l.partnerNode == f.src) = true ∧
      lineBytes ((mmsg p 0).headD (lflit 10 [])).payload = p := by decide +kernel
  exact ⟨_, mgmt_at (l := upLink 7 (mmsg p 0)) (banks_filter rfl) rfl rfl (q p hp).1, (q p hp).2⟩
/-- The window's last 256 bytes, 8 bytes past it, row 28, and 7 bytes. -/
theorem test_w_debug_fields : (let h := hdr 0x2A [(2, [0, 1, 27, 31, 0, 31])]
      zeroBytes h 1 1 = true ∧ zeroBytes h 8 56 = true ∧ field h 2 2 = 256 ∧ field h 6 2 + field h 2 2 = 8192 ∧ field h 4 1 = 27 ∧ field h 5 1 = 31) ∧
    field (hdr 0x2A [(2, [0, 1, 27, 31, 8, 31])]) 6 2 + 256 = 8200 ∧ field (hdr 0x2A [(2, [8, 0, 28, 0])]) 4 1 = 28 ∧
    field (hdr 0x2A [(2, [7])]) 2 2 = 7 := by decide +kernel
/-- Slot 0 of an owner that can issue, of one that cannot, in ready mode of another; a malformed and a bad word. -/
theorem test_w_slots_issue : let c := coreOf (thx []) { istore := [(2, encodeWord (.park a0))], slot := 1 }
    ((withCore c).siteOf 0 0 = some 0 ∧ (withCore c).running = true) ∧ c.candidate k0 0 ∧ ¬ c.candidate k0 1 ∧ c.badWord 0 = false ∧
    c.head 0 0 0 = some (.park a0) ∧ ({ c with istoreBad := [2] } : Core).badWord 0 = true ∧ nextB (exec (.park a0) (withCore c)) = true ∧
    ({ c with istore := [(2, encodeWord (.liu a0 ⟨5, 0x1234⟩))] } : Core).head 0 0 0 = some (.liu a0 ⟨5, 0x1234⟩) ∧
    ({ c with istore := [(2, 0xFFFFFFFF)] } : Core).head 0 0 0 = none ∧ (withCore c (s := State.reset)).running = false := by
  refine ⟨by decide +kernel, ⟨by decide +kernel, by decide +kernel, by decide +kernel,
    .inr (.inr ⟨.park a0, by decide +kernel, by decide +kernel, by decide +kernel⟩)⟩, ?_,
    by decide +kernel, by decide +kernel, by decide +kernel, by decide +kernel, by decide +kernel, by decide +kernel, by decide +kernel⟩
  intro h
  exact absurd h.1 (by decide +kernel)

/-! ## Results worked in the spec, or by hand from its rules -/

/-- Worked example 3-2: x5 after LIU, ORI and SHI. -/
theorem test_liu_ori_slli : (thr0 (exec (.liu a0 ⟨5, 0x1234⟩) (die (thx [])))).rx 5 = 0x12340000 ∧
    (thr0 (exec (.ori a0 ⟨5, 5, 0x5678⟩) (die (thx [(5, 0x12340000)])))).rx 5 = 0x12345678 ∧
    (thr0 (exec (.slli a0 ⟨false, 5, 5, 8⟩) (die (thx [(5, 0x12345678)])))).rx 5 = 0x1234567800 := by decide +kernel
/-- R69: division by zero, and of the most negative number by −1, in both widths. -/
theorem test_div_corners : (thr0 (exec (.div a0 ⟨false, 3, 1, 0⟩) (die (thx [(1, 7)])))).rx 3 = 0x7FFFFFFFFFFFFFFF ∧
    (thr0 (exec (.remu a0 ⟨true, 3, 1, 0⟩) (die (thx [(1, 0x80000000)])))).rx 3 = 0xFFFFFFFF80000000 ∧
    (thr0 (exec (.div a0 ⟨false, 3, 1, 2⟩) (die (thx [(1, 0x8000000000000000), (2, BitVec.allOnes 64)])))).rx 3 = 0x7FFFFFFFFFFFFFFF ∧
    (thr0 (exec (.rem a0 ⟨true, 3, 1, 2⟩) (die (thx [(1, 0x80000000), (2, BitVec.allOnes 64)])))).rx 3 = BitVec.allOnes 64 := by decide +kernel
/-- Worked examples 4-1 and 20-1: block 5 met 37.5, and block 2 met 9.75. -/
def thMax : Thread := { thx [] with mx := (Vector.replicate 4 0).set 1 (BitVec.ofNat 1024 (0x42160000 * 2 ^ 160 + 0x411C0000 * 2 ^ 64)) }
theorem test_vmxs : (laneV false ((thr0 (exec (.vmxs a0 ⟨6, 1, 0, 0, true⟩) (die thMax))).v[6]) 1) / 256 % 256 = 0x7C ∧
    laneV false ((thr0 (exec (.vmxs a0 ⟨6, 1, 0, 1, true⟩) (die thMax))).v[6]) 0 / 65536 % 256 = 123 := by decide +kernel
/-- Table 4-11, h = 0: 37.5, −52, 60 and 0.3 in lanes 0 to 3 go to bytes 64 to 67 of v4, and one lane saturates. -/
def thVmx : Thread := { thx [(9, 0x457C)] with v := (Vector.replicate 32 0).set 2 (BitVec.ofNat 1024 0x3E99999A_42700000_C2500000_42160000) }
theorem test_vmx : laneV false ((thr0 (exec (.vmxDown a0 ⟨4, 2, 9, 0, 1, true, 1, true⟩) (die thVmx))).v[4]) 16 = 0x427EFD79 ∧
    (thr0 (exec (.vmxDown a0 ⟨4, 2, 9, 0, 1, true, 1, true⟩) (die thVmx))).satLanes = 1 := by decide +kernel
/-- Worked example 4-2. -/
theorem test_vcrc64 : (thr0 (exec (.vcrc64 a0 ⟨5, 3, 6⟩) (die { thx [(5, BitVec.allOnes 64), (6, 9)] with
    v := (Vector.replicate 32 0).set 3 0x393837363534333231 }))).rx 5 ^^^ BitVec.allOnes 64 = 0x995DC9BBDF1939FA := by decide +kernel
/-- Worked examples 1-1, 9-1 and 9-2: a mesh link, a home stack with its channel and edge stop, a descriptor's place. -/
theorem test_places : meshNode 0xA302 2 = 0xA305 ∧ meshNode 0xA305 4 = 0xA302 ∧ homeStack 0x1234567800 = 3 ∧
    chanOf (0x1234567800 / 64) = 8 ∧ stackPort 3 = 16 ∧ descAddr 0x12345 = 0x5E20123400 ∧ linkStop 17 = 58 ∧ linkStop 3 = 4 := by decide +kernel
/-- Worked example 9-2: ADVANCE by 200 past the limit, by 152 up to it, and again. -/
theorem test_stream_advance : (thr0 (exec (.streamAdvance a0) (strmDie 2 1 2097000 200))).strmStat = 3 ∧
    (thr0 (exec (.streamAdvance a0) (strmDie 2 1 2097000 152))).strmResp = 2097152 ∧
    ((after (exec (.streamAdvance a0) (strmDie 2 1 2097000 152))).cached 8).map Desc.st = some 2 ∧
    (thr0 (exec (.streamAdvance a0) (strmDie 2 2 2097152 1))).strmStat = 2 := by decide +kernel
/-- R82 on chip time: RDTIME of cycles to ns reads the clock's upper 64 bits. -/
theorem test_rdtime : (thr0 (exec (.rdtime a0 ⟨3⟩) { die (thx []) with time := { die0.time with clock := 7 * 2 ^ 40 + 5 } })).rx 3 = 7 := by
  decide +kernel
/-- Worked example 5-1: ac0[0][0] = 49.25. -/
theorem test_mma_element : (mmaElem 4 true 0 (opGroups 4 true ([0x79, 0xFD, 0x42, 0x7E] ++ List.replicate 124 0))
    (opGroups 4 true ([0x38, 0x30, 0x40, 0x28] ++ List.replicate 124 0)) [0x7C] [0x80]).1 = 0x42450000 := by decide +kernel
/-- Worked example 5-1: row 5, byte 20 under AIL, and row 9, byte 37 under BIL. -/
theorem test_layouts : groupOff 1 5 1 + 4 = 596 ∧ groupOff 2 9 2 + 5 = 1173 := by decide

end Sys2Proof.Tests
end

section
/-! Integer words: each operation at the width of its W bit is the rule of its table, on integers (R68, R69). -/

namespace Sys2Proof.Machine

/-! ## Operands and results at the width of the W bit -/

/-- An operand at the width of the W bit: all 64 bits, or the low 32. -/
def lowOf (w : Bool) (v : W64) : BitVec (widthOf w) := v.setWidth (widthOf w)

theorem widthOf_pos (w : Bool) : 0 < widthOf w := by cases w <;> decide

theorem toSigned_toNat {n : Nat} (h : 0 < n) (x : BitVec n) : toSigned n x.toNat = x.toInt := by
  obtain ⟨m, rfl⟩ : ∃ m, n = m + 1 := ⟨n - 1, by omega⟩
  have half : x.toNat < 2 ^ (m + 1 - 1) ↔ 2 * x.toNat < 2 ^ (m + 1) := by
    rw [Nat.add_sub_cancel, Nat.pow_succ]; omega
  rw [toSigned, BitVec.toInt_eq_toNat_cond, Nat.mod_eq_of_lt x.isLt, Int.natCast_pow]
  simp only [half]
  rfl

theorem toInt_lowOf (w : Bool) (v : W64) : (lowOf w v).toInt = sgnOf w v := by
  rw [← toSigned_toNat (widthOf_pos w)]
  cases w <;> simp [lowOf, sgnOf, widthOf, toSigned]

theorem toNat_lowOf (w : Bool) (v : W64) : (lowOf w v).toNat = unsOf w v := by
  cases w
  · exact congrArg BitVec.toNat v.setWidth_eq
  · exact BitVec.toNat_setWidth 32 v

theorem unsOf_lt (w : Bool) (v : W64) : unsOf w v < 2 ^ widthOf w := toNat_lowOf w v ▸ (lowOf w v).isLt

theorem amtOf_eq_mod (w : Bool) (v : W64) : amtOf w v = (lowOf w v).toNat % widthOf w := by
  rw [toNat_lowOf]
  cases w <;> simp [amtOf, unsOf, widthOf]

theorem ofInt_toNat {n : Nat} (x : BitVec n) : BitVec.ofInt n (x.toNat : Int) = x := by
  rw [BitVec.ofInt_natCast, BitVec.ofNat_toNat, BitVec.setWidth_eq]

@[simp] theorem ofInt_sgnOf (w : Bool) (v : W64) : BitVec.ofInt (widthOf w) (sgnOf w v) = lowOf w v := by
  rw [← toInt_lowOf, BitVec.ofInt_toInt]

@[simp] theorem ofNat_unsOf (w : Bool) (v : W64) : BitVec.ofNat (widthOf w) (unsOf w v) = lowOf w v := by
  rw [← toNat_lowOf, BitVec.ofNat_toNat, BitVec.setWidth_eq]

theorem wrapOf_eq_signExtend (w : Bool) (r : Int) : wrapOf w r = (BitVec.ofInt (widthOf w) r).signExtend 64 := by
  cases w
  · exact (BitVec.signExtend_eq _).symm
  · have h : (r % 2 ^ 32).toNat = (BitVec.ofInt 32 r).toNat := (BitVec.toNat_ofInt r).symm
    rw [wrapOf, if_pos rfl, h, toSigned_toNat (by decide)]
    rfl

theorem aluW_eq_signExtend (w : Bool) (f : Alu) (a b : W64) :
    aluW w f a b = (f (widthOf w) (lowOf w a) (lowOf w b)).signExtend 64 := by
  cases w
  · simp [aluW, lowOf, widthOf]
  · rfl

/-- An operation gives a rule's number where it gives it at the width of the W bit. -/
theorem aluW_eq_wrapOf {w : Bool} {f : Alu} {a b : W64} {r : Int}
    (h : f (widthOf w) (lowOf w a) (lowOf w b) = BitVec.ofInt (widthOf w) r) : aluW w f a b = wrapOf w r := by
  rw [aluW_eq_signExtend, wrapOf_eq_signExtend, h]

/-! ## Sums, products and bitwise words -/

section
variable (w : Bool) (a b : W64)

theorem aluW_add : aluW w aluAdd a b = wrapOf w (sgnOf w a + sgnOf w b) :=
  aluW_eq_wrapOf (by simp [aluAdd, BitVec.ofInt_add])

theorem aluW_sub : aluW w aluSub a b = wrapOf w (sgnOf w a - sgnOf w b) :=
  aluW_eq_wrapOf (by simp [aluSub, Int.sub_eq_add_neg, BitVec.ofInt_add, BitVec.ofInt_neg, BitVec.sub_eq_add_neg])

theorem aluW_mul : aluW w aluMul a b = wrapOf w (sgnOf w a * sgnOf w b) :=
  aluW_eq_wrapOf (by simp [aluMul, BitVec.ofInt_mul])

theorem aluW_and : aluW w aluAnd a b = wrapOf w (unsOf w a &&& unsOf w b : Nat) :=
  aluW_eq_wrapOf (by simp [aluAnd, BitVec.ofInt_natCast, BitVec.ofNat_and])

theorem aluW_or : aluW w aluOr a b = wrapOf w (unsOf w a ||| unsOf w b : Nat) :=
  aluW_eq_wrapOf (by simp [aluOr, BitVec.ofInt_natCast, BitVec.ofNat_or])

theorem aluW_xor : aluW w aluXor a b = wrapOf w (unsOf w a ^^^ unsOf w b : Nat) :=
  aluW_eq_wrapOf (by simp [aluXor, BitVec.ofInt_natCast, BitVec.ofNat_xor])

/-- The bits of a that b lacks are a less the bits that they share. -/
theorem and_not_eq_sub {n : Nat} (x y : BitVec n) : x &&& ~~~y = x - (x &&& y) := by
  have disjoint : (x &&& ~~~y) &&& (x &&& y) = 0#n := by ext i hi; cases h : x[i] <;> simp [h]
  have whole : (x &&& ~~~y) ||| (x &&& y) = x := by ext i hi; cases h : x[i] <;> simp [h]
  rw [BitVec.eq_sub_iff_add_eq, BitVec.add_eq_or_of_and_eq_zero _ _ disjoint, whole]

theorem aluW_andn : aluW w aluAndn a b = wrapOf w ((unsOf w a : Int) - (unsOf w a &&& unsOf w b : Nat)) :=
  aluW_eq_wrapOf (by simp [aluAndn, and_not_eq_sub, Int.sub_eq_add_neg, BitVec.ofInt_add, BitVec.ofInt_neg,
    BitVec.ofInt_natCast, BitVec.ofNat_and, BitVec.sub_eq_add_neg])

end

/-! ## Shifts and rotation -/

theorem shiftLeft_eq_ofInt {n : Nat} (x : BitVec n) (k : Nat) : x <<< k = BitVec.ofInt n (x.toInt * 2 ^ k) := by
  have power : BitVec.ofInt n (2 ^ k) = BitVec.twoPow n k := by
    rw [show (2 ^ k : Int) = ((2 ^ k : Nat) : Int) by push_cast; rfl, BitVec.ofInt_natCast]
    exact BitVec.eq_of_toNat_eq (by rw [BitVec.toNat_ofNat, BitVec.toNat_twoPow])
  rw [BitVec.shiftLeft_eq_mul_twoPow, BitVec.ofInt_mul, BitVec.ofInt_toInt, power]

theorem ushiftRight_eq_ofInt {n : Nat} (x : BitVec n) (k : Nat) : x >>> k = BitVec.ofInt n (x.toNat / 2 ^ k : Nat) := by
  rw [← Nat.shiftRight_eq_div_pow, ← BitVec.toNat_ushiftRight, ofInt_toNat]

theorem sshiftRight_eq_ofInt {n : Nat} (x : BitVec n) (k : Nat) :
    x.sshiftRight k = BitVec.ofInt n (x.toInt / 2 ^ k) := by
  have power : ((2 ^ k : Nat) : Int) = 2 ^ k := by push_cast; rfl
  rw [← power, ← Int.shiftRight_eq_div_pow, ← BitVec.toInt_sshiftRight, BitVec.ofInt_toInt]

/-- The two parts of a rotation share no bit, so their union is their sum. -/
theorem rotateRight_eq_ofInt {n k : Nat} (x : BitVec n) (h : k < n) :
    x.rotateRight k = BitVec.ofInt n (rorRule n x.toNat k : Nat) := by
  have high : x.toNat <<< (n - k) % 2 ^ n = (x.toNat % 2 ^ k) <<< (n - k) := by
    have width : 2 ^ n = 2 ^ k * 2 ^ (n - k) := by rw [← Nat.pow_add, Nat.add_sub_cancel' (Nat.le_of_lt h)]
    rw [Nat.shiftLeft_eq, Nat.shiftLeft_eq, width, Nat.mul_mod_mul_right]
  have low : x.toNat >>> k < 2 ^ (n - k) := by
    rw [Nat.shiftRight_eq_div_pow, Nat.div_lt_iff_lt_mul (Nat.two_pow_pos k), ← Nat.pow_add, Nat.sub_add_cancel (Nat.le_of_lt h)]
    exact x.isLt
  have parts : (x.rotateRight k).toNat = rorRule n x.toNat k := by
    rw [BitVec.toNat_rotateRight, Nat.mod_eq_of_lt h, high, Nat.or_comm, ← Nat.shiftLeft_add_eq_or_of_lt low, rorRule,
      Nat.shiftRight_eq_div_pow, Nat.shiftLeft_eq, Nat.add_comm]
  rw [← parts, ofInt_toNat]

section
variable (w : Bool) (a b : W64)

theorem aluW_sll : aluW w aluSll a b = wrapOf w (sgnOf w a * 2 ^ amtOf w b) :=
  aluW_eq_wrapOf (by rw [aluSll, shiftLeft_eq_ofInt, toInt_lowOf, amtOf_eq_mod])

theorem aluW_srl : aluW w aluSrl a b = wrapOf w (unsOf w a / 2 ^ amtOf w b : Nat) :=
  aluW_eq_wrapOf (by rw [aluSrl, ushiftRight_eq_ofInt, toNat_lowOf, amtOf_eq_mod])

theorem aluW_sra : aluW w aluSra a b = wrapOf w (sgnOf w a / 2 ^ amtOf w b) :=
  aluW_eq_wrapOf (by rw [aluSra, sshiftRight_eq_ofInt, toInt_lowOf, amtOf_eq_mod])

theorem aluW_ror : aluW w aluRor a b = wrapOf w (rorRule (widthOf w) (unsOf w a) (amtOf w b) : Nat) :=
  aluW_eq_wrapOf (by
    rw [aluRor, rotateRight_eq_ofInt _ (Nat.mod_lt _ (widthOf_pos w)), toNat_lowOf, amtOf_eq_mod])

/-! ## Comparisons, least and greatest -/

theorem slt_lowOf : (lowOf w a).slt (lowOf w b) = decide (sgnOf w a < sgnOf w b) := by
  rw [BitVec.slt, toInt_lowOf, toInt_lowOf]

theorem ult_lowOf : (lowOf w a).ult (lowOf w b) = decide (unsOf w a < unsOf w b) := by
  rw [BitVec.ult, toNat_lowOf, toNat_lowOf]

theorem aluW_of_bool {f : Alu} {p : Prop} [Decidable p]
    (h : f (widthOf w) (lowOf w a) (lowOf w b) = BitVec.ofNat (widthOf w) (decide p).toNat) :
    aluW w f a b = if p then 1 else 0 := by
  have bit : ∀ c : Bool, (BitVec.ofNat (widthOf w) c.toNat).signExtend 64 = if c then 1 else 0 := by
    cases w <;> decide
  rw [aluW_eq_signExtend, h, bit]
  simp only [decide_eq_true_eq]

theorem aluW_lts : aluW w aluLts a b = if sgnOf w a < sgnOf w b then 1 else 0 :=
  aluW_of_bool w a b (by rw [aluLts, slt_lowOf])

theorem aluW_ltu : aluW w aluLtu a b = if unsOf w a < unsOf w b then 1 else 0 :=
  aluW_of_bool w a b (by rw [aluLtu, ult_lowOf])

theorem aluW_min : aluW w aluMin a b = wrapOf w (min (sgnOf w a) (sgnOf w b)) := by
  refine aluW_eq_wrapOf ?_
  rw [aluMin, slt_lowOf]
  by_cases h : sgnOf w a < sgnOf w b
  · simp [h, Int.min_eq_left (Int.le_of_lt h)]
  · simp [h, Int.min_eq_right (Int.not_lt.mp h)]

theorem aluW_max : aluW w aluMax a b = wrapOf w (max (sgnOf w a) (sgnOf w b)) := by
  refine aluW_eq_wrapOf ?_
  rw [aluMax, slt_lowOf]
  by_cases h : sgnOf w a < sgnOf w b
  · simp [h, Int.max_eq_right (Int.le_of_lt h)]
  · simp [h, Int.max_eq_left (Int.not_lt.mp h)]

theorem aluW_minu : aluW w aluMinu a b = wrapOf w (min (unsOf w a) (unsOf w b) : Nat) := by
  refine aluW_eq_wrapOf ?_
  rw [aluMinu, ult_lowOf, BitVec.ofInt_natCast]
  by_cases h : unsOf w a < unsOf w b
  · simp [h, Nat.min_eq_left (Nat.le_of_lt h)]
  · simp [h, Nat.min_eq_right (Nat.not_lt.mp h)]

theorem aluW_maxu : aluW w aluMaxu a b = wrapOf w (max (unsOf w a) (unsOf w b) : Nat) := by
  refine aluW_eq_wrapOf ?_
  rw [aluMaxu, ult_lowOf, BitVec.ofInt_natCast]
  by_cases h : unsOf w a < unsOf w b
  · simp [h, Nat.max_eq_right (Nat.le_of_lt h)]
  · simp [h, Nat.max_eq_left (Nat.not_lt.mp h)]

/-! ## Division (R69) -/

theorem lowOf_eq_zero_iff_sgnOf : lowOf w b = 0 ↔ sgnOf w b = 0 := by
  rw [← toInt_lowOf, ← BitVec.toInt_inj, BitVec.ofNat_eq_ofNat, BitVec.toInt_zero]

theorem lowOf_eq_zero_iff_unsOf : lowOf w b = 0 ↔ unsOf w b = 0 := by
  rw [← toNat_lowOf, ← BitVec.toNat_inj, BitVec.ofNat_eq_ofNat, BitVec.toNat_zero]

theorem toInt_intMin_widthOf : (BitVec.intMin (widthOf w)).toInt = botOf w := by cases w <;> decide

theorem ofInt_botOf : BitVec.ofInt (widthOf w) (botOf w) = BitVec.intMin (widthOf w) := by cases w <;> decide

theorem ofInt_topOf : BitVec.ofInt (widthOf w) (topOf w) = BitVec.intMax (widthOf w) := by cases w <;> decide

theorem ofInt_neg_one (n : Nat) : BitVec.ofInt n (-1) = BitVec.allOnes n := by
  simp [BitVec.ofInt_neg, BitVec.neg_one_eq_allOnes]

/-- The one pair of sources whose quotient is past the largest number. -/
theorem quotient_overflows_iff :
    (lowOf w a = BitVec.intMin (widthOf w) ∧ lowOf w b = BitVec.allOnes (widthOf w)) ↔
      (sgnOf w a = botOf w ∧ sgnOf w b = -1) := by
  rw [← BitVec.toInt_inj, ← BitVec.toInt_inj, toInt_lowOf, toInt_lowOf, toInt_intMin_widthOf, BitVec.toInt_allOnes,
    if_pos (widthOf_pos w)]

theorem aluW_div : aluW w aluDiv a b = wrapOf w (divRule w (sgnOf w a) (sgnOf w b)) := by
  refine aluW_eq_wrapOf ?_
  have negative : (lowOf w a).slt 0 = decide (sgnOf w a < 0) := by
    rw [BitVec.slt, toInt_lowOf, BitVec.ofNat_eq_ofNat, BitVec.toInt_zero]
  simp only [aluDiv, divRule, lowOf_eq_zero_iff_sgnOf, quotient_overflows_iff, negative, decide_eq_true_eq]
  split
  · by_cases h : sgnOf w a < 0
    · rw [if_pos h, if_neg (Int.not_le.mpr h), ofInt_botOf]
    · rw [if_neg h, if_pos (Int.not_lt.mp h), ofInt_topOf]
  · split
    · rw [ofInt_topOf]
    · next h =>
      rw [← quotient_overflows_iff, ← BitVec.neg_one_eq_allOnes] at h
      rw [← toInt_lowOf, ← toInt_lowOf, ← BitVec.toInt_sdiv_of_ne_or_ne _ _ (Decidable.not_and_iff_or_not.mp h), BitVec.ofInt_toInt]

theorem aluW_rem : aluW w aluRem a b = wrapOf w (remRule w (sgnOf w a) (sgnOf w b)) := by
  refine aluW_eq_wrapOf ?_
  simp only [aluRem, remRule, lowOf_eq_zero_iff_sgnOf, quotient_overflows_iff]
  split
  · rw [ofInt_sgnOf]
  · split
    · rw [ofInt_neg_one]
    · rw [← toInt_lowOf, ← toInt_lowOf, ← BitVec.toInt_srem, BitVec.ofInt_toInt]

theorem aluW_divu : aluW w aluDivu a b =
    wrapOf w (if unsOf w b = 0 then -1 else (unsOf w a / unsOf w b : Nat)) := by
  refine aluW_eq_wrapOf ?_
  simp only [aluDivu, lowOf_eq_zero_iff_unsOf]
  split
  · rw [ofInt_neg_one]
  · rw [← toNat_lowOf, ← toNat_lowOf, ← BitVec.toNat_udiv, ofInt_toNat]

theorem aluW_remu : aluW w aluRemu a b = wrapOf w (unsOf w a % unsOf w b : Nat) := by
  refine aluW_eq_wrapOf ?_
  simp only [aluRemu, lowOf_eq_zero_iff_unsOf]
  split
  · next h => rw [h, Nat.mod_zero, ← toNat_lowOf, ofInt_toNat]
  · rw [← toNat_lowOf, ← toNat_lowOf, ← BitVec.toNat_umod, ofInt_toNat]

end

/-! ## Counting bits -/

/-- The first number of a run with a property comes after those that lack it. -/
theorem find?_range'_getD (p : Nat → Bool) (s n : Nat) :
    ((List.range' s n).find? p).getD (s + n) = s + ((List.range' s n).takeWhile fun k => !p k).length := by
  induction n generalizing s with
  | zero => rfl
  | succ n ih =>
    rw [List.range'_succ, List.find?_cons, List.takeWhile_cons]
    cases p s with
    | true => simp
    | false => simpa [Nat.add_assoc, Nat.add_comm 1] using ih (s + 1)

theorem lowestSet_eq (n u : Nat) :
    lowestSet n u = ((List.range n).takeWhile fun k => u / 2 ^ k % 2 == 0).length := by
  have clear : (fun k => u / 2 ^ k % 2 == 0) = fun k => !u.testBit k := by
    funext k
    rw [← Nat.toNat_testBit]; cases u.testBit k <;> rfl
  have h := find?_range'_getD u.testBit 0 n
  rwa [Nat.zero_add, Nat.zero_add, ← List.range_eq_range', ← clear] at h

theorem leadZeros_zero (n : Nat) : leadZeros n 0 = n := by
  rw [leadZeros, List.find?_eq_none.mpr (by simp), Option.getD_none]

theorem leadZeros_eq {n u : Nat} (h0 : u ≠ 0) (h : u < 2 ^ n) : leadZeros n u = n - 1 - Nat.log2 u := by
  have top : u.log2 < n := (Nat.log2_lt h0).mpr h
  have first : (List.range n).find? (fun i => u.testBit (n - 1 - i)) = some (n - 1 - u.log2) := by
    rw [List.find?_range_eq_some]
    refine ⟨?_, List.mem_range.mpr (by omega), fun j hj => ?_⟩
    · rw [show n - 1 - (n - 1 - u.log2) = u.log2 by omega]
      exact Nat.testBit_log2 h0
    · have above : u < 2 ^ (n - 1 - j) := (Nat.log2_lt h0).mp (by omega)
      rw [Nat.testBit_lt_two_pow above]; rfl
  rw [leadZeros, first, Option.getD_some]

theorem popCount_eq (n u : Nat) : popCount n u = ((List.range n).map fun k => u / 2 ^ k % 2).sum := by
  rw [popCount]
  induction List.range n with
  | nil => rfl
  | cons k l ih =>
    rw [List.filter_cons, List.map_cons, List.sum_cons, ← ih, ← Nat.toNat_testBit]
    cases u.testBit k <;> simp [Nat.add_comm]

section
variable (w : Bool) (a b : W64)

theorem aluW_clz : aluW w (fun n x _ => aluClz n x) a b =
    wrapOf w (let u := unsOf w a; if u = 0 then widthOf w else widthOf w - 1 - Nat.log2 u : Nat) := by
  refine aluW_eq_wrapOf ?_
  rw [aluClz, toNat_lowOf, BitVec.ofInt_natCast]
  by_cases h : unsOf w a = 0
  · simp [h, leadZeros_zero]
  · simp [h, leadZeros_eq h (unsOf_lt w a)]

theorem aluW_ctz : aluW w (fun n x _ => aluCtz n x) a b =
    wrapOf w (let u := unsOf w a; ((List.range (widthOf w)).takeWhile fun k => u / 2 ^ k % 2 == 0).length : Nat) :=
  aluW_eq_wrapOf (by rw [aluCtz, toNat_lowOf, BitVec.ofInt_natCast, lowestSet_eq])

theorem aluW_popc : aluW w (fun n x _ => aluPopc n x) a b =
    wrapOf w (let u := unsOf w a; ((List.range (widthOf w)).map fun k => u / 2 ^ k % 2).sum : Nat) :=
  aluW_eq_wrapOf (by rw [aluPopc, toNat_lowOf, BitVec.ofInt_natCast, popCount_eq])

end

end Sys2Proof.Machine
end

section
/-! Integer words: a word that issues writes its rule's result, and the x registers (R59, R68, R69). -/

namespace Sys2Proof.Machine

/-! ## A word that issues -/

/-- Nothing precedes the effect of a word that issues, unless a fault of its own does. -/
theorem Issues.noFault {i : Instr} {a : ThreadAt} {s : State} {site : Nat} (h : Issues i a s site)
    {own : Option FaultRec} (hown : own = none) :
    (earlyFault i own).or (((s.core site).thr a.t).sourceFault (sources i)) = none := by
  have sound : ((s.core site).thr a.t).sourceFault (sources i) = none := h.sound
  simp [earlyFault, h.wellFormed, hown, sound]

theorem Issues.ready_running {i : Instr} {a : ThreadAt} {s : State} {site : Nat} (h : Issues i a s site) :
    (s.running && (s.core site).readyFor a i) = true := by
  rw [h.running, h.ready]; rfl

/-- A word that issues, and whose body does not fault, leaves the state that its body answers. -/
theorem Issues.issue_ok {i : Instr} {a : ThreadAt} {s s' : State} {site : Nat} (h : Issues i a s site)
    {e : Thread → Option FaultRec} {b : Body} (he : e (s.thr site a.t) = none)
    (hb : b site (s.core site) (s.thr site a.t) = .ok s') : s.issue i a e b = .next s' := by
  rw [State.issue_runs s i a e b site h.core h.ready_running (h.noFault he)]
  rw [State.thr] at hb
  rw [hb]

/-- A word that issues, and whose body faults, raises that fault. -/
theorem Issues.issue_error {i : Instr} {a : ThreadAt} {s : State} {site : Nat} {f : FaultRec} (h : Issues i a s site)
    {e : Thread → Option FaultRec} {b : Body} (he : e (s.thr site a.t) = none)
    (hb : b site (s.core site) (s.thr site a.t) = .error f) : s.issue i a e b = .next (s.raise site a.t f) := by
  rw [State.issue_runs s i a e b site h.core h.ready_running (h.noFault he)]
  rw [State.thr] at hb
  rw [hb]

theorem Issues.issueReg {i : Instr} {a : ThreadAt} {s : State} {site : Nat} (h : Issues i a s site)
    (f : Thread → Thread) : s.issueReg i a f = .next (s.setThr site a.t (f (s.thr site a.t)).retire) :=
  h.issue_ok rfl rfl

/-! ## Words that write one x register -/

/-- The word of thread a that, issued from th, writes v to x register rd and retires. -/
def WritesX (i : Instr) (a : ThreadAt) (th : Thread) (rd : BitVec 5) (v : W64) : Prop :=
  ∃ f : Thread → Thread, (∀ s, exec i s = s.issueReg i a f) ∧ f th = th.wx rd v

theorem WritesX.exec_eq {i : Instr} {a : ThreadAt} {s : State} {site : Nat} {rd : BitVec 5} {v : W64}
    (hw : WritesX i a (s.thr site a.t) rd v) (h : Issues i a s site) :
    exec i s = .next (s.setThr site a.t ((s.thr site a.t).wx rd v).retire) := by
  obtain ⟨f, hexec, hf⟩ := hw
  rw [hexec, h.issueReg, hf]

/-- A rule that answers for the word's thread names what the word writes. -/
theorem WritesX.of_rule {i : Instr} {t a : ThreadAt} {th : Thread} {rd rd' : BitVec 5} {v v' : W64}
    (hw : WritesX i t th rd v) (ht : some t = some a) (hr : some (rd, v) = some (rd', v')) : WritesX i a th rd' v' := by
  cases ht; cases hr; exact hw

section
variable {i : Instr} {t : ThreadAt} {th : Thread} {f : Alu} {v : W64}

theorem writesX_intOp {o : IntOp} (hexec : ∀ s, exec i s = s.issueReg i t (intOp f o))
    (hv : aluW o.w f (th.rx o.ra) (th.rx o.rb) = v) : WritesX i t th o.rd v :=
  ⟨_, hexec, by rw [intOp, hv]⟩

theorem writesX_intUn {u : (n : Nat) → BitVec n → BitVec n} {o : IntUn}
    (hexec : ∀ s, exec i s = s.issueReg i t (intUn u o))
    (hv : aluW o.w (fun n x _ => u n x) (th.rx o.ra) 0 = v) : WritesX i t th o.rd v :=
  ⟨_, hexec, by rw [intUn, hv]⟩

theorem writesX_value {g : Thread → W64} {rd : BitVec 5}
    (hexec : ∀ s, exec i s = s.issueReg i t fun th => th.wx rd (g th))
    (hv : g th = v) : WritesX i t th rd v :=
  ⟨_, hexec, congrArg (th.wx rd) hv⟩

/-- An immediate word is the operation of 64 bits on the extended immediate. -/
theorem writesX_immOp {o : ImmOp} {b : W64} (hexec : ∀ s, exec i s = s.issueReg i t (immOp f b o))
    (hv : aluW false f (th.rx o.ra) b = v) : WritesX i t th o.rd v :=
  ⟨_, hexec, by rw [immOp, ← hv]; rfl⟩

theorem writesX_shOp {o : ShOp} (hexec : ∀ s, exec i s = s.issueReg i t (shOp f o))
    (hv : aluW o.w f (th.rx o.ra) (o.amt.zeroExtend 64) = v) : WritesX i t th o.rd v :=
  ⟨_, hexec, by rw [shOp, hv]⟩

end

theorem sgnOf_false (v : W64) : sgnOf false v = v.toInt := toSigned_toNat (by decide) v

theorem unsOf_false (v : W64) : unsOf false v = v.toNat := rfl

theorem mulHigh_signed (a b : W64) :
    mulHigh a.toInt b.toInt = wrapOf false (sgnOf false a * sgnOf false b / 2 ^ 64) := by
  rw [sgnOf_false, sgnOf_false]; rfl

theorem mulHigh_unsigned (a b : W64) :
    mulHigh a.toNat b.toNat = wrapOf false (unsOf false a * unsOf false b / 2 ^ 64 : Nat) := by
  rw [Int.natCast_ediv, Int.natCast_mul, Int.natCast_pow]
  rfl

theorem mulHigh_mixed (a b : W64) :
    mulHigh a.toInt b.toNat = wrapOf false (sgnOf false a * (unsOf false b : Int) / 2 ^ 64) := by
  rw [sgnOf_false]; rfl

theorem exec_mulhiS (t : ThreadAt) (o : XOp) (s : State) : exec (.mulhiS t o) s =
    s.issueReg (.mulhiS t o) t fun th => th.wx o.rd (mulHigh (th.rx o.ra).toInt (th.rx o.rb).toInt) := rfl

theorem exec_mulhiU (t : ThreadAt) (o : XOp) (s : State) : exec (.mulhiU t o) s =
    s.issueReg (.mulhiU t o) t fun th => th.wx o.rd (mulHigh (th.rx o.ra).toNat (th.rx o.rb).toNat) := rfl

theorem exec_mulhiSu (t : ThreadAt) (o : XOp) (s : State) : exec (.mulhiSu t o) s =
    s.issueReg (.mulhiSu t o) t fun th => th.wx o.rd (mulHigh (th.rx o.ra).toInt (th.rx o.rb).toNat) := rfl

/-- Table 3-6: every INT word writes its rule's result. The cases stand in the order of intRule's arms. -/
theorem writesX_of_intRule {i : Instr} {a : ThreadAt} {th : Thread} {rd : BitVec 5} {v : W64}
    (ha : threadOf i = some a) (hr : intRule i th = some (rd, v)) : WritesX i a th rd v := by
  unfold intRule at hr
  split at hr
  · exact (writesX_intOp (fun _ => rfl) (aluW_add ..)).of_rule ha hr
  · exact (writesX_intOp (fun _ => rfl) (aluW_sub ..)).of_rule ha hr
  · exact (writesX_intOp (fun _ => rfl) (aluW_mul ..)).of_rule ha hr
  · exact (writesX_intOp (fun _ => rfl) (aluW_and ..)).of_rule ha hr
  · exact (writesX_intOp (fun _ => rfl) (aluW_or ..)).of_rule ha hr
  · exact (writesX_intOp (fun _ => rfl) (aluW_xor ..)).of_rule ha hr
  · exact (writesX_intOp (fun _ => rfl) (aluW_andn ..)).of_rule ha hr
  · exact (writesX_intOp (fun _ => rfl) (aluW_sll ..)).of_rule ha hr
  · exact (writesX_intOp (fun _ => rfl) (aluW_srl ..)).of_rule ha hr
  · exact (writesX_intOp (fun _ => rfl) (aluW_sra ..)).of_rule ha hr
  · exact (writesX_intOp (fun _ => rfl) (aluW_ror ..)).of_rule ha hr
  · exact (writesX_intOp (fun _ => rfl) (aluW_lts ..)).of_rule ha hr
  · exact (writesX_intOp (fun _ => rfl) (aluW_ltu ..)).of_rule ha hr
  · exact (writesX_intOp (fun _ => rfl) (aluW_min ..)).of_rule ha hr
  · exact (writesX_intOp (fun _ => rfl) (aluW_max ..)).of_rule ha hr
  · exact (writesX_intOp (fun _ => rfl) (aluW_minu ..)).of_rule ha hr
  · exact (writesX_intOp (fun _ => rfl) (aluW_maxu ..)).of_rule ha hr
  · exact (writesX_intOp (fun _ => rfl) (aluW_div ..)).of_rule ha hr
  · exact (writesX_intOp (fun _ => rfl) (aluW_rem ..)).of_rule ha hr
  · exact (writesX_intOp (fun _ => rfl) (aluW_divu ..)).of_rule ha hr
  · exact (writesX_intOp (fun _ => rfl) (aluW_remu ..)).of_rule ha hr
  · exact (writesX_value (exec_mulhiS _ _) (mulHigh_signed ..)).of_rule ha hr
  · exact (writesX_value (exec_mulhiU _ _) (mulHigh_unsigned ..)).of_rule ha hr
  · exact (writesX_value (exec_mulhiSu _ _) (mulHigh_mixed ..)).of_rule ha hr
  · exact (writesX_intUn (fun _ => rfl) (aluW_clz ..)).of_rule ha hr
  · exact (writesX_intUn (fun _ => rfl) (aluW_ctz ..)).of_rule ha hr
  · exact (writesX_intUn (fun _ => rfl) (aluW_popc ..)).of_rule ha hr
  · cases hr

/-! ## Immediates (R68) -/

theorem sgnOf_sext16 (i : BitVec 16) : sgnOf false (sext16 i) = simm i := by
  rw [sgnOf_false, simm, toSigned_toNat (by decide), sext16, BitVec.toInt_signExtend_of_le (by decide)]

theorem unsOf_zext16 (i : BitVec 16) : unsOf false (zext16 i) = uimm i :=
  BitVec.toNat_setWidth_of_le (by decide)

/-- R66 refuses an amount above 31 in the W form, so the amount field is the shift amount. -/
theorem amtOf_amt {w : Bool} {amt : BitVec 6} (h : (!(w && decide (31 < amt.toNat))) = true) :
    amtOf w (amt.zeroExtend 64) = amt.toNat := by
  have bound := amt.isLt
  have same : (amt.zeroExtend 64).toNat = amt.toNat := BitVec.toNat_setWidth_of_le (by decide)
  rw [amtOf, same]
  cases w
  · exact Nat.mod_eq_of_lt bound
  · exact Nat.mod_eq_of_lt (Nat.lt_succ_of_le (by simpa using h))

theorem amtOf_of_wf {i : Instr} {t : ThreadAt} {o : ShOp} (hwf : i.wf = true)
    (hi : i.wf = (t.ok && !(o.w && decide (31 < o.amt.toNat)))) : amtOf o.w (o.amt.zeroExtend 64) = o.amt.toNat :=
  amtOf_amt (Bool.and_eq_true_iff.mp (hi ▸ hwf)).2

theorem liu_eq_wrapOf (i : BitVec 21) : i.signExtend 64 <<< 16 = wrapOf false (toSigned 21 i.toNat * 2 ^ 16) := by
  rw [shiftLeft_eq_ofInt, BitVec.toInt_signExtend_of_le (by decide), toSigned_toNat (by decide)]
  rfl

theorem exec_liu (t : ThreadAt) (o : LiuOp) (s : State) :
    exec (.liu t o) s = s.issueReg (.liu t o) t fun th => th.wx o.rd (o.imm.signExtend 64 <<< 16) := rfl

/-- Table 3-7: every immediate word that is well formed writes its rule's result. The cases stand in the order of
immRule's arms. -/
theorem writesX_of_immRule {i : Instr} {a : ThreadAt} {th : Thread} {rd : BitVec 5} {v : W64} (hwf : i.wf = true)
    (ha : threadOf i = some a) (hr : immRule i th = some (rd, v)) : WritesX i a th rd v := by
  unfold immRule at hr
  split at hr
  · exact (writesX_immOp (fun _ => rfl) ((aluW_add ..).trans (by rw [sgnOf_sext16]))).of_rule ha hr
  · exact (writesX_immOp (fun _ => rfl) ((aluW_and ..).trans (by rw [unsOf_zext16, unsOf_false]))).of_rule ha hr
  · exact (writesX_immOp (fun _ => rfl) ((aluW_or ..).trans (by rw [unsOf_zext16, unsOf_false]))).of_rule ha hr
  · exact (writesX_immOp (fun _ => rfl) ((aluW_xor ..).trans (by rw [unsOf_zext16, unsOf_false]))).of_rule ha hr
  · exact (writesX_immOp (fun _ => rfl) ((aluW_lts ..).trans (by rw [sgnOf_sext16]))).of_rule ha hr
  · exact (writesX_immOp (fun _ => rfl) ((aluW_ltu ..).trans (by rw [unsOf_zext16, unsOf_false]))).of_rule ha hr
  · exact (writesX_shOp (fun _ => rfl) ((aluW_sll ..).trans (by rw [amtOf_of_wf hwf rfl]))).of_rule ha hr
  · exact (writesX_shOp (fun _ => rfl) ((aluW_srl ..).trans (by rw [amtOf_of_wf hwf rfl]))).of_rule ha hr
  · exact (writesX_shOp (fun _ => rfl) ((aluW_sra ..).trans (by rw [amtOf_of_wf hwf rfl]))).of_rule ha hr
  · exact (writesX_shOp (fun _ => rfl) ((aluW_ror ..).trans (by rw [amtOf_of_wf hwf rfl]))).of_rule ha hr
  · exact (writesX_value (exec_liu _ _) (liu_eq_wrapOf ..)).of_rule ha hr
  · cases hr

/-! ## The x registers (R59) -/

section
variable (th : Thread) (n : BitVec 5) (v : W64)

@[simp] theorem Thread.rx_zero : th.rx 0 = 0 := rfl
@[simp] theorem Thread.wx_zero : th.wx 0 v = th := rfl
@[simp] theorem Thread.wx_f : (th.wx n v).f = th.f := by unfold Thread.wx; split <;> rfl
@[simp] theorem Thread.wx_v : (th.wx n v).v = th.v := by unfold Thread.wx; split <;> rfl
@[simp] theorem Thread.wx_m : (th.wx n v).m = th.m := by unfold Thread.wx; split <;> rfl
@[simp] theorem Thread.wx_mx : (th.wx n v).mx = th.mx := by unfold Thread.wx; split <;> rfl
@[simp] theorem Thread.wx_flags : (th.wx n v).flags = th.flags := by unfold Thread.wx; split <;> rfl
@[simp] theorem Thread.wx_pc : (th.wx n v).pc = th.pc := by unfold Thread.wx; split <;> rfl

variable {n}

theorem Thread.wx_of_ne_zero (h : n ≠ 0) :
    th.wx n v = { th.clearMarks (.x n) with x := th.x.set n.toNat v n.isLt } := if_neg h

theorem Thread.rx_wx_same (h : n ≠ 0) : (th.wx n v).rx n = v := by
  rw [th.wx_of_ne_zero v h, Thread.rx, if_neg h]
  exact Vector.getElem_set_self n.isLt

theorem Thread.rx_wx_ne {k : BitVec 5} (h : k ≠ n) : (th.wx n v).rx k = th.rx k := by
  have places : n.toNat ≠ k.toNat := fun e => h (BitVec.eq_of_toNat_eq e.symm)
  by_cases hn : n = 0
  · subst hn; rfl
  · simp [th.wx_of_ne_zero v hn, Thread.rx, Thread.clearMarks, places]

theorem Thread.wx_badParity (h : n ≠ 0) : RegRef.x n ∉ (th.wx n v).badParity := by
  simp [th.wx_of_ne_zero v h, Thread.clearMarks]

theorem Thread.wx_poison (h : n ≠ 0) : ∀ p ∈ (th.wx n v).poison, p.1 ≠ RegRef.x n := by
  simp [th.wx_of_ne_zero v h, Thread.clearMarks]

theorem Thread.wx_waiting (h : n ≠ 0) : ∀ p ∈ (th.wx n v).waiting, p.1 ≠ RegRef.x n := by
  simp [th.wx_of_ne_zero v h, Thread.clearMarks]

end

/-- Settles O7: at the width of its W bit each operation is its rule on integers, and a word that issues writes that. -/
theorem integerWordResults : Obligations.IntegerWordResults := by
  unfold Obligations.IntegerWordResults
  refine ⟨fun i a s site rd v ha hi hr => ?_, fun i a s site rd v ha hi hr => ?_, fun th n k v => ?_⟩
  · exact (writesX_of_intRule ha hr).exec_eq hi
  · exact (writesX_of_immRule hi.wellFormed ha hr).exec_eq hi
  · exact ⟨th.rx_zero, th.wx_zero v,
      fun h => ⟨th.rx_wx_same v h, th.wx_badParity v h, th.wx_poison v h, th.wx_waiting v h⟩,
      th.rx_wx_ne v, th.wx_f n v, th.wx_v n v, th.wx_m n v, th.wx_mx n v, th.wx_flags n v, th.wx_pc n v⟩

end Sys2Proof.Machine
end

section
/-! Faults: what a thread saves as it enters its handler or stops, and what FRET and TRAP do (R74, R76, R78). -/

namespace Sys2Proof.Machine

/-! ## The thread that takes a fault -/

/-- A thread that a fault has been told to: THR_FCAUSE and THR_FADDR, and the poison marks that it tells of. -/
def Thread.told (th : Thread) (f : FaultRec) : Thread :=
  let th1 := { th with cause := f.cause, deferred := f.deferred, faddr := f.addr, block := .none }
  if f.deferred then th1.tellPoison f.addr else th1

/-- A thread that enters its handler (R76). -/
def Thread.handled (th : Thread) (f : FaultRec) : Thread :=
  { th.told f with
    st := .run, fpc := th.pc.extractLsb' 2 13, inFault := true, loopFrozen := th.loopActive, pc := th.fvecEntry ++ 0#2 }

/-- A thread that a fault stops (R78). -/
def Thread.stopped (th : Thread) (f : FaultRec) : Thread := { th.told f with st := .stop }

section
variable (th : Thread) (f : FaultRec)

@[simp] theorem Thread.told_cause : (th.told f).cause = f.cause := by unfold Thread.told; dsimp only; split <;> rfl
@[simp] theorem Thread.told_deferred : (th.told f).deferred = f.deferred := by
  unfold Thread.told; dsimp only; split <;> rfl
@[simp] theorem Thread.told_faddr : (th.told f).faddr = f.addr := by unfold Thread.told; dsimp only; split <;> rfl
@[simp] theorem Thread.told_fpc : (th.told f).fpc = th.fpc := by unfold Thread.told; dsimp only; split <;> rfl
@[simp] theorem Thread.told_pc : (th.told f).pc = th.pc := by unfold Thread.told; dsimp only; split <;> rfl
@[simp] theorem Thread.told_x : (th.told f).x = th.x := by unfold Thread.told; dsimp only; split <;> rfl
@[simp] theorem Thread.told_f : (th.told f).f = th.f := by unfold Thread.told; dsimp only; split <;> rfl
@[simp] theorem Thread.told_v : (th.told f).v = th.v := by unfold Thread.told; dsimp only; split <;> rfl
@[simp] theorem Thread.told_m : (th.told f).m = th.m := by unfold Thread.told; dsimp only; split <;> rfl
@[simp] theorem Thread.told_mx : (th.told f).mx = th.mx := by unfold Thread.told; dsimp only; split <;> rfl
@[simp] theorem Thread.told_flags : (th.told f).flags = th.flags := by unfold Thread.told; dsimp only; split <;> rfl

/-- THR_FPC holds the word address of pc (R76). -/
theorem Thread.handled_fpc : (th.handled f).fpc.toNat = th.pc.toNat / 4 := by
  have bound := th.pc.isLt
  simp only [Thread.handled, BitVec.extractLsb'_toNat, Nat.shiftRight_eq_div_pow]
  omega

/-- A word address followed by two zero bits is four times the word address. -/
theorem append_two_zeros (e : BitVec 13) : (e ++ 0#2 : BitVec 15).toNat = 4 * e.toNat := by
  rw [BitVec.toNat_append, Nat.shiftLeft_eq, BitVec.toNat_zero, Nat.or_zero]
  omega

theorem Thread.handled_pc : (th.handled f).pc.toNat = 4 * th.fvecEntry.toNat := append_two_zeros th.fvecEntry

end

/-! ## Which way a fault goes -/

section
variable {s : State} {site : Nat} {t : BitVec 2}

theorem State.raise_of_handler (f : FaultRec) (h : (s.thr site t).inFault = false)
    (e : (s.thr site t).fvecEnable = true) :
    s.raise site t f = (s.setThr site t ((s.thr site t).handled f)).count Ev.thrFault site := by
  rw [State.raise, if_neg (by simp [h, e])]
  rfl

theorem State.raise_of_no_handler (f : FaultRec)
    (h : (s.thr site t).inFault = true ∨ (s.thr site t).fvecEnable = false) :
    s.raise site t f =
      ((s.setThr site t ((s.thr site t).stopped f)).count Ev.thrStop site).assertCorr := by
  rw [State.raise, if_pos (by simpa using h)]
  rfl

end

@[simp] theorem State.setThr_mregs (s : State) (n m : Nat) (t : BitVec 2) (th : Thread) :
    ((s.setThr n t th).core m).mregs = (s.core m).mregs := by
  by_cases h : m = n
  · subst h; simp [State.setThr]
  · rw [State.core_setThr_ne s t th h]

/-- A fault leaves every matrix register. -/
@[simp] theorem State.raise_mregs (s : State) (n m : Nat) (t : BitVec 2) (r : FaultRec) :
    ((s.raise n t r).core m).mregs = (s.core m).mregs := by
  unfold State.raise; dsimp only; split <;> simp

/-- An event outside Table 14-7 leaves MOD_ERR_CORR_N. -/
theorem State.count_errCorr (s : State) {crn : Nat} (unit : Nat) (h : Ev.ueType.contains crn = false) :
    (s.count crn unit).errCorr = s.errCorr := by
  rw [State.count, if_neg (by simp only [h]; decide)]

/-- ILLEGAL_INSTR names the word (Table 3-12). -/
theorem illegalFault_eq (i : Instr) :
    illegalFault i = { cause := 0x01, addr := BitVec.ofNat 64 (encodeWord i).toNat } := by
  rw [BitVec.ofNat_toNat]; rfl

/-! ## FRET and TRAP -/

section
variable {a : ThreadAt} {s : State} {site : Nat}

theorem exec_fret_of_inFault (h : Issues (.fret a) a s site) (hf : (s.thr site a.t).inFault = true) :
    exec (.fret a) s = .next (s.setThr site a.t
      (({ s.thr site a.t with inFault := false, loopFrozen := false } : Thread).transfer
        (BitVec.ofNat 15 (4 * (s.thr site a.t).fpc.toNat)))) := by
  rw [← append_two_zeros, BitVec.ofNat_toNat, BitVec.setWidth_eq]
  change execFret a s = _
  rw [execFret, State.issueJump]
  exact h.issue_ok (if_pos hf) rfl

theorem exec_fret_outside_handler (h : Issues (.fret a) a s site) (hf : (s.thr site a.t).inFault = false) :
    exec (.fret a) s = .next (s.raise site a.t
      { cause := 0x01, addr := BitVec.ofNat 64 (encodeWord (.fret a)).toNat }) := by
  rw [← illegalFault_eq]
  change execFret a s = _
  rw [execFret, State.issueJump]
  refine State.issue_faults _ _ _ _ _ _ _ h.core h.ready_running ?_
  have own : ((s.core site).thr a.t).inFault = false := hf
  simp [earlyFault, h.wellFormed, own]

theorem exec_trap {o : TrapOp} (h : Issues (.trap a o) a s site) :
    exec (.trap a o) s = .next (s.raise site a.t { cause := 0x0A, addr := BitVec.ofNat 64 o.code.toNat }) := by
  rw [BitVec.ofNat_toNat]
  change execTrap a o s = _
  rw [execTrap]
  exact h.issue_error rfl rfl

end

/-! ## What a fault leaves -/

/-- R76: the thread that enters its handler, and the event that it counts. -/
theorem raise_enters_handler (s : State) (site : Nat) (t : BitVec 2) (f : FaultRec)
    (h : (s.thr site t).inFault = false) (e : (s.thr site t).fvecEnable = true) :
    (s.raise site t f).thr site t = (s.thr site t).handled f ∧
      (s.raise site t f).events.at (evKey Ev.thrFault site) {} = (s.events.at (evKey Ev.thrFault site) {}).hit := by
  rw [State.raise_of_handler f h e, State.count_thr, State.thr_setThr, State.count_at, State.setThr_events]
  exact ⟨rfl, rfl⟩

/-- R78: the stopped thread, the event that it counts, and the error line. -/
theorem raise_stops (s : State) (site : Nat) (t : BitVec 2) (f : FaultRec)
    (h : (s.thr site t).inFault = true ∨ (s.thr site t).fvecEnable = false) :
    (s.raise site t f).thr site t = (s.thr site t).stopped f ∧
      (s.raise site t f).events.at (evKey Ev.thrStop site) {} = (s.events.at (evKey Ev.thrStop site) {}).hit ∧
      (s.raise site t f).errCorr = if s.errFatal then s.errCorr else true := by
  rw [State.raise_of_no_handler f h, State.assertCorr_thr, State.count_thr, State.thr_setThr, State.assertCorr_events,
    State.count_at, State.setThr_events, State.assertCorr_errCorr, State.count_errFatal, State.setThr_errFatal,
    State.count_errCorr _ site (by decide), State.setThr_errCorr]
  exact ⟨rfl, rfl, rfl⟩

/-- Settles O10: a fault enters the handler or stops the thread, FRET resumes or is illegal, and TRAP raises TRAP. -/
theorem faultsEnterAndReturn : Obligations.FaultsEnterAndReturn := by
  unfold Obligations.FaultsEnterAndReturn
  refine ⟨?handler, ?stop, ?fret, fun a o s site h => exec_trap h⟩
  case handler =>
    rintro s site t f th th' s' rfl hin hen rfl rfl
    obtain ⟨hthr, hev⟩ := raise_enters_handler s site t f hin hen
    rw [hthr]
    exact ⟨Thread.handled_fpc _ f, Thread.told_cause _ f, Thread.told_faddr _ f, Thread.told_deferred _ f, rfl,
      Thread.handled_pc _ f, rfl, Thread.told_x _ f, Thread.told_f _ f, Thread.told_v _ f, Thread.told_m _ f,
      Thread.told_mx _ f, Thread.told_flags _ f, congrArg EvReg.count hev, congrArg EvReg.pending hev,
      fun u hu => s.raise_thr_ne site f hu, fun other ho => s.raise_core_ne t f ho, s.raise_pad site site t f,
      s.raise_mregs site site t f, s.raise_mem site t f⟩
  case stop =>
    rintro s site t f th th' s' rfl hno rfl rfl
    obtain ⟨hthr, hev, hcorr⟩ := raise_stops s site t f hno
    rw [hthr]
    exact ⟨rfl, Thread.told_cause _ f, Thread.told_faddr _ f, Thread.told_fpc _ f, Thread.told_pc _ f,
      congrArg EvReg.count hev, fun hf => by rw [hcorr, hf]; rfl, fun hf => by rw [hcorr, hf]; rfl,
      fun u hu => s.raise_thr_ne site f hu, fun other ho => s.raise_core_ne t f ho, s.raise_pad site site t f,
      s.raise_mem site t f⟩
  case fret =>
    rintro a s site th rfl h
    exact ⟨exec_fret_of_inFault h, exec_fret_outside_handler h⟩

end Sys2Proof.Machine
end

section
/-! Control registers: what RDCR shows (R81, R326). -/

namespace Sys2Proof.Machine

/-! ## Numbers -/

theorem crAssigned_iff (n : Nat) : crAssigned n = true ↔
    n < 4 ∨ (0x040 ≤ n ∧ n ≤ 0x07F ∧ n % 16 < 11) ∨ (0x080 ≤ n ∧ n ≤ 0x0C6) ∨ (0x180 ≤ n ∧ n ≤ 0x194) ∨
    (0x200 ≤ n ∧ n ≤ 0x205) ∨ (0x280 ≤ n ∧ n ≤ 0x288) ∨ (0x300 ≤ n ∧ n ≤ 0x305) ∨ (0x310 ≤ n ∧ n ≤ 0x327) ∨
    (0x340 ≤ n ∧ n ≤ 0x349) ∨ (0x360 ≤ n ∧ n ≤ 0x365) := by
  simp [crAssigned, within, or_assoc, and_assoc]

theorem isEvCrn_iff (n : Nat) : isEvCrn n = true ↔
    0x080 ≤ n ∧ n ≤ 0x0BF ∧ n ≠ 0x0A1 ∨ n = 0x0C5 ∨ n = 0x0C6 := by
  simp [isEvCrn, within, or_assoc, and_assoc]

/-! ## The unit whose event register a view sees (R326) -/

section
variable (v : View) {n : Nat}

theorem evUnit_core (hi : n ≤ 0x097) (ne : n ≠ 0x082) : evUnit v n = some v.site := by
  grind [evUnit, within]

theorem evUnit_die (h : n = 0x082 ∨ 0x098 ≤ n ∧ n ≤ 0x0A0) : evUnit v n = some 0 := by
  grind [evUnit, within]

theorem evUnit_stack (lo : 0x0A2 ≤ n) (hi : n ≤ 0x0AD) : evUnit v n = some v.stack := by
  grind [evUnit, within]

theorem evUnit_link (lo : 0x0AE ≤ n) (hi : n ≤ 0x0BF) (sel : v.link < 24) : evUnit v n = some v.link := by
  grind [evUnit, within]

end

/-! ## Registers by number -/

section
variable (s : State) (v : View) {n : Nat}

theorem creg_zero : s.creg v 0x000 = some (coreId s v) := rfl

theorem creg_timeNow : s.creg v 0x0C0 = some (s.now % 2 ^ 64) := rfl

/-- Registers 0x40 + 16 t onward are those of thread t. -/
theorem creg_thread (t : BitVec 2) {i : Nat} (hi : i < 16) :
    s.creg v (0x040 + i + 16 * t.toNat) = (s.core v.site).threadReg t i := by
  have ht := t.isLt
  have thread : BitVec.ofNat 2 ((0x040 + i + 16 * t.toNat - 0x40) / 16) = t := by
    rw [show (0x040 + i + 16 * t.toNat - 0x40) / 16 = t.toNat by omega, BitVec.ofNat_toNat, BitVec.setWidth_eq]
  have reg : (0x040 + i + 16 * t.toNat) % 16 = i := by omega
  have area : within 0x040 0x07F (0x040 + i + 16 * t.toNat) = true := by simp [within]; omega
  rw [State.creg, if_pos (by omega), State.lowReg, if_neg (by omega), if_neg (by omega), if_neg (by omega),
    if_neg (by omega), if_pos area, thread, reg]

theorem creg_event (h : isEvCrn n = true) : s.creg v n = some (s.evWord v n) := by
  have range := (isEvCrn_iff n).mp h
  have area : ¬ within 0x040 0x07F n = true := by simp [within]; omega
  rw [State.creg, if_pos (by omega), State.lowReg, if_neg (by omega), if_neg (by omega), if_neg (by omega),
    if_neg (by omega), if_neg area, if_neg (by omega), if_pos h]

end

/-! ## RDCR -/

/-- The place of a thread that issues is the core at its site. -/
theorem Issues.threadView_site {i : Instr} {a : ThreadAt} {s : State} {site : Nat} (h : Issues i a s site) (th : Thread) :
    (threadView s a site th).site = site := by
  rw [threadView, h.core, Option.getD_some]

section
variable {a : ThreadAt} {o : CrRd} {s : State} {site : Nat}

/-- RDCR of a register gives rd what the thread's view shows. -/
theorem exec_rdcr_of_creg (h : Issues (.rdcr a o) a s site) (hn : crAssigned o.crn.toNat = true) {x : Nat}
    (hx : s.creg (threadView s a site (s.thr site a.t)) o.crn.toNat = some x) :
    exec (.rdcr a o) s = .next (s.setThr site a.t ((s.thr site a.t).wx o.rd (BitVec.ofNat 64 x)).retire) := by
  change execRdcr a o s = _
  refine h.issue_ok (if_pos hn) ?_
  simp only [hx, Option.getD_some]

/-- R81: a number that no chapter assigns. -/
theorem exec_rdcr_unassigned (h : Issues (.rdcr a o) a s site) (hn : crAssigned o.crn.toNat = false) :
    exec (.rdcr a o) s = .next (s.raise site a.t
      { cause := 0x01, addr := BitVec.ofNat 64 (encodeWord (.rdcr a o)).toNat }) := by
  rw [← illegalFault_eq]
  change execRdcr a o s = _
  refine State.issue_faults _ _ _ _ _ _ _ h.core h.ready_running ?_
  simp [earlyFault, h.wellFormed, unassigned, hn]

/-- RDCR of a register of thread u of the core. -/
theorem exec_rdcr_thread (h : Issues (.rdcr a o) a s site) (u : BitVec 2) (i : Nat) {x : Nat}
    (hn : o.crn.toNat = 0x040 + i + 16 * u.toNat) (hi : i < 11) (hx : (s.core site).threadReg u i = some x) :
    exec (.rdcr a o) s = .next (s.setThr site a.t ((s.thr site a.t).wx o.rd (BitVec.ofNat 64 x)).retire) := by
  have hu := u.isLt
  refine exec_rdcr_of_creg h ((crAssigned_iff _).mpr (by omega)) ?_
  rw [hn, creg_thread s _ u (by omega), h.threadView_site, hx]

/-- Table 14-4: RDCR of an event register shows count, pending and misses of the unit that the thread names. -/
theorem exec_rdcr_event (h : Issues (.rdcr a o) a s site) (hn : isEvCrn o.crn.toNat = true) {u : Nat}
    (hu : evUnit (threadView s a site (s.thr site a.t)) o.crn.toNat = some u) :
    exec (.rdcr a o) s = .next (s.setThr site a.t ((s.thr site a.t).wx o.rd
      (BitVec.ofNat 64 (s.events.at (evKey o.crn.toNat u) {}).word)).retire) := by
  have range := (isEvCrn_iff _).mp hn
  refine exec_rdcr_of_creg h ((crAssigned_iff _).mpr (by omega)) ?_
  rw [creg_event s _ hn, State.evWord, hu]
  rfl

end

end Sys2Proof.Machine
end

section
/-! Control registers: what WRCR and EV_CLEAR change (R10, R81, R324). -/

namespace Sys2Proof.Machine

/-- Bits of a word from one place on, as a number. -/
theorem extractLsb'_eq_ofNat {w : Nat} (v : BitVec w) (start len : Nat) {d : Nat} (hd : 2 ^ start = d) :
    v.extractLsb' start len = BitVec.ofNat len (v.toNat / d) := by
  subst hd
  exact congrArg (BitVec.ofNat len) (Nat.shiftRight_eq_div_pow v.toNat start)

section
variable (th : Thread) (v : W64)

theorem Thread.writeReg_fpc : th.writeReg 2 v = { th with fpc := BitVec.ofNat 13 (v.toNat / 4) } := by
  simp only [Thread.writeReg, extractLsb'_eq_ofNat v 2 13 (d := 4) rfl]

theorem Thread.writeReg_fvec : th.writeReg 4 v =
    { th with fvecEntry := BitVec.ofNat 13 (v.toNat / 4), fvecEnable := v.getLsbD 15 } := by
  simp only [Thread.writeReg, extractLsb'_eq_ofNat v 2 13 (d := 4) rfl]

theorem Thread.writeReg_flags : th.writeReg 5 v =
    { th with flags := BitVec.ofNat 5 v.toNat, rm := BitVec.ofNat 3 (v.toNat / 32) } := by
  simp only [Thread.writeReg, extractLsb'_eq_ofNat v 0 5 (d := 1) rfl, extractLsb'_eq_ofNat v 5 3 (d := 32) rfl,
    Nat.div_one]

theorem Thread.writeSel_evSel : th.writeSel 0x0A1 v = { th with evSel := BitVec.ofNat 3 v.toNat } := by
  simp only [Thread.writeSel, extractLsb'_eq_ofNat v 0 3 (d := 1) rfl, Nat.div_one]

theorem Thread.writeSel_lnkSel : th.writeSel 0x340 v = { th with lnkSel := BitVec.ofNat 8 v.toNat } := by
  simp only [Thread.writeSel, extractLsb'_eq_ofNat v 0 8 (d := 1) rfl, Nat.div_one]

/-- A selection leaves the registers that Table 3-14 makes read-only. -/
theorem Thread.writeSel_of_readOnly {n : Nat} (h : n < 4 ∨ 0x0C0 ≤ n ∧ n ≤ 0x0C4) : th.writeSel n v = th := by
  unfold Thread.writeSel
  split
  case h_5 => rfl
  all_goals omega

end

/-- R324: the low 31 bits of the written word are held against count. -/
theorem EvReg.clear_low (e : EvReg) (v : W64) : e.clear (v.extractLsb' 0 31) =
    if v.toNat % 2 ^ 31 = e.count.toNat then { e with pending := false } else { e with miss := e.miss + 1 } := by
  have same : v.extractLsb' 0 31 = e.count ↔ v.toNat % 2 ^ 31 = e.count.toNat := by
    rw [← BitVec.toNat_inj, BitVec.extractLsb'_toNat, Nat.shiftRight_zero]
  simp only [EvReg.clear, same]

/-! ## A write by the register's number -/

section
variable (s : State) (a : ThreadAt) (site : Nat) (th : Thread) {n : Nat} (w : W64)

/-- A write to a thread's registers sets those of the writing thread only. -/
theorem writeCr_thread (lo : 0x040 ≤ n) (hi : n ≤ 0x07F) : s.writeCr a site th n w =
    s.setThr site a.t (if (n - 0x40) / 16 = a.t.toNat then th.writeReg (n % 16) w else th).retire := by
  have event : ¬ isEvCrn n = true := fun h => by have := (isEvCrn_iff n).mp h; omega
  rw [State.writeCr, if_neg (by omega), if_neg event, if_pos (by simp [within, lo, hi])]

theorem writeCr_own {i : Nat} (hi : i < 16) : s.writeCr a site th (0x40 + 16 * a.t.toNat + i) w =
    s.setThr site a.t (th.writeReg i w).retire := by
  have ht := a.t.isLt
  rw [writeCr_thread s a site th w (by omega) (by omega), if_pos (by omega),
    show (0x40 + 16 * a.t.toNat + i) % 16 = i by omega]

theorem writeCr_other_thread (lo : 0x040 ≤ n) (hi : n < 0x080)
    (other : n < 0x40 + 16 * a.t.toNat ∨ 0x40 + 16 * a.t.toNat + 16 ≤ n) :
    s.writeCr a site th n w = s.setThr site a.t th.retire := by
  rw [writeCr_thread s a site th w lo (by omega), if_neg (by omega)]

theorem writeCr_sel (thread : n < 0x040 ∨ 0x07F < n) (event : isEvCrn n = false) (cmd : n ≠ 0x322) :
    s.writeCr a site th n w = s.setThr site a.t (th.writeSel n w).retire := by
  rw [State.writeCr, if_neg cmd, if_neg (by simp [event]), if_neg (by simp [within]; omega)]

theorem writeCr_event (event : isEvCrn n = true) {u : Nat} (hu : evUnit (threadView s a site th) n = some u) :
    s.writeCr a site th n w = State.setThr
      { s with events := s.events.put (evKey n u) ((s.events.at (evKey n u) {}).clear (w.extractLsb' 0 31)) }
      site a.t th.retire := by
  have range := (isEvCrn_iff n).mp event
  rw [State.writeCr, if_neg (by omega), if_pos event, State.clearEv, hu]
  rfl

theorem writeCr_stream : s.writeCr a site th 0x322 w = s.sendStream site a.t (w.toNat % 16) := rfl

end

/-! ## Stream commands (R231) -/

/-- The command that a thread's stream arguments make now. -/
def State.threadCmd (s : State) (site : Nat) (t : BitVec 2) (code : Nat) : StrmCmd :=
  { id := (s.thr site t).strmArg0.toNat, code := code, arg := (s.thr site t).strmArg1
    deadline := s.now + s.classTimeout (s.streamCls (s.thr site t).strmArg0.toNat), order := s.strm.order }

theorem sendStream_of_code (s : State) (site : Nat) (t : BitVec 2) {code : Nat} (lo : 1 ≤ code) (hi : code ≤ 6) :
    s.sendStream site t code =
      { s.setThr site t { s.thr site t with st := .block, block := .stream (s.threadCmd site t code) } with
        strm := { s.strm with order := s.strm.order + 1 } } := by
  rw [State.sendStream, if_pos (by simp [lo, hi])]
  rfl

/-! ## WRCR and EV_CLEAR -/

section
variable {c : Instr} {a : ThreadAt} {o : CrWr} {s : State} {site : Nat}

/-- EV_CLEAR is the WRCR that clears: the same word, and the same write. -/
theorem exec_writeCr (hc : c = .wrcr a o ∨ c = .evClear a o) (h : Issues (.wrcr a o) a s site)
    (hn : crAssigned o.crn.toNat = true) :
    exec c s = .next (s.writeCr a site (s.thr site a.t) o.crn.toNat ((s.thr site a.t).rx o.ra)) := by
  have runs : execWrcr a o s = .next (s.writeCr a site (s.thr site a.t) o.crn.toNat ((s.thr site a.t).rx o.ra)) :=
    h.issue_ok (if_pos hn) rfl
  rcases hc with rfl | rfl <;> exact runs

/-- A write that sets only the writing thread's registers. -/
theorem exec_writeCr_thread (hc : c = .wrcr a o ∨ c = .evClear a o) (h : Issues (.wrcr a o) a s site)
    (hn : crAssigned o.crn.toNat = true) {th : Thread}
    (hw : s.writeCr a site (s.thr site a.t) o.crn.toNat ((s.thr site a.t).rx o.ra) = s.setThr site a.t th.retire) :
    exec c s = .next (s.setThr site a.t th.retire) := by
  rw [exec_writeCr hc h hn, hw]

/-- A write to register i of the writing thread. -/
theorem exec_writeCr_own (hc : c = .wrcr a o ∨ c = .evClear a o) (h : Issues (.wrcr a o) a s site) {i : Nat}
    (hi : i < 11) (hn : o.crn.toNat = 0x40 + 16 * a.t.toNat + i) :
    exec c s = .next (s.setThr site a.t ((s.thr site a.t).writeReg i ((s.thr site a.t).rx o.ra)).retire) := by
  have ht := a.t.isLt
  refine exec_writeCr_thread hc h ((crAssigned_iff _).mpr (by omega)) ?_
  rw [hn, writeCr_own s a site _ _ (by omega)]

/-- A write to a register that is neither a thread's, an event's nor STRM_CMD. -/
theorem exec_writeCr_sel (hc : c = .wrcr a o ∨ c = .evClear a o) (h : Issues (.wrcr a o) a s site)
    (hn : crAssigned o.crn.toNat = true) (thread : o.crn.toNat < 0x040 ∨ 0x07F < o.crn.toNat)
    (event : isEvCrn o.crn.toNat = false) (cmd : o.crn.toNat ≠ 0x322) :
    exec c s = .next
      (s.setThr site a.t ((s.thr site a.t).writeSel o.crn.toNat ((s.thr site a.t).rx o.ra)).retire) :=
  exec_writeCr_thread hc h hn (writeCr_sel s a site _ _ thread event cmd)

/-- R324: a clear touches the register of the unit that the thread names, and no other. -/
theorem exec_writeCr_event (hc : c = .wrcr a o ∨ c = .evClear a o) (h : Issues (.wrcr a o) a s site)
    (hn : isEvCrn o.crn.toNat = true) {u : Nat}
    (hu : evUnit (threadView s a site (s.thr site a.t)) o.crn.toNat = some u) :
    ∃ s', exec c s = .next s' ∧ s'.thr site a.t = (s.thr site a.t).retire ∧ keepsMemory s s' ∧
      s'.events.at (evKey o.crn.toNat u) {} =
        (if ((s.thr site a.t).rx o.ra).toNat % 2 ^ 31 = (s.events.at (evKey o.crn.toNat u) {}).count.toNat
          then { s.events.at (evKey o.crn.toNat u) {} with pending := false }
          else { s.events.at (evKey o.crn.toNat u) {} with miss := (s.events.at (evKey o.crn.toNat u) {}).miss + 1 }) ∧
      ∀ k, k ≠ evKey o.crn.toNat u → s'.events.find k = s.events.find k := by
  have range := (isEvCrn_iff _).mp hn
  refine ⟨_, (exec_writeCr hc h ((crAssigned_iff _).mpr (by omega))).trans
    (congrArg Host.Outcome.next (writeCr_event s a site _ _ hn hu)), State.thr_setThr ..,
    ⟨rfl, fun p => State.setThr_pad ..⟩, ?_, fun k hk => Tab.find_put_ne _ _ hk⟩
  rw [State.setThr_events, Tab.at_put, EvReg.clear_low]

/-- R231: a stream command blocks its thread until the engine answers. -/
theorem exec_writeCr_stream (hc : c = .wrcr a o ∨ c = .evClear a o) (h : Issues (.wrcr a o) a s site)
    (hn : o.crn.toNat = 0x322) {code : Nat} (hcode : ((s.thr site a.t).rx o.ra).toNat % 16 = code)
    (lo : 1 ≤ code) (hi : code ≤ 6) :
    ∃ s' k, exec c s = .next s' ∧ keepsMemory s s' ∧ (s'.thr site a.t).st = .block ∧
      (s'.thr site a.t).block = .stream k ∧ k.id = (s.thr site a.t).strmArg0.toNat ∧ k.code = code ∧
      k.arg = (s.thr site a.t).strmArg1 ∧ k.deadline = s.now + s.classTimeout (s.streamCls k.id) := by
  have sends : exec c s = .next (s.sendStream site a.t code) := by
    rw [exec_writeCr hc h ((crAssigned_iff _).mpr (by omega)), hn, writeCr_stream, hcode]
  rw [sendStream_of_code s site a.t lo hi] at sends
  refine ⟨_, s.threadCmd site a.t code, sends, ⟨rfl, fun p => State.setThr_pad ..⟩, ?_, ?_, rfl, rfl, rfl, rfl⟩
  · exact congrArg Thread.st (State.thr_setThr ..)
  · exact congrArg Thread.block (State.thr_setThr ..)

end

end Sys2Proof.Machine
end

section
/-! Management messages: the reply to a group 0x2 message, and the debug window's (R179, R350, R367). -/

namespace Sys2Proof.Machine

/-! ## Bytes of a line -/

theorem leBytes_leNat (b : List Byte) : leBytes b.length (leNat b) = b := by
  induction b with
  | nil => rfl
  | cons x r ih =>
    have hx := x.isLt
    have low : BitVec.ofNat 8 (x.toNat + 256 * leNat r) = x := by
      apply BitVec.eq_of_toNat_eq; rw [BitVec.toNat_ofNat]; omega
    rw [List.length_cons, leBytes, leNat, low, show (x.toNat + 256 * leNat r) / 256 = leNat r by omega, ih]

theorem leNat_lt (b : List Byte) : leNat b < 256 ^ b.length := by
  induction b with
  | nil => exact Nat.one_pos
  | cons x r ih =>
    have hx := x.isLt
    rw [leNat, List.length_cons, Nat.pow_succ]
    omega

/-- A word of as many bits as the bytes have holds their number. -/
theorem toNat_ofNat_leNat {b : List Byte} {n : Nat} (h : 8 * b.length = n) : (BitVec.ofNat n (leNat b)).toNat = leNat b := by
  subst h
  rw [BitVec.toNat_ofNat, Nat.pow_mul]
  exact Nat.mod_eq_of_lt (leNat_lt b)

/-- A line holds 64 bytes. -/
theorem lineBytes_bytesLine {b : List Byte} (h : b.length = 64) : lineBytes (bytesLine b) = b := by
  rw [lineBytes, bytesLine, toNat_ofNat_leNat (by rw [h]), ← h, leBytes_leNat]

theorem field_first (x : Byte) (l : List Byte) : field (x :: l) 0 1 = x.toNat := by simp [field, slice, leNat]

theorem field_second (x y : Byte) (l : List Byte) : field (x :: y :: l) 1 1 = y.toNat := by simp [field, slice, leNat]

/-! ## Flits that are queued on VC 7 -/

/-- Flits queued in order on VC 7 of a link. -/
def State.queueFlits (s : State) (k : Nat) (fs : List LFlit) : State := fs.foldl (fun s f => s.queueFlit k 7 f) s

section
variable (s : State) (k : Nat)

theorem txOf_queueFlit (f : LFlit) : txOf (s.queueFlit k 7 f) k 7 = txOf s k 7 ++ [f] := by
  simp [txOf, State.queueFlit, State.modSess, Sess.setVc, Sess.vc]

theorem rxOf_queueFlit (f : LFlit) : rxOf (s.queueFlit k 7 f) k 7 = rxOf s k 7 := by
  simp [rxOf, State.queueFlit, State.modSess, Sess.setVc, Sess.vc]

theorem txOf_freeFlits (n : Nat) : txOf (s.freeFlits k 7 n) k 7 = txOf s k 7 := by
  simp [txOf, State.freeFlits, State.modSess, Sess.setVc, Sess.vc]

theorem rxOf_freeFlits (n : Nat) : rxOf (s.freeFlits k 7 n) k 7 = (rxOf s k 7).drop n := by
  simp [rxOf, State.freeFlits, State.modSess, Sess.setVc, Sess.vc]

theorem txOf_queueFlits (fs : List LFlit) : txOf (s.queueFlits k fs) k 7 = txOf s k 7 ++ fs := by
  induction fs generalizing s with
  | nil => exact (List.append_nil _).symm
  | cons f fs ih => exact (ih _).trans (by rw [txOf_queueFlit, List.append_assoc]; rfl)

theorem rxOf_queueFlits (fs : List LFlit) : rxOf (s.queueFlits k fs) k 7 = rxOf s k 7 := by
  induction fs generalizing s with
  | nil => rfl
  | cons f fs ih => exact (ih _).trans (rxOf_queueFlit s k f)

/-- Queued flits change nothing but the links. -/
theorem queueFlits_keeps (fs : List LFlit) : ∃ l, s.queueFlits k fs = { s with links := l } := by
  induction fs generalizing s with
  | nil => exact ⟨s.links, rfl⟩
  | cons f fs ih =>
    obtain ⟨l, hl⟩ := ih (s.queueFlit k 7 f)
    exact ⟨l, hl⟩

theorem mgmtReply_eq_queueFlits {dst : BitVec 18} {txn : BitVec 12} {b : List Byte} (live : (s.link k).live = true)
    (partner : (s.link k).partnerNode = dst) :
    ∃ g : LFlit, s.mgmtReply k dst txn b = s.queueFlits k [g] ∧ g.kind = 11 ∧ g.txn = txn ∧ g.dst = dst ∧
      g.payload = bytesLine b := by
  rw [State.mgmtReply, if_neg (by simp [live, partner])]
  exact ⟨_, rfl, rfl, rfl, rfl, rfl⟩

/-- Flits that are each made from the state before them. -/
theorem foldl_queueFlit {α : Type} (g : State → α → LFlit) (xs : List α) :
    ∃ fs, xs.foldl (fun s x => s.queueFlit k 7 (g s x)) s = s.queueFlits k fs := by
  induction xs generalizing s with
  | nil => exact ⟨[], rfl⟩
  | cons x xs ih =>
    obtain ⟨fs, hfs⟩ := ih (s.queueFlit k 7 (g s x))
    exact ⟨g s x :: fs, hfs⟩

theorem mgmtSend_eq_queueFlits (dst : BitVec 18) (header body : List Byte) :
    ∃ fs, s.mgmtSend k dst header body = s.queueFlits k fs := by
  unfold State.mgmtSend
  dsimp only
  split
  · exact ⟨[], rfl⟩
  · exact foldl_queueFlit s k _ _

end

/-! ## The reply to a group 0x2 message -/

section
variable {s : State} {k op : Nat} {f : LFlit} {r : List LFlit}

/-- A message is served on a link that is UP. -/
theorem MgmtAt.up {g : Nat} (h : MgmtAt s k g op f r) : (s.link k).st = 4 := by
  have head := h.head
  unfold State.mgmtHead at head
  by_cases up : (s.link k).st = 4
  · exact up
  · rw [if_pos (by simp [up])] at head
    cases head

theorem MgmtAt.freed_live {g : Nat} (h : MgmtAt s k g op f r) (n : Nat) :
    ((s.freeFlits k 7 n).link k).live = true ∧ ((s.freeFlits k 7 n).link k).partnerNode = f.src := by
  have link : ((s.freeFlits k 7 n).link k).st = (s.link k).st ∧
      ((s.freeFlits k 7 n).link k).partnerNode = (s.link k).partnerNode := by
    rw [State.freeFlits, State.modSess, State.link_modLink]
    exact ⟨rfl, rfl⟩
  obtain ⟨st, partner⟩ := link
  exact ⟨by rw [Link.live, st, h.up]; rfl, partner.trans h.src⟩

/-- A group 0x2 message leaves its buffer, and its status goes back; an action that leaves the links queues nothing else
before it, and what the reply changes is the links alone. -/
theorem MgmtAt.unitMsg_replied (h : MgmtAt s k 2 op f r) (act : State → List Byte → List Byte → UnitAns) {ans : UnitAns}
    (hans : act (s.freeFlits k 7 (r.length + 1)) (lineBytes f.payload) (mgmtBody (f :: r)) = ans)
    (links : ans.st.links = (s.freeFlits k 7 (r.length + 1)).links) {p : List Byte → Prop}
    (status : p (lineBytes (bytesLine ans.status))) :
    ∃ s', s.unitMsg (.link k) op act = .next s' ∧ mgmtReplied s s' k f r p ∧ ∃ l, s' = { ans.st with links := l } := by
  have link : ans.st.link = (s.freeFlits k 7 (r.length + 1)).link := by
    funext j; rw [State.link, links]; rfl
  obtain ⟨live, partner⟩ := h.freed_live (r.length + 1)
  rw [← link] at live partner
  obtain ⟨g, reply, kind, txn, dst, payload⟩ := mgmtReply_eq_queueFlits ans.st k (txn := f.txn) (b := ans.status) live partner
  have sent : ∃ more, s.unitMsg (.link k) op act = .next (ans.st.queueFlits k (g :: more)) := by
    simp only [State.unitMsg, State.unitMsgWait, h.head, hans, reply]
    cases ans.data with
    | none => exact ⟨[], rfl⟩
    | some d =>
      obtain ⟨fs, hfs⟩ := mgmtSend_eq_queueFlits (ans.st.queueFlits k [g]) k f.src d.1 d.2
      exact ⟨fs, congrArg Host.Outcome.next hfs⟩
  obtain ⟨more, hmore⟩ := sent
  have rx : rxOf ans.st k 7 = (rxOf s k 7).drop (r.length + 1) := by
    rw [rxOf, link]; exact rxOf_freeFlits s k _
  have tx : txOf ans.st k 7 = txOf s k 7 := by
    rw [txOf, link]; exact txOf_freeFlits s k _
  refine ⟨_, hmore, ⟨?_, g, more, ?_, kind, txn, dst, payload ▸ status⟩, queueFlits_keeps ans.st k _⟩
  · rw [rxOf_queueFlits, rx]
  · rw [txOf_queueFlits, tx]

end

/-! ## UNIT_STATUS -/

/-- Table 16-5: op and code lead the 64 bytes of a UNIT_STATUS. -/
theorem unitStatus_leads (s : State) (op code : Nat) (name : Nat) : ∃ rest, rest.length = 62 ∧
    s.unitStatus op code none name = BitVec.ofNat 8 (0x20 + op) :: BitVec.ofNat 8 code :: rest :=
  ⟨_, rfl, rfl⟩

theorem statusIs_unitStatus (s : State) {op code : Nat} (name : Nat) (hop : 0x20 + op < 256) (hcode : code < 256) :
    statusIs op code (lineBytes (bytesLine (s.unitStatus op code none name))) := by
  obtain ⟨rest, len, eq⟩ := unitStatus_leads s op code name
  rw [eq, lineBytes_bytesLine (by simp [len]), statusIs, field_first, field_second, BitVec.toNat_ofNat, BitVec.toNat_ofNat,
    Nat.mod_eq_of_lt hop, Nat.mod_eq_of_lt hcode]
  exact ⟨rfl, rfl⟩

/-! ## DBG_READ -/

/-- A DBG_READ as Table 16-3 lays it out. -/
def dbgForm (h body : List Byte) : Bool :=
  zeroBytes h 1 1 && zeroBytes h 8 56 && body.isEmpty && within 8 256 (field h 2 2) && field h 2 2 % 8 == 0 &&
  field h 6 2 % 8 == 0 && decide (field h 4 1 < 32) && decide (field h 5 1 < 32) && decide (field h 6 2 < 8192)

/-- Its core is in the grid. -/
def dbgInGrid (s : State) (h : List Byte) : Bool :=
  decide (field h 4 1 < 28) && decide (field h 5 1 < blkCols (s.routes s.epoch))

/-- The code that it is answered with (Table 16-6). -/
def dbgCode (s : State) (h body : List Byte) : Nat :=
  if !dbgForm h body then 1
  else if !dbgInGrid s h then 3
  else if 8192 < field h 6 2 + field h 2 2 then 13
  else 0

theorem dbgForm_iff (h body : List Byte) : dbgForm h body = true ↔
    zeroBytes h 1 1 = true ∧ zeroBytes h 8 56 = true ∧ body = [] ∧ 8 ≤ field h 2 2 ∧ field h 2 2 ≤ 256 ∧
    field h 2 2 % 8 = 0 ∧ field h 6 2 % 8 = 0 ∧ field h 6 2 < 8192 ∧ field h 4 1 < 32 ∧ field h 5 1 < 32 := by
  simp only [dbgForm, within, Bool.and_eq_true, decide_eq_true_eq, beq_iff_eq, List.isEmpty_iff]
  constructor
  · rintro ⟨⟨⟨⟨⟨⟨⟨⟨b1, b8⟩, bare⟩, lo, hi⟩, len⟩, place⟩, row⟩, col⟩, off⟩
    exact ⟨b1, b8, bare, lo, hi, len, place, off, row, col⟩
  · rintro ⟨b1, b8, bare, lo, hi, len, place, off, row, col⟩
    exact ⟨⟨⟨⟨⟨⟨⟨⟨b1, b8⟩, bare⟩, lo, hi⟩, len⟩, place⟩, row⟩, col⟩, off⟩

theorem dbgInGrid_iff (s : State) (h : List Byte) : dbgInGrid s h = true ↔
    field h 4 1 < 28 ∧ field h 5 1 < blkCols (s.routes s.epoch) := by
  simp [dbgInGrid]

theorem dbgCode_lt (s : State) (h body : List Byte) : dbgCode s h body < 256 := by
  unfold dbgCode
  split
  · decide
  · split
    · decide
    · split <;> decide

/-- DBG_READ answers its code, and changes nothing but the count of values left free. -/
theorem execDbgRead_answers (k : Nat) (s : State) : ∃ act, execDbgRead k s = s.unitMsg (.link k) 10 act ∧
    ∀ s h body, (act s h body).status = s.unitStatus 10 (dbgCode s h body) none (unitField h) ∧
      ∃ n, (act s h body).st = { s with free := n } := by
  refine ⟨_, rfl, fun s h body => ?_⟩
  change UnitAns.status (if dbgCode s h body ≠ 0 then _ else _) = _ ∧
    ∃ n, UnitAns.st (if dbgCode s h body ≠ 0 then _ else _) = _
  split
  · exact ⟨rfl, s.free, rfl⟩
  · exact ⟨rfl, s.free + 1, rfl⟩

theorem exec_dbgRead {s : State} {k : Nat} {f : LFlit} {r : List LFlit} (h : MgmtAt s k 2 10 f r) {code : Nat}
    (hcode : dbgCode s (lineBytes f.payload) (mgmtBody (f :: r)) = code) :
    ∃ s', exec (.dbgRead k) s = .next s' ∧ mgmtReplied s s' k f r (statusIs 10 code) ∧
      s'.cores = s.cores ∧ s'.events = s.events ∧ s'.mem = s.mem ∧ s'.units = s.units := by
  obtain ⟨act, hact, answers⟩ := execDbgRead_answers k s
  obtain ⟨status, n, st⟩ := answers (s.freeFlits k 7 (r.length + 1)) (lineBytes f.payload) (mgmtBody (f :: r))
  change _ = State.unitStatus _ 10 (dbgCode s _ _) none _ at status
  rw [hcode] at status
  have small : code < 256 := hcode ▸ dbgCode_lt ..
  obtain ⟨s', next, replied, l, rfl⟩ := h.unitMsg_replied act rfl (by rw [st]) (p := statusIs 10 code)
    (by rw [status]; exact statusIs_unitStatus _ _ (by decide) small)
  refine ⟨_, hact.trans next, replied, ?_⟩
  rw [st]
  exact ⟨rfl, rfl, rfl, rfl⟩

end Sys2Proof.Machine
end

section
/-! Control registers and the debug window: the obligation. -/

namespace Sys2Proof.Machine

/-- Settles O58: RDCR, WRCR with EV_CLEAR, and DBG_READ, each register by the lemma of its kind. -/
theorem controlRegisters : Obligations.ControlRegisters := by
  unfold Obligations.ControlRegisters
  refine ⟨?read, ?write, ?debug⟩
  case read =>
    rintro a o s site th n h rfl rfl
    dsimp only
    have thread := fun (u : BitVec 2) (i x : Nat) => exec_rdcr_thread h u i (x := x)
    have event := fun (u : Nat) => exec_rdcr_event h (u := u)
    refine ⟨?place, fun u => ?threads, ?time, ?core, ?die, ?stack, ?link, ?none⟩
    case place =>
      intro hn
      refine exec_rdcr_of_creg h (by rw [hn]; decide) ?_
      rw [hn, creg_zero, coreId, h.threadView_site]
      rfl
    case threads =>
      exact ⟨fun hn => thread u 2 _ hn (by decide) rfl, fun hn => thread u 3 _ hn (by decide) rfl,
        fun hn => thread u 4 _ hn (by decide) rfl, fun hn => thread u 5 _ hn (by decide) rfl,
        fun hn => thread u 6 _ hn (by decide) rfl, fun hn => thread u 7 _ hn (by decide) rfl,
        fun hn => thread u 8 _ hn (by decide) rfl, fun hn => thread u 9 _ hn (by decide) rfl⟩
    case time => exact fun hn => exec_rdcr_of_creg h (by rw [hn]; decide) (by rw [hn, creg_timeNow])
    case core =>
      intro lo hi ne
      exact event site ((isEvCrn_iff _).mpr (by omega)) (by rw [evUnit_core _ hi ne, h.threadView_site])
    case die => exact fun hn => event 0 ((isEvCrn_iff _).mpr (by omega)) (evUnit_die _ hn)
    case stack => exact fun lo hi => event _ ((isEvCrn_iff _).mpr (by omega)) (evUnit_stack _ lo hi)
    case link => exact fun lo hi sel => event _ ((isEvCrn_iff _).mpr (by omega)) (evUnit_link _ lo hi sel)
    case none =>
      intro lo hi
      refine exec_rdcr_unassigned h (Bool.eq_false_iff.mpr fun assigned => ?_)
      have := (crAssigned_iff _).mp assigned
      omega
  case write =>
    rintro c a o s site th n v hc h rfl rfl rfl
    dsimp only
    have own := fun (i : Nat) => exec_writeCr_own hc h (i := i)
    have event := fun (u : Nat) => exec_writeCr_event hc h (u := u)
    refine ⟨?other, ?readOnly, ?fpc, ?fvec, ?fpsr, ?tcmp, ?evSel, ?lnkSel, ?fixed, ?core, ?die, ?stack, ?link, ?stream⟩
    case other =>
      intro lo hi assigned notOwn
      exact exec_writeCr_thread hc h ((crAssigned_iff _).mpr (by omega)) (writeCr_other_thread s a site _ _ lo hi notOwn)
    case readOnly =>
      rintro (hn | hn | hn | hn | hn)
      · exact own 0 (by decide) hn
      · exact own 1 (by decide) hn
      · exact own 3 (by decide) hn
      · exact own 6 (by decide) hn
      · exact own 7 (by decide) hn
    case fpc => exact fun hn => by rw [own 2 (by decide) hn, Thread.writeReg_fpc]
    case fvec => exact fun hn => by rw [own 4 (by decide) hn, Thread.writeReg_fvec]
    case fpsr => exact fun hn => by rw [own 5 (by decide) hn, Thread.writeReg_flags]
    case tcmp => exact own 8 (by decide)
    case evSel =>
      intro hn
      rw [exec_writeCr_sel hc h (by rw [hn]; decide) (by omega) (by rw [hn]; decide) (by omega), hn, Thread.writeSel_evSel]
    case lnkSel =>
      intro hn
      rw [exec_writeCr_sel hc h (by rw [hn]; decide) (by omega) (by rw [hn]; decide) (by omega), hn, Thread.writeSel_lnkSel]
    case fixed =>
      intro hn
      have event : isEvCrn o.crn.toNat = false :=
        Bool.eq_false_iff.mpr fun e => by have := (isEvCrn_iff _).mp e; omega
      rw [exec_writeCr_sel hc h ((crAssigned_iff _).mpr (by omega)) (by omega) event (by omega),
        Thread.writeSel_of_readOnly _ _ hn]
    case core =>
      intro lo hi ne
      exact event site ((isEvCrn_iff _).mpr (by omega)) (by rw [evUnit_core _ hi ne, h.threadView_site])
    case die => exact fun hn => event 0 ((isEvCrn_iff _).mpr (by omega)) (evUnit_die _ hn)
    case stack => exact fun lo hi => event _ ((isEvCrn_iff _).mpr (by omega)) (evUnit_stack _ lo hi)
    case link => exact fun lo hi sel => event _ ((isEvCrn_iff _).mpr (by omega)) (evUnit_link _ lo hi sel)
    case stream => exact fun hn lo hi => exec_writeCr_stream hc h hn rfl lo hi
  case debug =>
    rintro k s f r _ m rfl
    dsimp only
    rw [← dbgForm_iff, ← dbgInGrid_iff]
    refine ⟨fun bad => exec_dbgRead m ?_, fun form out => exec_dbgRead m ?_, fun form grid past => exec_dbgRead m ?_,
      fun form grid inside => exec_dbgRead m ?_⟩
    · simp [dbgCode, bad]
    · simp [dbgCode, form, out]
    · simp [dbgCode, form, grid, past]
    · simp [dbgCode, form, grid, inside]

end Sys2Proof.Machine
end
